-- ==== Sys2Proof/Word.lean ====
section
/-!
DEFINITION. The word and byte types of the module: registers are 32 bits wide (R5), buffers and frames are bytes.
-/

namespace Sys2Proof

/-- A 32-bit register value (R5). -/
abbrev Word := BitVec 32

/-- One byte of a buffer, a frame or a memory. -/
abbrev Byte := BitVec 8

end Sys2Proof
end

