-- ==== Sys2Proof/Syntax.lean ====
section
/-!
DEFINITION. The commands and events of the module (spec/opcode_table.json).  The table gives its rows no operand
bits, so an operand stands for what the row takes from outside the module: a register address and value, the bytes
a DMA delivers, a sensor reading, a received frame, the failure of a part.
-/

namespace Sys2Proof

/-- A DMA request that fails (R107): its kind (0 Unsupported Request, 1 Completer Abort, 2 poisoned, 3 timeout), its
data offset (its host address follows from the DATA elements), and the list segment when it is the read of one. -/
structure DmaErr where
  kind : Fin 4
  offset : Nat
  seg : Option Nat
  deriving DecidableEq, Repr

/-- What a command's buffer yields (R106-R108): the list segments read, in order, the data bytes of a host-to-module
transfer in list order (host memory past them reads 0), and the failure of a request if one fails. -/
structure Dma where
  segs : List (List Byte)
  data : List Byte
  err : Option DmaErr
  deriving DecidableEq, Repr

/-- What an SQ fetch returns: whole 64-byte entries, or an error completion (R97, R99). -/
inductive FetchRes where
  | entries (es : List (List Byte))
  | error
  deriving DecidableEq, Repr

/-- A received block of a 64b/66b link, descrambled (R271, R274): a data block, its first byte least significant, or a control block, its
type (the first byte) and the other seven bytes. -/
inductive Blk where
  | data (bytes : BitVec 64)
  | control (type : Byte) (rest : BitVec 56)
  deriving DecidableEq, Repr

/-- The two halves of a raster engine's work on a line, which R180 schedules apart: stages 1 to 8, and stages 9 and 10. -/
inductive RasterPart where
  | front
  | back
  deriving DecidableEq, Repr

/-- What the bring-up of a camera finds (R335): no camera answers, the wiring is wrong, or a camera that takes stream
packets of at most a size. -/
inductive CamFind where
  | none
  | wiring
  | ok (packetMax : Nat)
  deriving DecidableEq, Repr

/-- What arrives from a camera (R337-R339): an image header, with its X size and whether its pixel format is a 12-bit
six-component one; or a line, with its samples (a packet that failed its CRC gives 0 in its bytes), whether such a packet
carries bytes of it, and the links on which packets failed. -/
inductive CamItem where
  | header (xSize : Nat) (formatOk : Bool)
  | line (samples : List (BitVec 12)) (bad : Bool) (errLinks : List (Fin 4))
  deriving DecidableEq, Repr

/-- What an Announce message carries (R384). -/
structure PtpAnnounce where
  gm : BitVec 64
  priority1 : BitVec 8
  clockClass : BitVec 8
  accuracy : BitVec 8
  variance : BitVec 16
  priority2 : BitVec 8
  steps : BitVec 16
  utcOffset : BitVec 16
  utcValid : Bool
  ptpTimescale : Bool
  deriving DecidableEq, Repr

/-- A received PTP message (R384): time stamps are in 2^-16 ns since the PTP epoch. -/
inductive PtpBody where
  | announce (a : PtpAnnounce)
  | sync (twoStep : Bool) (origin : Nat) (logInterval : Int)
  | followUp (origin : Nat)
  | delayReq
  | delayResp (receive : Nat)
  | pdelayReq
  | pdelayResp (twoStep : Bool) (receive : Nat)
  | pdelayRespFollowUp (origin : Nat)
  /-- A management, signalling, unicast negotiation or other message that is not implemented. -/
  | other
  deriving DecidableEq, Repr

/-- The header of a received PTP message: it comes in the configured transport and format, its domain, sequence and
sourcePortIdentity, the requestingPortIdentity of a response, and its correctionField in 2^-16 ns. -/
structure PtpHead where
  transportOk : Bool
  domain : BitVec 8
  seq : BitVec 16
  source : BitVec 80
  requesting : BitVec 80
  correction : Int
  deriving DecidableEq, Repr

/-- What a start-up finds (R73, R74): the straps, the main PLL's lock, the DRAM channels that fail training, and the number
of the self-test that fails; and another source of R70's table, by its cause code, that acts within the same 1 ms (R72). -/
structure StartUp where
  straps : BitVec 7
  pllOk : Bool
  badChannels : BitVec 4
  testFails : Option Nat
  also : Option (Fin 8)
  deriving DecidableEq, Repr

/-- What a lane finds when it trains (R315-R318): CDR lock; the word boundary at which it aligns, or that it does; the skew
of lane 1 in blocks and whether two markers agree on it; invalid headers and code violations met, and pattern bits in
error. -/
structure LaneRes where
  cdr : Bool
  slip : Option (Fin 66)
  skew : Int
  steady : Bool
  syncErrs : Nat
  bitErrs : Nat
  deriving DecidableEq, Repr

/-- A measurement of the bulk capacitor (R492): voltages in mV, time in us, load in mW. -/
structure HoldUp where
  v1 : Nat
  v2 : Nat
  vMin : Nat
  time : Nat
  load : Nat
  deriving DecidableEq, Repr


/-- The commands and events of the module, one constructor for each row of the opcode table, with what each takes
from outside as its operands. -/
inductive Instr where
  /-- POWER_ON (R73). Mains is applied and the module runs the full start-up sequence to HOLD. -/
  | powerOn (up : StartUp)
  /-- PERST (R70). PERST# is asserted and the module performs a warm reset from step 3. -/
  | perst (up : StartUp)
  /-- WARM_RESET (R71). A write of 1 to SYS_CTRL.WARM_RESET ends firing, completes NVM writes and warm-resets the
  module. -/
  | warmReset (up : StartUp)
  /-- FEAT_LOCK (R77). A write of 1 to SYS_CTRL.FEAT_LOCK checks the accepted feature set and locks it or reports
  the lowest failing bit. -/
  | featLock
  /-- REGISTER_WRITE (R8). A host write to a register without behaviour of its own takes effect according to its
  access code. -/
  | registerWrite (addr : Nat) (value : Word)
  /-- STRAP_CHANGED (R47). A strap changes after reset; it has no effect and the change is logged. -/
  | strapChanged (straps : BitVec 7)
  /-- BASEPLATE_TEMP_READ (R493). Every second the base-plate and die sensors are read and the highest value is
  published. -/
  | baseplateTempRead (plate : List Int) (die : List Int)
  /-- POWER_FAIL_WARNING (R43). Stored energy reaches its reserve, and the module resigns, ends firing, logs
  PWR_FAIL, finishes NVM writes and sets outputs unpowered. -/
  | powerFailWarning
  /-- POWER_FAIL_RETURN (R70). Mains returns after power-fail warning and the module completes shutdown and full-
  resets. -/
  | powerFailReturn (up : StartUp)
  /-- MAINS_DIP_RETURN (R492). Mains returns before power-fail warning and the module measures hold-up from the
  capacitor decay. -/
  | mainsDipReturn (meas : HoldUp)
  /-- PRESENT_SETTLED (R63). Both PRESENT pins have read 0 for 100 ms and the module enables its J2 transmitters and
  ROLE. -/
  | presentSettled (up : StartUp)
  /-- FORCED_REMOVAL (R65). A PRESENT pin reads 1 with EJECT closed; J2 goes quiet within 1 µs and the role is given
  up without RESIGN. -/
  | forcedRemoval
  /-- MISALIGNED_INSERTION (R66). One PRESENT pin reads 0 and the other 1 for over 1 s; the event is logged and J2
  stays quiet. -/
  | misalignedInsertion
  /-- EJECT_OPEN (R64). EJECT opens; the module resigns or leaves the pair, releases outputs, idles J2 and lights
  REMOVE. -/
  | ejectOpen
  /-- EJECT_CLOSE (R64). EJECT closes after the removal steps and the module starts from full reset. -/
  | ejectClose (up : StartUp)
  /-- REF_FAULT (R69). SHREF is lost or deviates beyond ±100 ppm; the PLL holds over, the module resigns, ends
  firing, logs and enters HOLD. -/
  | refFault (deviation : Int)
  /-- CLOCK_FAULT (R70). The main PLL fails to relock after a reference fault and the module full-resets. -/
  | clockFault (up : StartUp)
  /-- SQ_TAIL_DOORBELL (R97). A write to the SQ tail doorbell makes new submission entries available for fetch, or
  stops the pair when invalid. -/
  | sqTailDoorbell (q : Fin 16) (value : Word)
  /-- CQ_HEAD_DOORBELL (R99). A write to the CQ head doorbell frees completion slots, or stops the pair when
  invalid. -/
  | cqHeadDoorbell (q : Fin 16) (value : Word)
  /-- SQ_FETCH (R97). A fetch of submission entries from the SQ completes, and the fetched commands wait for a free
  CQ slot and their start. -/
  | sqFetch (q : Fin 16) (res : FetchRes)
  /-- QUEUE_ENABLE (R93). A write of ENABLE = 1 to HOSTQ_Qq_CTRL checks the pair set-up and enables it or sets
  CFG_ERR. -/
  | queueEnable (q : Fin 16) (value : Word)
  /-- QUEUE_DISABLE (R94). A write of ENABLE = 0 stops fetching from the pair and lets fetched commands run to
  completion. -/
  | queueDisable (q : Fin 16) (value : Word)
  /-- QUEUE_DRAINED (R94). The last fetched command of a disabled pair completes and ACTIVE clears. -/
  | queueDrained (q : Fin 16)
  /-- INTERRUPT_AGG_TIMEOUT (R102). The oldest unsignalled completion entry reaches AGG_TIME and the completion
  vector is sent. -/
  | interruptAggTimeout (q : Fin 16)
  /-- HOST_LINK_RESET (R89). An FLR or loss of the PCIe data link disables queues, aborts data DMA and logs
  HOST_LINK_RESET without affecting printing. -/
  | hostLinkReset (dataLinkLost : Bool)
  /-- DMA_ERROR (R107). A DMA request fails with UR, CA, poison or timeout; the transfer stops and the command
  completes with the data offset. -/
  | dmaError (q : Fin 16) (dma : Dma)
  /-- CFG_BEGIN (R80). Opens a configuration session from reset values, a stored copy or the last committed
  configuration. -/
  | cfgBegin (q : Fin 16)
  /-- CFG_WRITE (R81). Writes bytes into the staging image and extends CFG_RUN_COUNT and CFG_RUN_CRC. -/
  | cfgWrite (q : Fin 16) (dma : Dma)
  /-- CFG_COMMIT (R82). Checks the staging image and puts it in force, optionally storing it to NVM. -/
  | cfgCommit (q : Fin 16) (storeFails : Bool)
  /-- CFG_READ (R511). Copies configuration bytes from the staging image or the configuration in force to a host
  buffer. -/
  | cfgRead (q : Fin 16) (dma : Dma)
  /-- START (R76). Leaves HOLD for SERVICE when the feature, configuration, self-test, clock and temperature
  conditions hold. -/
  | start (q : Fin 16)
  /-- STOP (R115). Aborts or awaits scheduled and printing jobs and then enters HOLD. -/
  | stop (q : Fin 16)
  /-- JOB_ADMIT (R135). Checks a job record, computes its speed ceiling and publishes its job descriptor table
  entry. -/
  | jobAdmit (q : Fin 16) (dma : Dma)
  /-- JOB_PLACEMENT (R137). The placement engine reads a published entry and assigns windows, lanes and engines. -/
  | jobPlacement
  /-- JOB_RUN (R118). Schedules line 0 of an admitted job at a web position or time. -/
  | jobRun (q : Fin 16)
  /-- JOB_ABORT (R131). Ends the named job at the next line boundary of each of its bars and releases its resources. -/
  | jobAbort (q : Fin 16)
  /-- JOB_STATUS (R132). Returns a job's state, defect count and per-bar last lines. -/
  | jobStatus (q : Fin 16)
  /-- COMMIT_POST (R32). Checks a commit point record against horizon, state and resources and admits it with a SEQ
  or refuses it. -/
  | commitPost (q : Fin 16)
  /-- COMMIT_LIST (R115). Writes the pending commit point records of a bar or all bars in SEQ order. -/
  | commitList (q : Fin 16) (dma : Dma)
  /-- STRIP_SUBMIT (R121). Checks a strip envelope and copies the strip into the plane's streaming window or the
  repeat store. -/
  | stripSubmit (q : Fin 16) (dma : Dma)
  /-- STRIP_WINDOW_ROOM (R145). Space frees in a plane's window and a waiting STRIP_SUBMIT is checked and
  transferred. -/
  | stripWindowRoom
  /-- STRIP_SUBMIT_RAW (R179). Pre-transforms and compresses an uncompressed strip and stores it with a built
  envelope. -/
  | stripSubmitRaw (q : Fin 16) (dma : Dma)
  /-- TABLE_LOAD (R512). Writes one Last table, screen set or nozzle map bank after checking lock, length and CRC. -/
  | tableLoad (q : Fin 16) (dma : Dma)
  /-- TABLE_READ (R120). Copies a bank to a host buffer and returns its CRC. -/
  | tableRead (q : Fin 16) (dma : Dma)
  /-- FRAME_READ (R351). Copies one archived camera frame, optionally compressed, to a host buffer. -/
  | frameRead (q : Fin 16) (dma : Dma)
  /-- STATS_READ (R350). Copies statistics records from a given frame upward. -/
  | statsRead (q : Fin 16) (dma : Dma)
  /-- LOG_READ (R126). Copies event-log records from FROM_SEQ upward and reports gaps. -/
  | logRead (q : Fin 16) (dma : Dma)
  /-- HEALTH_READ (R123). Copies a single-instant snapshot of the health and NVM registers. -/
  | healthRead (q : Fin 16) (dma : Dma)
  /-- FW_WRITE (R504). Programs bytes into a firmware image and marks it unverified. -/
  | fwWrite (q : Fin 16) (dma : Dma) (programFails : Bool)
  /-- FW_VERIFY (R124). Checks the signature and digest of a firmware image and records VERIFIED or FAILED. -/
  | fwVerify (q : Fin 16)
  /-- FW_SELECT (R124). Selects a verified image for loading at the next reset. -/
  | fwSelect (q : Fin 16)
  /-- POWER_SET (R473). Enters a power state, running the query, quiesce, drain, save and power-down phases as
  needed. -/
  | powerSet (q : Fin 16)
  /-- AGENT_TIMEOUT (R473). An agent does not answer within PWR_PHASE_TIMEOUT and the entry is treated as refused. -/
  | agentTimeout (agent : Fin 14)
  /-- DRAIN_ABORT (R476). Requests still pending at PWR_DRAIN_TIMEOUT are aborted with DOMAIN_DOWN and the port-
  alive signal falls. -/
  | drainAbort
  /-- DOZE_EXIT (R470). A BAR0 or doorbell write in DOZE returns the module to its previous state before the write
  takes effect. -/
  | dozeExit
  /-- TIME_STEP (R380). Arms a step of local time at the next source update. -/
  | timeStep (q : Fin 16)
  /-- SAFE_PROPOSE (R462). Hands a proposed safety parameter set to the partition, which checks, stores and puts it
  in force or refuses it. -/
  | safePropose (q : Fin 16) (dma : Dma) (answers : Bool)
  /-- PAIR_CTRL (R440). Resigns, rejoins, requests takeback or leaves the pair according to ACTION. -/
  | pairCtrl (q : Fin 16)
  /-- CAL_RUN (R494). Runs a numbered calibration once at its next opportunity and returns its quality figure. -/
  | calRun (q : Fin 16)
  /-- LOOP_CTRL (R354). Switches the colour or register loop of a bar off, on or to hold. -/
  | loopCtrl (q : Fin 16)
  /-- LINE_TICK (R248). The grid phase reaches a reference tick and each bar issues its line, sends its token and
  applies line-boundary changes. -/
  | lineTick (job : Nat)
  /-- OVERSPEED_RESUME (R260). The line rate has stayed below the limit for 1,000 pitches and firing resumes on
  every bar. -/
  | overspeedResume
  /-- RASTER_LINE (R180). A raster engine processes one decoded line through its stages and hands head lines to the
  Lace framer. -/
  | rasterLine (bar : Fin 8) (part : RasterPart)
  /-- ENGINE_FAULT (R205). A raster engine fails by watchdog, SRAM or microcode and RE8 takes its bar or the bar is
  lost. -/
  | engineFault (engine : Fin 9) (cause : Fin 3)
  /-- STRIP_DECODE (R168). A decompression lane decodes a strip and reports any stream, overrun, short, CRC or
  poison fault. -/
  | stripDecode (lane : Fin 24) (poison : Option Nat)
  /-- DECOMPRESSION_LANE_FAIL (R151). A decompression lane fails and its chain resumes on another lane from the
  saved context image. -/
  | decompressionLaneFail (lane : Fin 24) (imageBad : Bool)
  /-- PLACEMENT_REPLAN (R149). A part changes state and the placement engine recomputes ceilings and passes new
  rates to the firing block. -/
  | placementReplan
  /-- COMPRESSION_STREAM (R173). A waiting stream takes a free compression lane and is compressed, optionally self-
  verified. -/
  | compressionStream (verifyFails : Bool)
  /-- QUADRATURE_ERROR (R208). An encoder's quadrature state changes by two between samples and the channel faults. -/
  | quadratureError (k : Fin 4)
  /-- WIRE_DISAGREE (R210). The wire-disagree monitor reports a fault on an input pair and the channel faults or
  index latching stops. -/
  | wireDisagree (k : Fin 4) (pair : Fin 4)
  /-- POSITION_LOST (R220). Coasting lasts POS_COAST, the observer stops, ticks cease and scheduled and printing
  jobs are aborted. -/
  | positionLost
  /-- INDEX (R227). Z is high in the qualifying state and an index is latched, checked for drift, or used for an
  armed re-zero. -/
  | index (k : Fin 4)
  /-- IDX_MISSED (R229). The count crosses an index window without an accepted index and the miss is counted. -/
  | idxMissed (k : Fin 4)
  /-- REZERO_ARM (R230). A write of 1 to POS_ENCk_CTRL.REZERO_ARM arms a re-zero at the next index, or is refused in
  SERVICE. -/
  | rezeroArm (k : Fin 4)
  /-- REZERO_CANCEL (R230). A write of 1 to POS_ENCk_CTRL.REZERO_CANCEL clears an armed re-zero. -/
  | rezeroCancel (k : Fin 4)
  /-- SSI_FRAME (R211). A serial frame falls due; the module clocks or hears it and updates the channel count or
  records a bad frame. -/
  | ssiFrame (chan : Fin 2) (bits : Nat) (wire : Bool)
  /-- SSI_FRAME_TIMEOUT (R215). DATA does not return to 1 within the timeout and the frame is bad;
  `clocked`: the whole frame had been clocked by then. -/
  | ssiFrameTimeout (chan : Fin 2) (clocked : Bool := true)
  /-- OBSERVER_UPDATE (R221). Every 1 µs the observer updates position, speed and acceleration and the dependent
  speed reactions run. -/
  | observerUpdate
  /-- POS_SNAPSHOT (R224). A write of 1 to POS_CTRL.SNAPSHOT captures the observer outputs and counts at the next
  update. -/
  | posSnapshot
  /-- CMP_ARM (R233). A write to POS_CMPk_ARM arms compare entries, which fire or go late when already behind. -/
  | cmpArm (k : Fin 8) (hi : Bool) (value : Word)
  /-- CMP_DISARM (R231). A write to POS_CMPk_DISARM returns compare entries to IDLE. -/
  | cmpDisarm (k : Fin 8) (hi : Bool) (value : Word)
  /-- CMP_FIRE (R234). The source count crosses an entry's target, or the time counter reaches it, and the entry
  acts on the output level. -/
  | cmpFire (k : Fin 8)
  /-- CMP_PULSE_RETURN (R234). A scheduled pulse return falls due and the compare level returns to 0. -/
  | cmpPulseReturn (k : Fin 8)
  /-- EMU_STEP (R239). An emulation output with owed counts emits one step toward its target. -/
  | emuStep (e : Fin 2)
  /-- ADC_SAMPLE (R242). A channel takes a sample, publishes code, time and filtered value and checks its limits. -/
  | adcSample (n : Fin 8) (code : Int)
  /-- TEMPS (R261). A TEMPS frame arrives and the firing block derates, stops or resumes heads from the report. -/
  | temps (bar : Fin 8) (frame : List Blk)
  /-- HEAD_TEMP_STALE (R264). A printing head has had no valid report for FIRE_TEMP_STALE lines and is stopped. -/
  | headTempStale (bar : Fin 8) (head : Fin 24)
  /-- HEAD_RESUME_WRITE (R265). A write to FIRE_BARb_RESUME resumes a stopped head or is refused. -/
  | headResumeWrite (bar : Fin 8) (value : Word)
  /-- LACE_LINK_UP (R289). A port of an enabled bar starts link-up after block lock, sending ECHO, authentication
  and set-up frames. -/
  | laceLinkUp (bar : Fin 8)
  /-- LACE_STEP_TIMEOUT (R290). A link-up step does not complete in its time and the port returns to DOWN. -/
  | laceStepTimeout (bar : Fin 8)
  /-- LACE_RETRY (R290). Every 100 ms a DOWN port retries link-up from step 1. -/
  | laceRetry (bar : Fin 8)
  /-- ECHO_REPLY (R286). An ECHO_REPLY arrives and contributes to the one-way latency measurement. -/
  | echoReply (bar : Fin 8) (frame : List Blk)
  /-- AUTH_RESPONSE (R292). An AUTH_RESPONSE arrives, TN is checked and AUTH_CONFIRM is sent and the session key
  derived. -/
  | authResponse (bar : Fin 8) (frame : List Blk)
  /-- SETUP_ACK (R289). A SETUP_ACK arrives with heads present and buffer depth. -/
  | setupAck (bar : Fin 8) (frame : List Blk)
  /-- HMEM_DATA (R288). A head memory block arrives and the head is rated from its records. -/
  | hmemData (bar : Fin 8) (frame : List Blk)
  /-- SENSE_DATA (R297). Sense results arrive and are published in LACEb_SENSE_DATA. -/
  | senseData (bar : Fin 8) (frame : List Blk)
  /-- FILL (R285). A FILL frame arrives with the node's buffer levels. -/
  | fill (bar : Fin 8) (frame : List Blk)
  /-- STATUS (R291). A node STATUS frame arrives with heads present, local stops and inhibit cause. -/
  | status (bar : Fin 8) (frame : List Blk)
  /-- PORT_STATUS (R285). A PORT_STATUS frame arrives with the followed port, epochs and mismatch report. -/
  | portStatus (bar : Fin 8) (frame : List Blk)
  /-- FLOOD_INTERVAL (R299). A 100 µs interval ends and the token-bucket discard count is checked toward FLOOD
  quarantine. -/
  | floodInterval
  /-- INHIBIT_TOKEN_REPEAT (R281). During fire inhibit an INHIBIT token is sent at least every 100 µs. -/
  | inhibitTokenRepeat (bar : Fin 8)
  /-- RELINK (R301). A write of 1 to LACEb_CTRL.RELINK ends a quarantine in HOLD, or is refused in SERVICE. -/
  | relink (bar : Fin 8)
  /-- SENSE_REQ (R297). A write of 1 to LACEb_CTRL.SENSE_REQ sends SENSE_REQ for the selected head. -/
  | senseReq (bar : Fin 8)
  /-- LANE_LOCK_LOST (R319). An up lane loses block lock or alignment, goes down and is retrained. -/
  | laneLockLost (lane : Fin 36) (syncErrs : Nat)
  /-- LANE_RETRAIN (R324). A lane retrains, applying its row and CDR bandwidth and acquiring lock, alignment and
  deskew. -/
  | laneRetrain (lane : Fin 36) (res : LaneRes)
  /-- BITSLIP (R316). A write of 1 to LANE_LNℓ_CTRL.BITSLIP moves the word boundary one UI later. -/
  | bitslip (lane : Fin 36) (res : LaneRes)
  /-- RETRAIN (R324). A write of 1 to LANE_LNℓ_CTRL.RETRAIN retrains the lane in HOLD or is refused in SERVICE. -/
  | retrain (lane : Fin 36)
  /-- ERR_RESTART (R330). A write of 1 to LANE_LNℓ_CTRL.ERR_RESTART zeroes the PRBS error count. -/
  | errRestart (lane : Fin 36)
  /-- LANE_TEST (R329). A write to LANE_LNℓ_TEST takes a lane into a loop or pattern in HOLD. -/
  | laneTest (lane : Fin 36) (value : Word)
  /-- EYE_SCAN_GO (R326). A write of 1 to LANE_EYE_GO starts or queues a scan of the named lane. -/
  | eyeScanGo
  /-- EYE_SCAN_DONE (R327). A scan ends and its width and height are published with a new SEQ. -/
  | eyeScanDone (width : Fin 65) (height : Fin 401)
  /-- CXP_CTL_READ (R334). A write of READ to CXP_CTL_GO starts a camera register read. -/
  | cxpCtlRead
  /-- CXP_CTL_WRITE (R334). A write of WRITE to CXP_CTL_GO starts a camera register write. -/
  | cxpCtlWrite
  /-- CONTROL_ACCESS_DONE (R334). A camera acknowledges or 200 ms pass and the control result is published. -/
  | controlAccessDone (res : Option (BitVec 8 × Word))
  /-- CAMERA_BRINGUP (R335). The module discovers, checks, configures and starts a camera. -/
  | cameraBringup (cam : Fin 2) (find : CamFind)
  /-- CAM_DOWN (R335). Every link of a camera is lost and the camera is down. -/
  | camDown (cam : Fin 2)
  /-- CAMERA_LINE_TRIGGER (R336). The position grid index advances and a line trigger is sent and stamped, or the
  index is skipped. -/
  | cameraLineTrigger (cam : Fin 2)
  /-- CAMERA_LINE (R337). A camera line or image header arrives and is assigned to a frame, opening or closing
  frames. -/
  | cameraLine (cam : Fin 2) (item : CamItem)
  /-- FRAME_CLOSE_TIMEOUT (R338). 50 ms pass without a packet after the last owed trigger and the frame closes. -/
  | frameCloseTimeout (cam : Fin 2)
  /-- VISION_LINE (R341). The pipeline takes the next line of a camera and corrects and measures it. -/
  | visionLine
  /-- COLOUR_CYCLE (R360). A colour loop cycle uses new frames to update head and segment corrections and starts a
  ramp. -/
  | colourCycle
  /-- RAMP_STEP (R362). A ramp step has taken effect and the loop writes and posts the next step's table. -/
  | rampStep (bar : Fin 8)
  /-- REGISTER_CYCLE (R367). A register loop cycle computes bar errors and posts BAR_PHASE targets. -/
  | registerCycle
  /-- TIME_SNAPSHOT (R377). A write of 1 to TIME_CTRL.SNAPSHOT captures the counter and local time of one edge. -/
  | timeSnapshot
  /-- SERVO_UPDATE (R379). A source measurement arrives and the servo sets the rate, steps when due and updates its
  lock state. -/
  | servoUpdate (theta : Int) (tau : Nat)
  /-- TIME_STEP_TIMEOUT (R380). No update arrives within 10 s of TIME_STEP and the command completes with
  OUT_OF_RANGE. -/
  | timeStepTimeout
  /-- TIME_HOLDOVER (R382). The source delivers no update for 4τ or changes master and the servo holds its rate. -/
  | timeHoldover (cause : Fin 3)
  /-- PTP_MESSAGE (R384). A PTP message arrives on a port and is processed by the PTP instance. -/
  | ptpMessage (port : Fin 2) (head : PtpHead) (body : PtpBody)
  /-- NET_LINK_UP (R393). An Ethernet port's link comes up. -/
  | netLinkUp (port : Fin 2)
  /-- NET_LINK_DOWN (R393). An Ethernet port's link goes down. -/
  | netLinkDown (port : Fin 2)
  /-- TSQ_POP (R387). A write to NET_PORTp_TSQ_POP removes the oldest transmit time stamp. -/
  | tsqPop (port : Fin 2)
  /-- TSQ_OVERFLOW (R387). A time stamp finds the queue full and is dropped. -/
  | tsqOverflow (port : Fin 2)
  /-- TRIG_ARM (R388). A write to TIME_TRIG_ARM arms trigger units. -/
  | trigArm (value : Word)
  /-- TRIG_DISARM (R388). A write to TIME_TRIG_DISARM returns trigger units to IDLE. -/
  | trigDisarm (value : Word)
  /-- TRIGGER_FIRE (R389). Local time reaches a unit's target and the unit fires to its consumers and advances. -/
  | triggerFire (unit : Fin 16)
  /-- PPS_IN (R391). A PPS_IN rising edge latches the counter and serves as a PPS update. -/
  | ppsIn (widthNs : Nat)
  /-- PPS_OUT (R392). Local time reaches a whole second and PPS_OUT rises. -/
  | ppsOut
  /-- PPS_OUT_FALL (R392). WIDTH ms after its rise PPS_OUT falls. -/
  | ppsOutFall
  /-- MEMORY_REQUEST (R409). A requester issues a 64-byte request to a channel, which is granted or parked. -/
  | memoryRequest (chan : Fin 4) (port : Fin 32) (addr : Nat) (write : Option (Nat × List Byte)) (opp : Bool)
  /-- ARBITER_GRANT (R408). A grant opportunity arises and the arbiter grants by slot or priority. -/
  | arbiterGrant (chan : Fin 4)
  /-- DRAM_READ (R399). A burst read is decoded, corrected and written back, or returned poisoned. -/
  | dramRead (chan : Fin 4) (err : List (Fin 40 × BitVec 16))
  /-- DRAM_CHANNEL_FAILED (R404). A channel fails, later requests return poisoned, placement re-plans and strips are
  resubmitted. -/
  | dramChannelFailed (chan : Fin 4) (cause : Fin 4)
  /-- PATROL_SCRUB (R399). A patrol scrub reads codewords of a channel in idle opportunities. -/
  | patrolScrub (chan : Fin 4) (err : List (Fin 40 × BitVec 16))
  /-- CAPAR_ALERT (R402). ALERT_n signals a command/address parity error and buffered commands are replayed. -/
  | caparAlert (chan : Fin 4) (inReplay : Bool)
  /-- ZQ_CALIBRATION (R403). Every 128 ms ZQ calibration runs in a refresh gap. -/
  | zqCalibration (chan : Fin 4) (ok : Bool)
  /-- DQS_CORRECTION (R403). Once per retraining period the DQS oscillator is read and drift is corrected. -/
  | dqsCorrection (chan : Fin 4) (drift : Int) (ok : Bool)
  /-- RANK_POWER_DOWN (R405). A rank idle for MEMC_PD_IDLE enters power-down. -/
  | rankPowerDown (chan : Fin 4) (rank : Fin 2)
  /-- SELF_REFRESH_ENTRY (R406). A channel idle for MEMC_SR_IDLE issues the self-refresh entry command when asked. -/
  | selfRefreshEntry (chan : Fin 4)
  /-- SWAP (R412). A write of 1 to ARB_CTRL.SWAP sets SWAP_PENDING so each arbiter copies the shadow table at its
  next wrap. -/
  | swap
  /-- ARB_PORT_MASKED (R411). A port's alive signal falls and its pending requests are discarded. -/
  | arbPortMasked (port : Fin 32)
  /-- HELLO (R423). A HELLO arrives and the pair forms or is found incompatible. -/
  | hello (frame : List Blk)
  /-- HELLO_SEND (R421). Every 1 ms before formation and 100 ms after it a HELLO is sent. -/
  | helloSend
  /-- HEARTBEAT_SEND (R421). On each 8 µs counter multiple a heartbeat is sent on every up Shank lane. -/
  | heartbeatSend
  /-- HEARTBEAT (R422). A heartbeat arrives, refreshing partner liveness, position offset and time source, and
  possibly demoting. -/
  | heartbeat (frame : List Blk)
  /-- PAIR_LOSS (R432). No valid heartbeat for 32 µs; the partner is lost and a STANDBY takes over or enters HOLD. -/
  | pairLoss
  /-- COMMIT (R426). A COMMIT frame arrives and the STANDBY admits the record, building and checking the bank. -/
  | commit (frame : List Blk)
  /-- DECISION (R426). A DECISION frame arrives and the STANDBY applies the ACTIVE's decision at its line. -/
  | decision (frame : List Blk)
  /-- LOOP (R370). A LOOP frame arrives with corrections, a target or a map for the STANDBY. -/
  | loop (frame : List Blk)
  /-- LINE_CRC (R427). A LINE_CRC frame arrives and the STANDBY compares line digests. -/
  | lineCrc (frame : List Blk)
  /-- CMD (R424). A CMD frame arrives and a matched STANDBY command completes with the ACTIVE's result or a
  mismatch. -/
  | cmd (frame : List Blk)
  /-- CMD_MATCH_TIMEOUT (R424). PAIR_MATCH_MS passes without the matching command or frame and the STANDBY goes
  OUT_OF_STEP. -/
  | cmdMatchTimeout (key : Nat)
  /-- JOB (R425). A JOB frame arrives with a grid origin that the STANDBY adopts less Δx. -/
  | job (frame : List Blk)
  /-- STATE (R438). A STATE frame arrives during resynchronisation with a state item. -/
  | state (frame : List Blk)
  /-- RESIGN (R431). A RESIGN frame arrives and the STANDBY takes over. -/
  | resign (frame : List Blk)
  /-- DIAG (R430). A DIAG frame arrives and the mismatch outcome is decided. -/
  | diag (frame : List Blk)
  /-- MISMATCH_RESOLVE_TIMEOUT (R430). 200 µs pass after a mismatch and the outcome is decided with missing DIAG as
  no fault. -/
  | mismatchResolveTimeout
  /-- SYNC_REQ (R437). A SYNC_REQ arrives and the ACTIVE starts a resynchronisation or arms takeback. -/
  | syncReq (frame : List Blk)
  /-- RELEASED (R435). A RELEASED frame arrives and the new ACTIVE drives the outputs and takes the role. -/
  | released (frame : List Blk)
  /-- SAFETY_EVALUATION (R447). Every 100 µs the partition samples the safety inputs and readback and switches
  FIRE_PERMIT. -/
  | safetyEvaluation (in1 : Bool) (in2 : Bool) (key : Bool) (rb1 : Bool) (rb2 : Bool)
  /-- PERMIT_TEST (R448). A scheduled permit test switches one output off for 300 µs and checks the readback. -/
  | permitTest (chan : Fin 2) (ok : Bool)
  /-- SAFE_SPEED_TRIP (R453). Every 1 ms the partition measures speed and trips SF2 above SPEED_TRIP. -/
  | safeSpeedTrip (edges : Nat)
  /-- SAFE_BAR_INHIBIT (R454). The partition examines a TEMPS copy and inhibits a bar whose head is over
  temperature. -/
  | safeBarInhibit
  /-- DUTY_PARAMETER_CHECK (R455). Every 10 ms the partition compares duty and temperature parameters in use with
  the set in force. -/
  | dutyParameterCheck (found : List (Fin 8 × List Nat))
  /-- SAFE_STATE (R457). A diagnostic fault puts the partition in the safe state. -/
  | safeState (cause : Fin 5)
  /-- SAFETY_RESET_REQUEST (R458). 100 ms after safe-state entry the partition requests a warm reset. -/
  | safetyResetRequest (up : StartUp)
  /-- WAKE (R477). An enabled wake source is detected in a sleep state and the module wakes to HOLD and READY. -/
  | wake (source : Fin 6) (unit : Fin 16) (up : StartUp)
  /-- POWER_SEQUENCER_WINDOW (R481). A 100 µs window begins and the sequencer admits waiting domain starts within
  the budget. -/
  | powerSequencerWindow
  /-- SHELF_WAKE (R49, R483). The shelf writes WAKE to the I²C COMMAND register, in a transaction to `addr` (that of slot 0 where none
  is said). -/
  | shelfWake (up : StartUp) (addr : BitVec 7 := 0x58)
  /-- SHELF_POWER_OFF (R49, R483). The shelf writes POWER_OFF, in a transaction to `addr` (that of slot 0 where none is said), and the
  module enters OFF through the entry phases. -/
  | shelfPowerOff (addr : BitVec 7 := 0x58)
  /-- POH_INCREMENT (R485). Each hour the power-on hour count advances. -/
  | pohIncrement
  /-- AGEING_MEASUREMENT (R486). Hourly and at wake HC measures the ageing monitors. -/
  | ageingMeasurement (rings : List (Nat × Nat))
  /-- MARGIN_SAMPLE (R487). Daily HC samples every margin and computes its projection. -/
  | marginSample
  /-- HEALTH_REPLAN (R489). At a re-plan point HC computes and applies or reports trims, refresh and alternate
  changes. -/
  | healthReplan
  /-- RETENTION_TEST (R490). Daily the DRAM retention test withholds refresh from rows and records t_ret. -/
  | retentionTest (chan : Fin 4) (found : Fin 4)
  /-- MARGIN_SCAN (R491). Hourly an eye scan runs on every up lane. -/
  | marginScan
  /-- HOLDUP_TEST (R492). Daily at a re-plan point the converter stops its draw for 2 ms to measure hold-up. -/
  | holdupTest (meas : HoldUp)
  /-- CALIBRATION (R494). An automatic calibration falls due and runs on its unit. -/
  | calibration (cal : Fin 9) (target : Fin 64) (figure : Word)
  /-- LOG_FLUSH (R500). At least every 1 ms the staging buffer is flushed to the MRAM log ring. -/
  | logFlush
  /-- PLANE_RESTART (R24). One plane restarts without stopping the other two; queued commands complete with
  PLANE_RESTARTED, a data-plane restart aborts every scheduled or printing job and enters HOLD, and a
  management-plane restart holds the loops and puts the servo into holdover. -/
  | planeRestart (plane : Fin 3)
  /-- QUADRATURE_COUNT (R208). The filtered quadrature state of an encoder channel changes by one between two
  samples and the count rises or falls by 1, updating emulation targets and index windows. -/
  | quadratureCount (k : Fin 4) (up : Bool)
  /-- WIRE_DISAGREE_END (R210). The wire-disagree condition on an input pair ends, so WIRE_A, WIRE_B or WIRE_Z
  clear, index latching is enabled again and FAULT can then be cleared. -/
  | wireDisagreeEnd (k : Fin 4) (pair : Fin 4)
  /-- HOST_LINK_UP (R87). The PCIe data link trains up again, HOSTQ_STATUS reports its width and speed, and
  LINK_DEGRADED is appended when it is below 32.0 GT/s x8. -/
  | hostLinkUp (width : Fin 4) (speed : Fin 5)
  /-- REBUILD_DONE (R397). The background rebuild of the system-region copies under the new healthy list completes,
  MEMC_STATUS.REBUILD returns to 0 and reads switch to the new list. -/
  | rebuildDone
  deriving DecidableEq, Repr

end Sys2Proof
end

