-- ==== Sys2Proof/Decode.lean ====
section
/-!
DEFINITION. Commands from table words.  The opcode table gives its rows no bits: a command is not spelt by a word, so
no word spells one.
-/

namespace Sys2Proof

/-- The command that a word of `nbits` bits spells by the table's bits: none, for no row has bits. -/
def decodeTableWord (_nbits _w : Nat) : Option Instr := none

end Sys2Proof
end

