-- ==== Sys2Proof/Config.lean ====
section
/-!
DEFINITION. What the spec leaves open: free values, constants without a body, so that no proof can see a number the
spec does not give.  A free value is applied to what it depends on, or to the counter `Dev.freeCtr` for a fresh
value at each use.
-/

namespace Sys2Proof.Config

/-- FREE VALUE.  A fresh 32-bit value the spec leaves open, one for each count of `Dev.freeCtr`. -/
opaque freeWord : Nat → BitVec 32

/-- FREE VALUE.  A fresh byte the spec leaves open. -/
opaque freeByte : Nat → BitVec 8

/-- FREE VALUE.  What the comparison of SHREF with the TCXO gives at a value of the time counter, within the limit that CLK_ROOT_DEV
shows (R69). -/
opaque rootDev : Nat → BitVec 32

/-- FREE VALUE.  The literals (0, byte) and matches (length, distance) that the compressor's search finds for a block, from the verification
setting, the window before the block and the block: R174 names a hash-chain search with lazy matching and gives none of its figures. -/
opaque lzParse : Bool → List (BitVec 8) → List (BitVec 8) → List (Nat × Nat)

/-- FREE VALUE.  The bits of a dynamic block, from whether it is the last and its literals and matches: the spec does not say which codes
the compressor builds (R175). -/
opaque dynBlock : Bool → List (Nat × Nat) → List Bool

/-- FREE VALUE.  The SHA-384 digest of a byte string (R503): the function is standard and outside the spec's text. -/
opaque sha384 : List (BitVec 8) → List (BitVec 8)

/-- FREE VALUE.  The verdict of the ECDSA P-384 check of a signature over a byte string (R503). -/
opaque ecdsaOk : List (BitVec 8) → List (BitVec 8) → Bool

/-- FREE VALUE.  The number that stands for pi in the observer's gains (R221): pi has no finite form and the spec fixes no
precision. -/
opaque piVal : Rat

/-- FREE VALUE.  An inexact quantity brought to an integer register format whose rounding the spec does not state. -/
opaque roundRat : Rat → Int

/-- FREE VALUE.  The binary32 cube root of R345: IEEE 754 fixes no result for it and the spec gives no method. -/
opaque cbrt32 : Rat → Rat

/-- FREE VALUE.  The CIEDE2000 difference of two L*, a*, b* triples in units of 1/256 (R359): the formula stands outside
the spec's text. -/
opaque deltaE00 : Int × Int × Int → Int × Int × Int → Rat

end Sys2Proof.Config
end

