-- ==== Sys2Proof/Machine/Bits.lean ====
section
/-!
DEFINITION. Bit fields, two's complement, little-endian byte groups (R5), saturation, and the check sums of the
spec: CRC-32C (R158) and the general CRC of the serial sensors (R213).
-/

namespace Sys2Proof.Machine

/-- Field of `n` bits from bit `lo` of `w`. -/
def fld (w lo n : Nat) : Nat := w / 2 ^ lo % 2 ^ n

/-- Bit `i` of `w`. -/
def bitOf (w i : Nat) : Bool := fld w i 1 == 1

/-- `w` with the field of `n` bits from bit `lo` replaced by `v`. -/
def putFld (w lo n v : Nat) : Nat := w - fld w lo n * 2 ^ lo + v % 2 ^ n * 2 ^ lo

/-- A Bool as a bit. -/
def b2n (b : Bool) : Nat := if b then 1 else 0

/-- Two's complement value of the low `n` bits. -/
def sgn (n v : Nat) : Int :=
  if v % 2 ^ n < 2 ^ (n - 1) then ((v % 2 ^ n : Nat) : Int) else ((v % 2 ^ n : Nat) : Int) - ((2 ^ n : Nat) : Int)

/-- The low `n` bits of an integer in two's complement. -/
def uns (n : Nat) (i : Int) : Nat := (i % ((2 ^ n : Nat) : Int)).toNat

/-- Clamp an integer to a signed range of `n` bits. -/
def satS (n : Nat) (i : Int) : Int :=
  max (-((2 ^ (n - 1) : Nat) : Int)) (min i (((2 ^ (n - 1) : Nat) : Int) - 1))

/-- Clamp to an unsigned range of `n` bits. -/
def satU (n v : Nat) : Nat := min v (2 ^ n - 1)

/-- `n` bytes of `v`, least significant first. -/
def leBytes : Nat → Nat → List Byte
  | 0, _ => []
  | n + 1, v => BitVec.ofNat 8 v :: leBytes n (v / 256)

/-- The number of a group of bytes, least significant first. -/
def leNat : List Byte → Nat
  | [] => 0
  | b :: bs => b.toNat + 256 * leNat bs

/-- A byte group as `n` bytes: cut, or filled with 0. -/
def padTo (n : Nat) (bs : List Byte) : List Byte := bs.take n ++ List.replicate (n - bs.length) 0

/-- The byte at an offset of a group; an offset past its end reads 0. -/
def byteAt (bs : List Byte) (o : Nat) : Nat := (bs.getD o 0).toNat

/-- The little-endian number of `n` bytes from an offset. -/
def numAt (bs : List Byte) (o n : Nat) : Nat := leNat ((bs.drop o).take n)

/-- The byte at an offset of an array; an offset past its end reads 0. -/
def byteIn (a : Array Byte) (o : Nat) : Nat := (a.getD o 0).toNat

/-- The little-endian number of `n` bytes of an array from an offset. -/
def numIn (a : Array Byte) (o n : Nat) : Nat := leNat ((List.range n).map (fun i => a.getD (o + i) 0))

/-- Bytes of a list of little-endian words. -/
def wordsBytes (ws : List Nat) : List Byte := ws.flatMap (leBytes 4)

/-- The 32-bit words of a byte group. -/
def bytesWords : List Byte → List Nat
  | a :: b :: c :: d :: r => leNat [a, b, c, d] :: bytesWords r
  | [] => []
  | r => [leNat r]

/-- One bit step of the reflected CRC-32C, polynomial 0x82F6_3B78. -/
def crcBit (c : Nat) : Nat := if c % 2 = 1 then Nat.xor (c / 2) 0x82F63B78 else c / 2

/-- Eight bit steps. -/
def crcByte (c b : Nat) : Nat :=
  crcBit (crcBit (crcBit (crcBit (crcBit (crcBit (crcBit (crcBit (Nat.xor c b))))))))

/-- Run the CRC register over bytes. -/
def crcRun : Nat → List Byte → Nat
  | c, [] => c
  | c, b :: bs => crcRun (crcByte c b.toNat) bs

/-- CRC-32C of a byte group (R158): initial and final value all ones. -/
def crc32c (bs : List Byte) : Nat := Nat.xor (crcRun 0xFFFFFFFF bs) 0xFFFFFFFF

/-- CRC-32C continued from the CRC of the bytes before. -/
def crc32cMore (c : Nat) (bs : List Byte) : Nat := Nat.xor (crcRun (Nat.xor c 0xFFFFFFFF) bs) 0xFFFFFFFF

/-- Quotient rounded up. -/
def cdiv (a b : Nat) : Nat := (a + b - 1) / b

/-- Quotient rounded to the nearest, halves away from zero. -/
def rdiv (a b : Nat) : Nat := (2 * a + b) / (2 * b)

/-- Signed quotient rounded to the nearest, halves away from zero. -/
def rdivI (a : Int) (b : Nat) : Int :=
  if a < 0 then -((rdiv a.natAbs b : Nat) : Int) else ((rdiv a.natAbs b : Nat) : Int)

/-- The numbers below `n` whose bit of `m` is 1, rising. -/
def bitsOf (n m : Nat) : List Nat := (List.range n).filter (fun i => bitOf m i)

/-- A rational as an integer: itself when it is one, and otherwise rounded in a way the spec leaves open. -/
def pubI (q : Rat) : Int := if q.den = 1 then q.num else Config.roundRat q

/-- A bank with a 16-bit field of a pixel's band replaced. -/
def putNum (bs : List Byte) (o n v : Nat) : List Byte := bs.take o ++ leBytes n v ++ bs.drop (o + n)

end Sys2Proof.Machine
end

