-- ==== Sys2Proof/Machine/Events.lean ====
section
/-!
DEFINITION. The events of the event log (R27, R498, R499): one name for each event the chapters append.
-/

namespace Sys2Proof.Machine

/-- The event names of the manual. -/
inductive Ev where
  | writeIgnored
  | strapChanged
  | baseplateHot
  | pwrFail
  | forcedRemoval
  | misalignedInsertion
  | refFault
  | startupFail
  | cfgCopyBad
  | linkDegraded
  | hostLinkReset
  | queueError
  | dmaError
  | commitApplied
  | commitRefused
  | commitExpired
  | densityExceeded
  | planeShort
  | ceilingChanged
  | dataStarved
  | stripResubmit
  | barLost
  | stripFault
  | chainBroken
  | cmpVerifyFail
  | engineFault
  | encFault
  | ssiFault
  | idxWire
  | refFailover
  | positionCoast
  | positionLost
  | checkDisagree
  | trackReset
  | directionChange
  | idxUnexpected
  | idxMissed
  | rezeroDone
  | rezeroRefused
  | cmpLate
  | emuResync
  | adcLimit
  | adcTrigOverrun
  | speedWarn
  | overspeedStop
  | overspeedResume
  | headDerate
  | headDerateEnd
  | headTempStop
  | headTempStale
  | headResume
  | headResumeRefused
  | jobAbortedPosition
  | defectRange
  | laceUp
  | laceDown
  | laceLaneDown
  | laceQuarantine
  | laceRelinkRefused
  | headRecordBad
  | headRemoved
  | laneLockLost
  | laneDeskewFail
  | eqAltMissing
  | eqDefault
  | laneTestRefused
  | camDown
  | camWiring
  | visionFrame
  | visionDrop
  | visionFormat
  | loopColUpdate
  | loopRegUpdate
  | loopLimit
  | loopFreeze
  | loopUnfreeze
  | loopHeld
  | loopResumed
  | awlResult
  | awlDeferred
  | timeStepped
  | timeLocked
  | timeOffsetLarge
  | timeHoldover
  | timeMasterChange
  | netLinkUp
  | netLinkDown
  | tsqOverflow
  | dramDeviceErased
  | dramUe
  | dramChannelFailed
  | arbPortMasked
  | pairFormed
  | pairIncompatible
  | pairLoss
  | pairTakeover
  | pairResign
  | pairDemoted
  | pairOutOfStep
  | pairInStep
  | pairMismatchUnresolved
  | pairPosStep
  | pairResubmit
  | pairShankDown
  | safeInhibit
  | safeRelease
  | safeDiscrepancy
  | safeWiringFault
  | safeOutputFault
  | safeState
  | safeSpeedTrip
  | safeBarInhibit
  | safeTestDue
  | safeSetChanged
  | safeProposeRefused
  | sleepEntered
  | sleepAbort
  | drainAbort
  | wake
  | tablesLost
  | marginLow
  | marginExhausted
  | replan
  | calDone
  | nvmFault
  deriving DecidableEq, Repr

/-- The name as the manual writes it (R498, field NAME). -/
def evName : Ev → String
  | .writeIgnored => "WRITE_IGNORED"
  | .strapChanged => "STRAP_CHANGED"
  | .baseplateHot => "BASEPLATE_HOT"
  | .pwrFail => "PWR_FAIL"
  | .forcedRemoval => "FORCED_REMOVAL"
  | .misalignedInsertion => "MISALIGNED_INSERTION"
  | .refFault => "REF_FAULT"
  | .startupFail => "STARTUP_FAIL"
  | .cfgCopyBad => "CFG_COPY_BAD"
  | .linkDegraded => "LINK_DEGRADED"
  | .hostLinkReset => "HOST_LINK_RESET"
  | .queueError => "QUEUE_ERROR"
  | .dmaError => "DMA_ERROR"
  | .commitApplied => "COMMIT_APPLIED"
  | .commitRefused => "COMMIT_REFUSED"
  | .commitExpired => "COMMIT_EXPIRED"
  | .densityExceeded => "DENSITY_EXCEEDED"
  | .planeShort => "PLANE_SHORT"
  | .ceilingChanged => "CEILING_CHANGED"
  | .dataStarved => "DATA_STARVED"
  | .stripResubmit => "STRIP_RESUBMIT"
  | .barLost => "BAR_LOST"
  | .stripFault => "STRIP_FAULT"
  | .chainBroken => "CHAIN_BROKEN"
  | .cmpVerifyFail => "CMP_VERIFY_FAIL"
  | .engineFault => "ENGINE_FAULT"
  | .encFault => "ENC_FAULT"
  | .ssiFault => "SSI_FAULT"
  | .idxWire => "IDX_WIRE"
  | .refFailover => "REF_FAILOVER"
  | .positionCoast => "POSITION_COAST"
  | .positionLost => "POSITION_LOST"
  | .checkDisagree => "CHECK_DISAGREE"
  | .trackReset => "TRACK_RESET"
  | .directionChange => "DIRECTION_CHANGE"
  | .idxUnexpected => "IDX_UNEXPECTED"
  | .idxMissed => "IDX_MISSED"
  | .rezeroDone => "REZERO_DONE"
  | .rezeroRefused => "REZERO_REFUSED"
  | .cmpLate => "CMP_LATE"
  | .emuResync => "EMU_RESYNC"
  | .adcLimit => "ADC_LIMIT"
  | .adcTrigOverrun => "ADC_TRIG_OVERRUN"
  | .speedWarn => "SPEED_WARN"
  | .overspeedStop => "OVERSPEED_STOP"
  | .overspeedResume => "OVERSPEED_RESUME"
  | .headDerate => "HEAD_DERATE"
  | .headDerateEnd => "HEAD_DERATE_END"
  | .headTempStop => "HEAD_TEMP_STOP"
  | .headTempStale => "HEAD_TEMP_STALE"
  | .headResume => "HEAD_RESUME"
  | .headResumeRefused => "HEAD_RESUME_REFUSED"
  | .jobAbortedPosition => "JOB_ABORTED_POSITION"
  | .defectRange => "DEFECT_RANGE"
  | .laceUp => "LACE_UP"
  | .laceDown => "LACE_DOWN"
  | .laceLaneDown => "LACE_LANE_DOWN"
  | .laceQuarantine => "LACE_QUARANTINE"
  | .laceRelinkRefused => "LACE_RELINK_REFUSED"
  | .headRecordBad => "HEAD_RECORD_BAD"
  | .headRemoved => "HEAD_REMOVED"
  | .laneLockLost => "LANE_LOCK_LOST"
  | .laneDeskewFail => "LANE_DESKEW_FAIL"
  | .eqAltMissing => "EQ_ALT_MISSING"
  | .eqDefault => "EQ_DEFAULT"
  | .laneTestRefused => "LANE_TEST_REFUSED"
  | .camDown => "CAM_DOWN"
  | .camWiring => "CAM_WIRING"
  | .visionFrame => "VISION_FRAME"
  | .visionDrop => "VISION_DROP"
  | .visionFormat => "VISION_FORMAT"
  | .loopColUpdate => "LOOP_COL_UPDATE"
  | .loopRegUpdate => "LOOP_REG_UPDATE"
  | .loopLimit => "LOOP_LIMIT"
  | .loopFreeze => "LOOP_FREEZE"
  | .loopUnfreeze => "LOOP_UNFREEZE"
  | .loopHeld => "LOOP_HELD"
  | .loopResumed => "LOOP_RESUMED"
  | .awlResult => "AWL_RESULT"
  | .awlDeferred => "AWL_DEFERRED"
  | .timeStepped => "TIME_STEPPED"
  | .timeLocked => "TIME_LOCKED"
  | .timeOffsetLarge => "TIME_OFFSET_LARGE"
  | .timeHoldover => "TIME_HOLDOVER"
  | .timeMasterChange => "TIME_MASTER_CHANGE"
  | .netLinkUp => "NET_LINK_UP"
  | .netLinkDown => "NET_LINK_DOWN"
  | .tsqOverflow => "TSQ_OVERFLOW"
  | .dramDeviceErased => "DRAM_DEVICE_ERASED"
  | .dramUe => "DRAM_UE"
  | .dramChannelFailed => "DRAM_CHANNEL_FAILED"
  | .arbPortMasked => "ARB_PORT_MASKED"
  | .pairFormed => "PAIR_FORMED"
  | .pairIncompatible => "PAIR_INCOMPATIBLE"
  | .pairLoss => "PAIR_LOSS"
  | .pairTakeover => "PAIR_TAKEOVER"
  | .pairResign => "PAIR_RESIGN"
  | .pairDemoted => "PAIR_DEMOTED"
  | .pairOutOfStep => "PAIR_OUT_OF_STEP"
  | .pairInStep => "PAIR_IN_STEP"
  | .pairMismatchUnresolved => "PAIR_MISMATCH_UNRESOLVED"
  | .pairPosStep => "PAIR_POS_STEP"
  | .pairResubmit => "PAIR_RESUBMIT"
  | .pairShankDown => "PAIR_SHANK_DOWN"
  | .safeInhibit => "SAFE_INHIBIT"
  | .safeRelease => "SAFE_RELEASE"
  | .safeDiscrepancy => "SAFE_DISCREPANCY"
  | .safeWiringFault => "SAFE_WIRING_FAULT"
  | .safeOutputFault => "SAFE_OUTPUT_FAULT"
  | .safeState => "SAFE_STATE"
  | .safeSpeedTrip => "SAFE_SPEED_TRIP"
  | .safeBarInhibit => "SAFE_BAR_INHIBIT"
  | .safeTestDue => "SAFE_TEST_DUE"
  | .safeSetChanged => "SAFE_SET_CHANGED"
  | .safeProposeRefused => "SAFE_PROPOSE_REFUSED"
  | .sleepEntered => "SLEEP_ENTERED"
  | .sleepAbort => "SLEEP_ABORT"
  | .drainAbort => "DRAIN_ABORT"
  | .wake => "WAKE"
  | .tablesLost => "TABLES_LOST"
  | .marginLow => "MARGIN_LOW"
  | .marginExhausted => "MARGIN_EXHAUSTED"
  | .replan => "REPLAN"
  | .calDone => "CAL_DONE"
  | .nvmFault => "NVM_FAULT"

/-- The class of an event (R499): 0 INFO, 1 PRINT, 2 FAULT. -/
def evClass : Ev → Nat
  | .engineFault => 2
  | .dramDeviceErased => 2
  | .dramChannelFailed => 2
  | .cmpVerifyFail => 2
  | .refFault => 2
  | .safeState => 2
  | .barLost => 2
  | .nvmFault => 2
  | .defectRange => 1
  | .dataStarved => 1
  | .chainBroken => 1
  | .laceQuarantine => 1
  | .safeInhibit => 1
  | .safeBarInhibit => 1
  | .overspeedStop => 1
  | .headTempStop => 1
  | .jobAbortedPosition => 1
  | .pairTakeover => 1
  | _ => 0

/-- Events with which the data plane reports a part's health (R137, R138). -/
def isHealthEvent (e : Ev) : Bool :=
  e == .laceUp || e == .laceDown || e == .laceLaneDown || e == .laceQuarantine || e == .headRecordBad ||
    e == .headRemoved || e == .engineFault || e == .barLost || e == .dramChannelFailed || e == .ceilingChanged

end Sys2Proof.Machine
end

