-- ==== Sys2Proof/Machine/Maps.lean ====
section
/-!
DEFINITION. Sparse maps from Nat keys, in one canonical form: keys strictly rising and no entry equal to what an
unlisted key reads as.  The register file, the memories and every indexed family of the state are such maps.
-/

namespace Sys2Proof.Machine

/-- A map from keys to values as a list of pairs; an unlisted key reads as a default named at each use. -/
abbrev NMap (α : Type) := List (Nat × α)

variable {α : Type}

/-- The value at a key, or the default of an unlisted key. -/
def mapGet (dflt : α) : NMap α → Nat → α
  | [], _ => dflt
  | (k', v) :: m, k => if k = k' then v else mapGet dflt m k

/-- Remove every entry of a key. -/
def mapErase (k : Nat) : NMap α → NMap α
  | [] => []
  | (k', v) :: m => if k = k' then mapErase k m else (k', v) :: mapErase k m

/-- Insert an entry before the first larger key. -/
def mapInsert (k : Nat) (v : α) : NMap α → NMap α
  | [] => [(k, v)]
  | (k', w) :: m => if k < k' then (k, v) :: (k', w) :: m else (k', w) :: mapInsert k v m

/-- Set the value at a key; setting the default removes the entry, so equal maps are equal lists. -/
def mapSet [DecidableEq α] (dflt : α) (m : NMap α) (k : Nat) (v : α) : NMap α :=
  if v = dflt then mapErase k m else mapInsert k v (mapErase k m)

/-- Apply a function to the value at a key. -/
def mapMod [DecidableEq α] (dflt : α) (m : NMap α) (k : Nat) (f : α → α) : NMap α :=
  mapSet dflt m k (f (mapGet dflt m k))

/-- Every key lies above the bound, and the keys rise strictly. -/
def keysAbove : Option Nat → NMap α → Bool
  | _, [] => true
  | lo, (k, _) :: m =>
    (match lo with
     | none => true
     | some b => decide (b < k)) && keysAbove (some k) m

/-- The canonical form: strictly rising keys and no entry equal to the default. -/
def mapWf [DecidableEq α] (dflt : α) (m : NMap α) : Bool :=
  keysAbove none m && m.all (fun e => decide (e.2 ≠ dflt))

/-- The entries of consecutive values from a key upward. -/
def mapBlock [DecidableEq α] (dflt : α) : Nat → List α → NMap α
  | _, [] => []
  | k, v :: vs => if v = dflt then mapBlock dflt (k + 1) vs else (k, v) :: mapBlock dflt (k + 1) vs

/-- Write consecutive values from a key upward. -/
def mapWrite [DecidableEq α] (dflt : α) (m : NMap α) (k : Nat) (vs : List α) : NMap α :=
  m.filter (fun e => decide (e.1 < k)) ++ (mapBlock dflt k vs ++ m.filter (fun e => decide (k + vs.length ≤ e.1)))

/-- Read `n` consecutive values from a key upward. -/
def mapRead (dflt : α) (m : NMap α) (k n : Nat) : List α :=
  (m.foldr (fun e a => if k ≤ e.1 then a.setIfInBounds (e.1 - k) e.2 else a) (Array.replicate n dflt)).toList

/-- Write consecutive words at 4-byte offsets from an address upward. -/
def mapWriteWords [DecidableEq α] (dflt : α) : NMap α → Nat → List α → NMap α
  | m, _, [] => m
  | m, k, v :: vs => mapWriteWords dflt (mapSet dflt m k v) (k + 4) vs

end Sys2Proof.Machine
end

