-- ==== Sys2Proof/Machine/RegMap.lean ====
section
/-!
DEFINITION. The register map: the BAR0 address of every register (R5-R8, R506-R509), written from the register
tables of the spec's chapters, with each register's access code, reset value and the bits that exist, that a
host write sets and that a host write of 1 clears.  A register name drops the instance letter of the
manual: `POS_ENC_CFG k` is the manual's POS_ENCk_CFG.
-/

namespace Sys2Proof.Reg

/-! ## Block SYS (03_bringup_and_configuration.md) -/

/-- SYS_ID, offset 0x0000, RO. -/
def SYS_ID : Nat := 0x0
/-- SYS_HWREV, offset 0x0004, RO. -/
def SYS_HWREV : Nat := 0x4
/-- SYS_FW_VER, offset 0x0008, RO. -/
def SYS_FW_VER : Nat := 0x8
/-- SYS_STRAPS, offset 0x000C, RO. -/
def SYS_STRAPS : Nat := 0xC
/-- SYS_STATUS, offset 0x0010, RO. -/
def SYS_STATUS : Nat := 0x10
/-- SYS_CTRL, offset 0x0014, W1S. -/
def SYS_CTRL : Nat := 0x14
/-- SYS_CFG_SEQ, offset 0x0018, RO. -/
def SYS_CFG_SEQ : Nat := 0x18
/-- SYS_CFG_RUN_CRC, offset 0x001C, RO. -/
def SYS_CFG_RUN_CRC : Nat := 0x1C
/-- SYS_CFG_RUN_COUNT, offset 0x0020, RO. -/
def SYS_CFG_RUN_COUNT : Nat := 0x20
/-- SYS_LAST_RESET, offset 0x0024, RO. -/
def SYS_LAST_RESET : Nat := 0x24
/-- SYS_FEAT_ERR, offset 0x0028, RO. -/
def SYS_FEAT_ERR : Nat := 0x28
/-- SYS_FEAT_OFFER0–7, offset 0x0040–0x005C, RO. -/
def SYS_FEAT_OFFER (i : Nat) : Nat := 0x40 + 0x4 * i
/-- SYS_FEAT_ACCEPT0–7, offset 0x0060–0x007C, RW. -/
def SYS_FEAT_ACCEPT (i : Nat) : Nat := 0x60 + 0x4 * i

/-! ## Block HOSTQ (04_host_link_and_queues.md) -/

/-- HOSTQ_STATUS, offset 0x0000, RO. -/
def HOSTQ_STATUS : Nat := 0x10000
/-- HOSTQ_CE_COUNT, offset 0x0004, RO. -/
def HOSTQ_CE_COUNT : Nat := 0x10004
/-- HOSTQ_UE_COUNT, offset 0x0008, RO. -/
def HOSTQ_UE_COUNT : Nat := 0x10008
/-- HOSTQ_FLR_COUNT, offset 0x000C, RO. -/
def HOSTQ_FLR_COUNT : Nat := 0x1000C
/-- HOSTQ_MBOXp_STAT, offset 0x0100 + 0x40 × p, RO. -/
def HOSTQ_MBOX_STAT (i : Nat) : Nat := 0x10100 + 0x40 * i
/-- HOSTQ_MBOXp_TAG_STATUS, offset 0x0104 + 0x40 × p, RO. -/
def HOSTQ_MBOX_TAG_STATUS (i : Nat) : Nat := 0x10104 + 0x40 * i
/-- HOSTQ_MBOXp_DATA0–7, offset 0x0108–0x0124 + 0x40 × p, RO. -/
def HOSTQ_MBOX_DATA (i j : Nat) : Nat := 0x10108 + 0x40 * i + 0x4 * j
/-- HOSTQ_Qq_SQ_BASE_LO, offset 0x1000 + 0x40 × q, RW. -/
def HOSTQ_Q_SQ_BASE_LO (i : Nat) : Nat := 0x11000 + 0x40 * i
/-- HOSTQ_Qq_SQ_BASE_HI, offset 0x1004 + 0x40 × q, RW. -/
def HOSTQ_Q_SQ_BASE_HI (i : Nat) : Nat := 0x11004 + 0x40 * i
/-- HOSTQ_Qq_CQ_BASE_LO, offset 0x1008 + 0x40 × q, RW. -/
def HOSTQ_Q_CQ_BASE_LO (i : Nat) : Nat := 0x11008 + 0x40 * i
/-- HOSTQ_Qq_CQ_BASE_HI, offset 0x100C + 0x40 × q, RW. -/
def HOSTQ_Q_CQ_BASE_HI (i : Nat) : Nat := 0x1100C + 0x40 * i
/-- HOSTQ_Qq_SIZE, offset 0x1010 + 0x40 × q, RW. -/
def HOSTQ_Q_SIZE (i : Nat) : Nat := 0x11010 + 0x40 * i
/-- HOSTQ_Qq_CTRL, offset 0x1014 + 0x40 × q, RW. -/
def HOSTQ_Q_CTRL (i : Nat) : Nat := 0x11014 + 0x40 * i
/-- HOSTQ_Qq_AGG, offset 0x1018 + 0x40 × q, RW. -/
def HOSTQ_Q_AGG (i : Nat) : Nat := 0x11018 + 0x40 * i
/-- HOSTQ_Qq_STATUS, offset 0x101C + 0x40 × q, RO. -/
def HOSTQ_Q_STATUS (i : Nat) : Nat := 0x1101C + 0x40 * i
/-- HOSTQ_Qq_SQ_HEAD, offset 0x1020 + 0x40 × q, RO. -/
def HOSTQ_Q_SQ_HEAD (i : Nat) : Nat := 0x11020 + 0x40 * i
/-- HOSTQ_Qq_CQ_TAIL, offset 0x1024 + 0x40 × q, RO. -/
def HOSTQ_Q_CQ_TAIL (i : Nat) : Nat := 0x11024 + 0x40 * i
/-- HOSTQ_Qq_SQ_TAIL, offset 0x1028 + 0x40 × q, RO. -/
def HOSTQ_Q_SQ_TAIL (i : Nat) : Nat := 0x11028 + 0x40 * i
/-- HOSTQ_Qq_CQ_HEAD, offset 0x102C + 0x40 × q, RO. -/
def HOSTQ_Q_CQ_HEAD (i : Nat) : Nat := 0x1102C + 0x40 * i
/-- HOSTQ_MSIX_TABLE, offset 0x8000–0x83FF, RW. -/
def HOSTQ_MSIX_TABLE (i : Nat) : Nat := 0x18000 + 0x4 * i
/-- HOSTQ_MSIX_PBA, offset 0x9000–0x9007, RO. -/
def HOSTQ_MSIX_PBA (i : Nat) : Nat := 0x19000 + 0x4 * i

/-! ## Block CLK (03_bringup_and_configuration.md) -/

/-- CLK_STATUS, offset 0x0000, RO. -/
def CLK_STATUS : Nat := 0x20000
/-- CLK_ROOT_DEV, offset 0x0004, RO. -/
def CLK_ROOT_DEV : Nat := 0x20004
/-- CLK_FAULT_COUNT, offset 0x0008, RO. -/
def CLK_FAULT_COUNT : Nat := 0x20008

/-! ## Block PWR (19_power_and_sleep.md) -/

/-- PWR_STATUS, offset 0x0000, RO. -/
def PWR_STATUS : Nat := 0x30000
/-- PWR_PHASE_TIMEOUT, offset 0x0004, RWH. -/
def PWR_PHASE_TIMEOUT : Nat := 0x30004
/-- PWR_DRAIN_TIMEOUT, offset 0x0008, RWH. -/
def PWR_DRAIN_TIMEOUT : Nat := 0x30008
/-- PWR_BUDGET, offset 0x000C, RWH. -/
def PWR_BUDGET : Nat := 0x3000C
/-- PWR_SR_LIMIT, offset 0x0010, RWH. -/
def PWR_SR_LIMIT : Nat := 0x30010
/-- PWR_MOTION, offset 0x0014, RWH. -/
def PWR_MOTION : Nat := 0x30014
/-- PWR_ENTRY_COUNT, offset 0x0020, RO. -/
def PWR_ENTRY_COUNT : Nat := 0x30020
/-- PWR_ABORT_COUNT, offset 0x0024, RO. -/
def PWR_ABORT_COUNT : Nat := 0x30024
/-- PWR_DRAIN_ABORT_COUNT, offset 0x0028, RO. -/
def PWR_DRAIN_ABORT_COUNT : Nat := 0x30028
/-- PWR_WAIT_MAX, offset 0x002C, RO. -/
def PWR_WAIT_MAX : Nat := 0x3002C
/-- PWR_LAST_ABORT, offset 0x0030, RO. -/
def PWR_LAST_ABORT : Nat := 0x30030

/-! ## Block HEEL (19_power_and_sleep.md) -/

/-- HEEL_STATUS, offset 0x0000, RO. -/
def HEEL_STATUS : Nat := 0x40000
/-- HEEL_WAKE_MASK, offset 0x0004, RO. -/
def HEEL_WAKE_MASK : Nat := 0x40004
/-- HEEL_RETAIN, offset 0x0008, RO. -/
def HEEL_RETAIN : Nat := 0x40008
/-- HEEL_LAST_WAKE, offset 0x000C, RO. -/
def HEEL_LAST_WAKE : Nat := 0x4000C
/-- HEEL_LAST_WAKE_TIME_LO, _HI, offset 0x0010, 0x0014, RO. -/
def HEEL_LAST_WAKE_TIME_LO : Nat := 0x40010
/-- HEEL_LAST_WAKE_TIME_LO, _HI, offset 0x0010, 0x0014, RO. -/
def HEEL_LAST_WAKE_TIME_HI : Nat := 0x40014
/-- HEEL_WAKE_COUNT, offset 0x0018, RO. -/
def HEEL_WAKE_COUNT : Nat := 0x40018
/-- HEEL_EXTRA_WAKES, offset 0x001C, RO. -/
def HEEL_EXTRA_WAKES : Nat := 0x4001C
/-- HEEL_OSC_PPM, offset 0x0020, RO. -/
def HEEL_OSC_PPM : Nat := 0x40020

/-! ## Block TIME (15_time_and_network.md) -/

/-- TIME_STATUS, offset 0x0000, RO. -/
def TIME_STATUS : Nat := 0x50000
/-- TIME_CTRL, offset 0x0004, W1S. -/
def TIME_CTRL : Nat := 0x50004
/-- TIME_CFG, offset 0x0008, RWH. -/
def TIME_CFG : Nat := 0x50008
/-- TIME_SERVO, offset 0x000C, RWH. -/
def TIME_SERVO : Nat := 0x5000C
/-- TIME_LOCK_THR, offset 0x0010, RWH. -/
def TIME_LOCK_THR : Nat := 0x50010
/-- TIME_BIG_THR, offset 0x0014, RWH. -/
def TIME_BIG_THR : Nat := 0x50014
/-- TIME_HO_DRIFT, offset 0x0018, RWH. -/
def TIME_HO_DRIFT : Nat := 0x50018
/-- TIME_RATE, offset 0x0020, RO. -/
def TIME_RATE : Nat := 0x50020
/-- TIME_OFFSET, offset 0x0024, RO. -/
def TIME_OFFSET : Nat := 0x50024
/-- TIME_HO_AGE, offset 0x0028, RO. -/
def TIME_HO_AGE : Nat := 0x50028
/-- TIME_EST_ERR, offset 0x002C, RO. -/
def TIME_EST_ERR : Nat := 0x5002C
/-- TIME_STEP_COUNT, offset 0x0030, RO. -/
def TIME_STEP_COUNT : Nat := 0x50030
/-- TIME_LAST_STEP, offset 0x0034, RO. -/
def TIME_LAST_STEP : Nat := 0x50034
/-- TIME_SNAP_CNT_LO, _HI, offset 0x0040, 0x0044, RO. -/
def TIME_SNAP_CNT_LO : Nat := 0x50040
/-- TIME_SNAP_CNT_LO, _HI, offset 0x0040, 0x0044, RO. -/
def TIME_SNAP_CNT_HI : Nat := 0x50044
/-- TIME_SNAP_SEC_LO, _HI, offset 0x0048, 0x004C, RO. -/
def TIME_SNAP_SEC_LO : Nat := 0x50048
/-- TIME_SNAP_SEC_LO, _HI, offset 0x0048, 0x004C, RO. -/
def TIME_SNAP_SEC_HI : Nat := 0x5004C
/-- TIME_SNAP_NS, offset 0x0050, RO. -/
def TIME_SNAP_NS : Nat := 0x50050
/-- TIME_SNAP_FRAC, offset 0x0054, RO. -/
def TIME_SNAP_FRAC : Nat := 0x50054
/-- TIME_PPS_IN_CNT_LO, _HI, offset 0x0060, 0x0064, RO. -/
def TIME_PPS_IN_CNT_LO : Nat := 0x50060
/-- TIME_PPS_IN_CNT_LO, _HI, offset 0x0060, 0x0064, RO. -/
def TIME_PPS_IN_CNT_HI : Nat := 0x50064
/-- TIME_PPS_IN_SEQ, offset 0x0068, RO. -/
def TIME_PPS_IN_SEQ : Nat := 0x50068
/-- TIME_PPS_OUT, offset 0x006C, RWH. -/
def TIME_PPS_OUT : Nat := 0x5006C
/-- TIME_TRIG_ARM, offset 0x0080, W1S. -/
def TIME_TRIG_ARM : Nat := 0x50080
/-- TIME_TRIG_DISARM, offset 0x0084, W1S. -/
def TIME_TRIG_DISARM : Nat := 0x50084
/-- TIME_TRIGu_CFG, offset 0x0100 + 0x20 × u, RW. -/
def TIME_TRIG_CFG (i : Nat) : Nat := 0x50100 + 0x20 * i
/-- TIME_TRIGu_SEC_LO, _HI, offset 0x0104, 0x0108 + 0x20 × u, RW. -/
def TIME_TRIG_SEC_LO (i : Nat) : Nat := 0x50104 + 0x20 * i
/-- TIME_TRIGu_SEC_LO, _HI, offset 0x0104, 0x0108 + 0x20 × u, RW. -/
def TIME_TRIG_SEC_HI (i : Nat) : Nat := 0x50108 + 0x20 * i
/-- TIME_TRIGu_NS, offset 0x010C + 0x20 × u, RW. -/
def TIME_TRIG_NS (i : Nat) : Nat := 0x5010C + 0x20 * i
/-- TIME_TRIGu_PERIOD, offset 0x0110 + 0x20 × u, RW. -/
def TIME_TRIG_PERIOD (i : Nat) : Nat := 0x50110 + 0x20 * i
/-- TIME_TRIGu_COUNT, offset 0x0114 + 0x20 × u, RW. -/
def TIME_TRIG_COUNT (i : Nat) : Nat := 0x50114 + 0x20 * i
/-- TIME_TRIGu_STATUS, offset 0x0118 + 0x20 × u, W1C. -/
def TIME_TRIG_STATUS (i : Nat) : Nat := 0x50118 + 0x20 * i
/-- TIME_TRIGu_FIRE_COUNT, offset 0x011C + 0x20 × u, RO. -/
def TIME_TRIG_FIRE_COUNT (i : Nat) : Nat := 0x5011C + 0x20 * i

/-! ## Block NET (15_time_and_network.md) -/

/-- NET_CFG, offset 0x0000, RWH. -/
def NET_CFG : Nat := 0x60000
/-- NET_PRIO, offset 0x0004, RWH. -/
def NET_PRIO : Nat := 0x60004
/-- NET_INTERVALS, offset 0x0008, RWH. -/
def NET_INTERVALS : Nat := 0x60008
/-- NET_VLAN, offset 0x000C, RWH. -/
def NET_VLAN : Nat := 0x6000C
/-- NET_GM_ID_LO, _HI, offset 0x0010, 0x0014, RO. -/
def NET_GM_ID_LO : Nat := 0x60010
/-- NET_GM_ID_LO, _HI, offset 0x0010, 0x0014, RO. -/
def NET_GM_ID_HI : Nat := 0x60014
/-- NET_UTC, offset 0x0018, RO. -/
def NET_UTC : Nat := 0x60018
/-- NET_PORTp_CFG, offset 0x0100 + 0x80 × p, RWH. -/
def NET_PORT_CFG (i : Nat) : Nat := 0x60100 + 0x80 * i
/-- NET_PORTp_MAC_LO, _HI, offset 0x0104, 0x0108 + 0x80 × p, RO. -/
def NET_PORT_MAC_LO (i : Nat) : Nat := 0x60104 + 0x80 * i
/-- NET_PORTp_MAC_LO, _HI, offset 0x0104, 0x0108 + 0x80 × p, RO. -/
def NET_PORT_MAC_HI (i : Nat) : Nat := 0x60108 + 0x80 * i
/-- NET_PORTp_IP4, offset 0x010C + 0x80 × p, RWH. -/
def NET_PORT_IP4 (i : Nat) : Nat := 0x6010C + 0x80 * i
/-- NET_PORTp_IP6_0–3, offset 0x0110–0x011C + 0x80 × p, RWH. -/
def NET_PORT_IP6 (i j : Nat) : Nat := 0x60110 + 0x80 * i + 0x4 * j
/-- NET_PORTp_LAT, offset 0x0120 + 0x80 × p, RWH. -/
def NET_PORT_LAT (i : Nat) : Nat := 0x60120 + 0x80 * i
/-- NET_PORTp_STATUS, offset 0x0124 + 0x80 × p, RO. -/
def NET_PORT_STATUS (i : Nat) : Nat := 0x60124 + 0x80 * i
/-- NET_PORTp_MEAN_DELAY, offset 0x0128 + 0x80 × p, RO. -/
def NET_PORT_MEAN_DELAY (i : Nat) : Nat := 0x60128 + 0x80 * i
/-- NET_PORTp_TSQ_STATUS, offset 0x012C + 0x80 × p, W1C. -/
def NET_PORT_TSQ_STATUS (i : Nat) : Nat := 0x6012C + 0x80 * i
/-- NET_PORTp_TSQ_POP, offset 0x0130 + 0x80 × p, W1S. -/
def NET_PORT_TSQ_POP (i : Nat) : Nat := 0x60130 + 0x80 * i
/-- NET_PORTp_TSQ_DROP, offset 0x0134 + 0x80 × p, RO. -/
def NET_PORT_TSQ_DROP (i : Nat) : Nat := 0x60134 + 0x80 * i
/-- NET_PORTp_TS_LOST, offset 0x0138 + 0x80 × p, RO. -/
def NET_PORT_TS_LOST (i : Nat) : Nat := 0x60138 + 0x80 * i
/-- NET_PORTp_RX_COUNT, offset 0x013C + 0x80 × p, RO. -/
def NET_PORT_RX_COUNT (i : Nat) : Nat := 0x6013C + 0x80 * i
/-- NET_PORTp_TX_COUNT, offset 0x0140 + 0x80 × p, RO. -/
def NET_PORT_TX_COUNT (i : Nat) : Nat := 0x60140 + 0x80 * i
/-- NET_PORTp_RX_DISCARD, offset 0x0144 + 0x80 × p, RO. -/
def NET_PORT_RX_DISCARD (i : Nat) : Nat := 0x60144 + 0x80 * i

/-! ## Block POS (09_web_position.md) -/

/-- POS_STATUS, offset 0x0000, W1C. -/
def POS_STATUS : Nat := 0x70000
/-- POS_CTRL, offset 0x0004, W1S. -/
def POS_CTRL : Nat := 0x70004
/-- POS_REF, offset 0x0008, RWH. -/
def POS_REF : Nat := 0x70008
/-- POS_OBS, offset 0x000C, RWH. -/
def POS_OBS : Nat := 0x7000C
/-- POS_CHECK_TOL, offset 0x0010, RWH. -/
def POS_CHECK_TOL : Nat := 0x70010
/-- POS_COAST, offset 0x0014, RWH. -/
def POS_COAST : Nat := 0x70014
/-- POS_DIR_HYST, offset 0x0018, RWH. -/
def POS_DIR_HYST : Nat := 0x70018
/-- POS_TRACK_ERR_MAX, offset 0x001C, RWH. -/
def POS_TRACK_ERR_MAX : Nat := 0x7001C
/-- POS_DIR_CHANGES, offset 0x0020, RO. -/
def POS_DIR_CHANGES : Nat := 0x70020
/-- POS_SNAP_SEQ, offset 0x0040, RO. -/
def POS_SNAP_SEQ : Nat := 0x70040
/-- POS_SNAP_TIME_LO, _HI, offset 0x0044, 0x0048, RO. -/
def POS_SNAP_TIME_LO : Nat := 0x70044
/-- POS_SNAP_TIME_LO, _HI, offset 0x0044, 0x0048, RO. -/
def POS_SNAP_TIME_HI : Nat := 0x70048
/-- POS_SNAP_X_LO, _HI, offset 0x004C, 0x0050, RO. -/
def POS_SNAP_X_LO : Nat := 0x7004C
/-- POS_SNAP_X_LO, _HI, offset 0x004C, 0x0050, RO. -/
def POS_SNAP_X_HI : Nat := 0x70050
/-- POS_SNAP_V, offset 0x0054, RO. -/
def POS_SNAP_V : Nat := 0x70054
/-- POS_SNAP_A, offset 0x0058, RO. -/
def POS_SNAP_A : Nat := 0x70058
/-- POS_SNAP_STATUS, offset 0x005C, RO. -/
def POS_SNAP_STATUS : Nat := 0x7005C
/-- POS_X_LO, _HI, offset 0x0070, 0x0074, RO. -/
def POS_X_LO : Nat := 0x70070
/-- POS_X_LO, _HI, offset 0x0070, 0x0074, RO. -/
def POS_X_HI : Nat := 0x70074
/-- POS_V, offset 0x0078, RO. -/
def POS_V : Nat := 0x70078
/-- POS_A, offset 0x007C, RO. -/
def POS_A : Nat := 0x7007C
/-- POS_SNAP_CNTch_LO, offset 0x0080 + 8 × ch, RO. -/
def POS_SNAP_CNT_LO (i : Nat) : Nat := 0x70080 + 0x8 * i
/-- POS_SNAP_CNTch_HI, offset 0x0084 + 8 × ch, RO. -/
def POS_SNAP_CNT_HI (i : Nat) : Nat := 0x70084 + 0x8 * i
/-- POS_ENCk_CFG, offset 0x0100 + 0x40 × k, RWH. -/
def POS_ENC_CFG (i : Nat) : Nat := 0x70100 + 0x40 * i
/-- POS_ENCk_SCALE, offset 0x0104 + 0x40 × k, RWH. -/
def POS_ENC_SCALE (i : Nat) : Nat := 0x70104 + 0x40 * i
/-- POS_ENCk_IDX_INTERVAL, offset 0x0108 + 0x40 × k, RWH. -/
def POS_ENC_IDX_INTERVAL (i : Nat) : Nat := 0x70108 + 0x40 * i
/-- POS_ENCk_IDX_TOL, offset 0x010C + 0x40 × k, RWH. -/
def POS_ENC_IDX_TOL (i : Nat) : Nat := 0x7010C + 0x40 * i
/-- POS_ENCk_CTRL, offset 0x0110 + 0x40 × k, W1S. -/
def POS_ENC_CTRL (i : Nat) : Nat := 0x70110 + 0x40 * i
/-- POS_ENCk_REZERO_VALUE, offset 0x0114 + 0x40 × k, RW. -/
def POS_ENC_REZERO_VALUE (i : Nat) : Nat := 0x70114 + 0x40 * i
/-- POS_ENCk_COUNT_LO, _HI, offset 0x0118, 0x011C + 0x40 × k, RO. -/
def POS_ENC_COUNT_LO (i : Nat) : Nat := 0x70118 + 0x40 * i
/-- POS_ENCk_COUNT_LO, _HI, offset 0x0118, 0x011C + 0x40 × k, RO. -/
def POS_ENC_COUNT_HI (i : Nat) : Nat := 0x7011C + 0x40 * i
/-- POS_ENCk_IDX_LATCH_LO, _HI, offset 0x0120, 0x0124 + 0x40 × k, RO. -/
def POS_ENC_IDX_LATCH_LO (i : Nat) : Nat := 0x70120 + 0x40 * i
/-- POS_ENCk_IDX_LATCH_LO, _HI, offset 0x0120, 0x0124 + 0x40 × k, RO. -/
def POS_ENC_IDX_LATCH_HI (i : Nat) : Nat := 0x70124 + 0x40 * i
/-- POS_ENCk_IDX_DRIFT, offset 0x0128 + 0x40 × k, RO. -/
def POS_ENC_IDX_DRIFT (i : Nat) : Nat := 0x70128 + 0x40 * i
/-- POS_ENCk_STATUS, offset 0x012C + 0x40 × k, W1C. -/
def POS_ENC_STATUS (i : Nat) : Nat := 0x7012C + 0x40 * i
/-- POS_ENCk_QERR_COUNT, offset 0x0130 + 0x40 × k, RO. -/
def POS_ENC_QERR_COUNT (i : Nat) : Nat := 0x70130 + 0x40 * i
/-- POS_ENCk_IDX_BAD_COUNT, offset 0x0134 + 0x40 × k, RO. -/
def POS_ENC_IDX_BAD_COUNT (i : Nat) : Nat := 0x70134 + 0x40 * i
/-- POS_ENCk_IDX_MISS_COUNT, offset 0x0138 + 0x40 × k, RO. -/
def POS_ENC_IDX_MISS_COUNT (i : Nat) : Nat := 0x70138 + 0x40 * i
/-- POS_ENCk_IDX_UNEXP, offset 0x013C + 0x40 × k, RO. -/
def POS_ENC_IDX_UNEXP (i : Nat) : Nat := 0x7013C + 0x40 * i
/-- POS_SSIs_CFG, offset 0x0200 + 0x40 × s, RWH. -/
def POS_SSI_CFG (i : Nat) : Nat := 0x70200 + 0x40 * i
/-- POS_SSIs_FIELDS, offset 0x0204 + 0x40 × s, RWH. -/
def POS_SSI_FIELDS (i : Nat) : Nat := 0x70204 + 0x40 * i
/-- POS_SSIs_CRC, offset 0x0208 + 0x40 × s, RWH. -/
def POS_SSI_CRC (i : Nat) : Nat := 0x70208 + 0x40 * i
/-- POS_SSIs_CRC_XOR, offset 0x020C + 0x40 × s, RWH. -/
def POS_SSI_CRC_XOR (i : Nat) : Nat := 0x7020C + 0x40 * i
/-- POS_SSIs_TIMING, offset 0x0210 + 0x40 × s, RWH. -/
def POS_SSI_TIMING (i : Nat) : Nat := 0x70210 + 0x40 * i
/-- POS_SSIs_PERIOD, offset 0x0214 + 0x40 × s, RWH. -/
def POS_SSI_PERIOD (i : Nat) : Nat := 0x70214 + 0x40 * i
/-- POS_SSIs_TIMEOUT, offset 0x0218 + 0x40 × s, RWH. -/
def POS_SSI_TIMEOUT (i : Nat) : Nat := 0x70218 + 0x40 * i
/-- POS_SSIs_MAX_STEP, offset 0x021C + 0x40 × s, RWH. -/
def POS_SSI_MAX_STEP (i : Nat) : Nat := 0x7021C + 0x40 * i
/-- POS_SSIs_SCALE, offset 0x0220 + 0x40 × s, RWH. -/
def POS_SSI_SCALE (i : Nat) : Nat := 0x70220 + 0x40 * i
/-- POS_SSIs_FAULT_LIMIT, offset 0x0224 + 0x40 × s, RWH. -/
def POS_SSI_FAULT_LIMIT (i : Nat) : Nat := 0x70224 + 0x40 * i
/-- POS_SSIs_COUNT_LO, _HI, offset 0x0228, 0x022C + 0x40 × s, RO. -/
def POS_SSI_COUNT_LO (i : Nat) : Nat := 0x70228 + 0x40 * i
/-- POS_SSIs_COUNT_LO, _HI, offset 0x0228, 0x022C + 0x40 × s, RO. -/
def POS_SSI_COUNT_HI (i : Nat) : Nat := 0x7022C + 0x40 * i
/-- POS_SSIs_RAW, offset 0x0230 + 0x40 × s, RO. -/
def POS_SSI_RAW (i : Nat) : Nat := 0x70230 + 0x40 * i
/-- POS_SSIs_STATUS, offset 0x0234 + 0x40 × s, W1C. -/
def POS_SSI_STATUS (i : Nat) : Nat := 0x70234 + 0x40 * i
/-- POS_SSIs_FRAME_COUNT, offset 0x0238 + 0x40 × s, RO. -/
def POS_SSI_FRAME_COUNT (i : Nat) : Nat := 0x70238 + 0x40 * i
/-- POS_SSIs_BAD_COUNT, offset 0x023C + 0x40 × s, RO. -/
def POS_SSI_BAD_COUNT (i : Nat) : Nat := 0x7023C + 0x40 * i
/-- POS_CMPk_CFG, offset 0x0400 + 0x20 × k, RWH. -/
def POS_CMP_CFG (i : Nat) : Nat := 0x70400 + 0x20 * i
/-- POS_CMPk_PULSE, offset 0x0404 + 0x20 × k, RW. -/
def POS_CMP_PULSE (i : Nat) : Nat := 0x70404 + 0x20 * i
/-- POS_CMPk_ARM_LO, offset 0x0408 + 0x20 × k, W1S. -/
def POS_CMP_ARM_LO (i : Nat) : Nat := 0x70408 + 0x20 * i
/-- POS_CMPk_ARM_HI, offset 0x040C + 0x20 × k, W1S. -/
def POS_CMP_ARM_HI (i : Nat) : Nat := 0x7040C + 0x20 * i
/-- POS_CMPk_DISARM_LO, offset 0x0410 + 0x20 × k, W1S. -/
def POS_CMP_DISARM_LO (i : Nat) : Nat := 0x70410 + 0x20 * i
/-- POS_CMPk_DISARM_HI, offset 0x0414 + 0x20 × k, W1S. -/
def POS_CMP_DISARM_HI (i : Nat) : Nat := 0x70414 + 0x20 * i
/-- POS_CMPk_STATUS, offset 0x0418 + 0x20 × k, RO. -/
def POS_CMP_STATUS (i : Nat) : Nat := 0x70418 + 0x20 * i
/-- POS_CMPk_FIRE_COUNT, offset 0x041C + 0x20 × k, RO. -/
def POS_CMP_FIRE_COUNT (i : Nat) : Nat := 0x7041C + 0x20 * i
/-- POS_CMPk_Ej_T_LO, offset 0x1000 + 0x400 × k + 0x10 × j, RW. -/
def POS_CMP_E_T_LO (i j : Nat) : Nat := 0x71000 + 0x400 * i + 0x10 * j
/-- POS_CMPk_Ej_T_HI, offset 0x1004 + 0x400 × k + 0x10 × j, RW. -/
def POS_CMP_E_T_HI (i j : Nat) : Nat := 0x71004 + 0x400 * i + 0x10 * j
/-- POS_CMPk_Ej_CTRL, offset 0x1008 + 0x400 × k + 0x10 × j, RW. -/
def POS_CMP_E_CTRL (i j : Nat) : Nat := 0x71008 + 0x400 * i + 0x10 * j
/-- POS_CMPk_Ej_ADVANCE, offset 0x100C + 0x400 × k + 0x10 × j, RW. -/
def POS_CMP_E_ADVANCE (i j : Nat) : Nat := 0x7100C + 0x400 * i + 0x10 * j
/-- POS_EMUe_CFG, offset 0x0600 + 0x20 × e, RWH. -/
def POS_EMU_CFG (i : Nat) : Nat := 0x70600 + 0x20 * i
/-- POS_EMUe_N, offset 0x0604 + 0x20 × e, RWH. -/
def POS_EMU_N (i : Nat) : Nat := 0x70604 + 0x20 * i
/-- POS_EMUe_M, offset 0x0608 + 0x20 × e, RWH. -/
def POS_EMU_M (i : Nat) : Nat := 0x70608 + 0x20 * i
/-- POS_EMUe_Z_PERIOD, offset 0x060C + 0x20 × e, RWH. -/
def POS_EMU_Z_PERIOD (i : Nat) : Nat := 0x7060C + 0x20 * i
/-- POS_EMUe_TARGET_LO, _HI, offset 0x0610, 0x0614 + 0x20 × e, RO. -/
def POS_EMU_TARGET_LO (i : Nat) : Nat := 0x70610 + 0x20 * i
/-- POS_EMUe_TARGET_LO, _HI, offset 0x0610, 0x0614 + 0x20 × e, RO. -/
def POS_EMU_TARGET_HI (i : Nat) : Nat := 0x70614 + 0x20 * i
/-- POS_EMUe_OWED, offset 0x0618 + 0x20 × e, RO. -/
def POS_EMU_OWED (i : Nat) : Nat := 0x70618 + 0x20 * i
/-- POS_EMUe_STATUS, offset 0x061C + 0x20 × e, RO. -/
def POS_EMU_STATUS (i : Nat) : Nat := 0x7061C + 0x20 * i

/-! ## Block ADC (09_web_position.md) -/

/-- ADC_CHn_CFG, offset 0x0100 + 0x20 × n, RWH. -/
def ADC_CH_CFG (i : Nat) : Nat := 0x80100 + 0x20 * i
/-- ADC_CHn_RATE, offset 0x0104 + 0x20 × n, RWH. -/
def ADC_CH_RATE (i : Nat) : Nat := 0x80104 + 0x20 * i
/-- ADC_CHn_LIMIT, offset 0x0108 + 0x20 × n, RWH. -/
def ADC_CH_LIMIT (i : Nat) : Nat := 0x80108 + 0x20 * i
/-- ADC_CHn_DATA, offset 0x010C + 0x20 × n, RO. -/
def ADC_CH_DATA (i : Nat) : Nat := 0x8010C + 0x20 * i
/-- ADC_CHn_TIME_LO, _HI, offset 0x0110, 0x0114 + 0x20 × n, RO. -/
def ADC_CH_TIME_LO (i : Nat) : Nat := 0x80110 + 0x20 * i
/-- ADC_CHn_TIME_LO, _HI, offset 0x0110, 0x0114 + 0x20 × n, RO. -/
def ADC_CH_TIME_HI (i : Nat) : Nat := 0x80114 + 0x20 * i
/-- ADC_CHn_FILT, offset 0x0118 + 0x20 × n, RO. -/
def ADC_CH_FILT (i : Nat) : Nat := 0x80118 + 0x20 * i
/-- ADC_CHn_STATUS, offset 0x011C + 0x20 × n, W1C. -/
def ADC_CH_STATUS (i : Nat) : Nat := 0x8011C + 0x20 * i

/-! ## Block MEMC (16_memory_and_arbitration.md) -/

/-- MEMC_STATUS, offset 0x0000, RO. -/
def MEMC_STATUS : Nat := 0x90000
/-- MEMC_PD_IDLE, offset 0x0004, RWH. -/
def MEMC_PD_IDLE : Nat := 0x90004
/-- MEMC_SR_IDLE, offset 0x0008, RWH. -/
def MEMC_SR_IDLE : Nat := 0x90008
/-- MEMC_ERASE_THR, offset 0x000C, RWH. -/
def MEMC_ERASE_THR : Nat := 0x9000C
/-- MEMC_UE_LIMIT, offset 0x0010, RWH. -/
def MEMC_UE_LIMIT : Nat := 0x90010
/-- MEMC_SCRUB_HOURS, offset 0x0014, RWH. -/
def MEMC_SCRUB_HOURS : Nat := 0x90014
/-- MEMC_CHc_STATUS, offset 0x0100 + 0x40 × c, RO. -/
def MEMC_CH_STATUS (i : Nat) : Nat := 0x90100 + 0x40 * i
/-- MEMC_CHc_CE_COUNT, offset 0x0104 + 0x40 × c, RO. -/
def MEMC_CH_CE_COUNT (i : Nat) : Nat := 0x90104 + 0x40 * i
/-- MEMC_CHc_UE_COUNT, offset 0x0108 + 0x40 × c, RO. -/
def MEMC_CH_UE_COUNT (i : Nat) : Nat := 0x90108 + 0x40 * i
/-- MEMC_CHc_CAPAR_COUNT, offset 0x010C + 0x40 × c, RO. -/
def MEMC_CH_CAPAR_COUNT (i : Nat) : Nat := 0x9010C + 0x40 * i
/-- MEMC_CHc_SRE_ABANDON_COUNT, offset 0x0110 + 0x40 × c, RO. -/
def MEMC_CH_SRE_ABANDON_COUNT (i : Nat) : Nat := 0x90110 + 0x40 * i
/-- MEMC_CHc_SRX_EARLY_COUNT, offset 0x0114 + 0x40 × c, RO. -/
def MEMC_CH_SRX_EARLY_COUNT (i : Nat) : Nat := 0x90114 + 0x40 * i
/-- MEMC_CHc_PD_EXIT_COUNT, offset 0x0118 + 0x40 × c, RO. -/
def MEMC_CH_PD_EXIT_COUNT (i : Nat) : Nat := 0x90118 + 0x40 * i
/-- MEMC_CHc_MARGIN, offset 0x011C + 0x40 × c, RO. -/
def MEMC_CH_MARGIN (i : Nat) : Nat := 0x9011C + 0x40 * i
/-- MEMC_CHc_REFRESH, offset 0x0120 + 0x40 × c, RO. -/
def MEMC_CH_REFRESH (i : Nat) : Nat := 0x90120 + 0x40 * i
/-- MEMC_CHc_LAST_UE_LO, _HI, offset 0x0124, 0x0128 + 0x40 × c, RO. -/
def MEMC_CH_LAST_UE_LO (i : Nat) : Nat := 0x90124 + 0x40 * i
/-- MEMC_CHc_LAST_UE_LO, _HI, offset 0x0124, 0x0128 + 0x40 × c, RO. -/
def MEMC_CH_LAST_UE_HI (i : Nat) : Nat := 0x90128 + 0x40 * i

/-! ## Block ARB (16_memory_and_arbitration.md) -/

/-- ARB_CTRL, offset 0x0000, W1S. -/
def ARB_CTRL : Nat := 0xA0000
/-- ARB_STATUS, offset 0x0004, RO. -/
def ARB_STATUS : Nat := 0xA0004
/-- ARB_SWAP_COUNT, offset 0x0008, RO. -/
def ARB_SWAP_COUNT : Nat := 0xA0008
/-- ARB_ALIVE, offset 0x000C, RO. -/
def ARB_ALIVE : Nat := 0xA000C
/-- ARB_DRAINING, offset 0x0010, RO. -/
def ARB_DRAINING : Nat := 0xA0010
/-- ARB_PORTp_CFG, offset 0x0100 + 4 × p, RW. -/
def ARB_PORT_CFG (i : Nat) : Nat := 0xA0100 + 0x4 * i
/-- ARB_PORTp_GRANT_COUNT, offset 0x0200 + 4 × p, RO. -/
def ARB_PORT_GRANT_COUNT (i : Nat) : Nat := 0xA0200 + 0x4 * i
/-- ARB_PORTp_DISCARD_COUNT, offset 0x0280 + 4 × p, RO. -/
def ARB_PORT_DISCARD_COUNT (i : Nat) : Nat := 0xA0280 + 0x4 * i
/-- ARB_SHADOWi, offset 0x0400 + 4 × i, RW. -/
def ARB_SHADOW (i : Nat) : Nat := 0xA0400 + 0x4 * i
/-- ARB_ACTIVEi, offset 0x0500 + 4 × i, RO. -/
def ARB_ACTIVE (i : Nat) : Nat := 0xA0500 + 0x4 * i

/-! ## Block PLACE (06_job_admission_and_placement.md) -/

/-- PLACE_SPEED_MAX, offset 0x0000, RWH. -/
def PLACE_SPEED_MAX : Nat := 0xB0000
/-- PLACE_REPEAT, offset 0x0004, RWH. -/
def PLACE_REPEAT : Nat := 0xB0004
/-- PLACE_DRAM_RESERVE, offset 0x0008, RWH. -/
def PLACE_DRAM_RESERVE : Nat := 0xB0008
/-- PLACE_GRAIN, offset 0x000C, RWH. -/
def PLACE_GRAIN : Nat := 0xB000C
/-- PLACE_RATE_FLOOR, offset 0x0010, RWH. -/
def PLACE_RATE_FLOOR : Nat := 0xB0010
/-- PLACE_DFL_OK, offset 0x0020, RO. -/
def PLACE_DFL_OK : Nat := 0xB0020
/-- PLACE_CH_OK, offset 0x0024, RO. -/
def PLACE_CH_OK : Nat := 0xB0024
/-- PLACE_LACE_OK, offset 0x0028, RO. -/
def PLACE_LACE_OK : Nat := 0xB0028
/-- PLACE_RE_MAP, offset 0x002C, RO. -/
def PLACE_RE_MAP : Nat := 0xB002C
/-- PLACE_WIN_MIB, offset 0x0030, RO. -/
def PLACE_WIN_MIB : Nat := 0xB0030
/-- PLACE_REPEAT_USED, offset 0x0034, RO. -/
def PLACE_REPEAT_USED : Nat := 0xB0034
/-- PLACE_CEILING, offset 0x0038, RO. -/
def PLACE_CEILING : Nat := 0xB0038
/-- PLACE_REPLAN_COUNT, offset 0x003C, RO. -/
def PLACE_REPLAN_COUNT : Nat := 0xB003C
/-- PLACE_BARb_CEIL, offset 0x0040 + 4 × b, RO. -/
def PLACE_BAR_CEIL (i : Nat) : Nat := 0xB0040 + 0x4 * i
/-- PLACE_BARb_FILL, offset 0x0060 + 4 × b, RO. -/
def PLACE_BAR_FILL (i : Nat) : Nat := 0xB0060 + 0x4 * i
/-- PLACE_BARb_LANES, offset 0x0080 + 4 × b, RO. -/
def PLACE_BAR_LANES (i : Nat) : Nat := 0xB0080 + 0x4 * i
/-- PLACE_BARb_STARVED, offset 0x00A0 + 4 × b, RO. -/
def PLACE_BAR_STARVED (i : Nat) : Nat := 0xB00A0 + 0x4 * i

/-! ## Block DFL (07_raster_input_and_compression.md) -/

/-- DFL_P1_DROP, offset 0x0000, RWH. -/
def DFL_P1_DROP : Nat := 0xC0000
/-- DFL_CMP_CTRL, offset 0x0004, RWH. -/
def DFL_CMP_CTRL : Nat := 0xC0004
/-- DFL_CMP_OK, offset 0x0010, RO. -/
def DFL_CMP_OK : Nat := 0xC0010
/-- DFL_IN_BYTES_LO, offset 0x0020, RO. -/
def DFL_IN_BYTES_LO : Nat := 0xC0020
/-- DFL_IN_BYTES_HI, offset 0x0024, RO. -/
def DFL_IN_BYTES_HI : Nat := 0xC0024
/-- DFL_OUT_BYTES_LO, offset 0x0028, RO. -/
def DFL_OUT_BYTES_LO : Nat := 0xC0028
/-- DFL_OUT_BYTES_HI, offset 0x002C, RO. -/
def DFL_OUT_BYTES_HI : Nat := 0xC002C
/-- DFL_OVERRUN_COUNT, offset 0x0030, RO. -/
def DFL_OVERRUN_COUNT : Nat := 0xC0030
/-- DFL_STREAM_ERR_COUNT, offset 0x0034, RO. -/
def DFL_STREAM_ERR_COUNT : Nat := 0xC0034
/-- DFL_SHORT_COUNT, offset 0x0038, RO. -/
def DFL_SHORT_COUNT : Nat := 0xC0038
/-- DFL_CRC_ERR_COUNT, offset 0x003C, RO. -/
def DFL_CRC_ERR_COUNT : Nat := 0xC003C
/-- DFL_CHAIN_BROKEN_COUNT, offset 0x0040, RO. -/
def DFL_CHAIN_BROKEN_COUNT : Nat := 0xC0040
/-- DFL_VERIFY_FAIL_COUNT, offset 0x0044, RO. -/
def DFL_VERIFY_FAIL_COUNT : Nat := 0xC0044
/-- DFL_LAST_ERR, offset 0x0048, RO. -/
def DFL_LAST_ERR : Nat := 0xC0048
/-- DFL_LAST_ERR_STRIP, offset 0x004C, RO. -/
def DFL_LAST_ERR_STRIP : Nat := 0xC004C
/-- DFL_LAST_ERR_JOB, offset 0x0050, RO. -/
def DFL_LAST_ERR_JOB : Nat := 0xC0050
/-- DFL_LANEn, offset 0x0100 + 4 × n, RO. -/
def DFL_LANE (i : Nat) : Nat := 0xC0100 + 0x4 * i
/-- DFL_CMPm, offset 0x0180 + 4 × m, RO. -/
def DFL_CMP (i : Nat) : Nat := 0xC0180 + 0x4 * i

/-! ## Block RE (08_raster_engines.md) -/

/-- REn_STATUS, offset 0x0000, RO. -/
def RE_STATUS (i : Nat) : Nat := 0x100000 + 0x10000 * i
/-- REb_SCREEN, offset 0x0004, RWH. -/
def RE_SCREEN (i : Nat) : Nat := 0x100004 + 0x10000 * i
/-- REb_DNC, offset 0x0008, RWH. -/
def RE_DNC (i : Nat) : Nat := 0x100008 + 0x10000 * i
/-- REb_WELT_SEED, offset 0x000C, RWH. -/
def RE_WELT_SEED (i : Nat) : Nat := 0x10000C + 0x10000 * i
/-- REb_ACTIVE, offset 0x0010, RO. -/
def RE_ACTIVE (i : Nat) : Nat := 0x100010 + 0x10000 * i
/-- REb_LINE, offset 0x0014, RO. -/
def RE_LINE (i : Nat) : Nat := 0x100014 + 0x10000 * i
/-- REb_DNC_LOST, offset 0x0018, RO. -/
def RE_DNC_LOST (i : Nat) : Nat := 0x100018 + 0x10000 * i
/-- REn_FAULT_INFO, offset 0x001C, RO. -/
def RE_FAULT_INFO (i : Nat) : Nat := 0x10001C + 0x10000 * i
/-- REb_HEADh_REMOVED, offset 0x0100 + 8 × h, RO. -/
def RE_HEAD_REMOVED (i j : Nat) : Nat := 0x100100 + 0x10000 * i + 0x8 * j
/-- REb_HEADh_DEMOTED, offset 0x0104 + 8 × h, RO. -/
def RE_HEAD_DEMOTED (i j : Nat) : Nat := 0x100104 + 0x10000 * i + 0x8 * j

/-! ## Block FIRE (10_line_timing_and_firing.md) -/

/-- FIRE_CTRL, offset 0x0000, RWH. -/
def FIRE_CTRL : Nat := 0x190000
/-- FIRE_BAR_EN, offset 0x0004, RWH. -/
def FIRE_BAR_EN : Nat := 0x190004
/-- FIRE_TEMP_STALE, offset 0x0008, RWH. -/
def FIRE_TEMP_STALE : Nat := 0x190008
/-- FIRE_STATUS, offset 0x000C, RO. -/
def FIRE_STATUS : Nat := 0x19000C
/-- FIRE_LINE_RATE, offset 0x0010, RO. -/
def FIRE_LINE_RATE : Nat := 0x190010
/-- FIRE_LINE_RATE_MAX, offset 0x0014, RO. -/
def FIRE_LINE_RATE_MAX : Nat := 0x190014
/-- FIRE_OVERSTOP_COUNT, offset 0x0018, RO. -/
def FIRE_OVERSTOP_COUNT : Nat := 0x190018
/-- FIRE_DEFECT_COUNT, offset 0x001C, RO. -/
def FIRE_DEFECT_COUNT : Nat := 0x19001C
/-- FIRE_BARb_OFFSET, offset 0x0100 + 0x40 × b, RWH. -/
def FIRE_BAR_OFFSET (i : Nat) : Nat := 0x190100 + 0x40 * i
/-- FIRE_BARb_TRIM, offset 0x0104 + 0x40 × b, RO. -/
def FIRE_BAR_TRIM (i : Nat) : Nat := 0x190104 + 0x40 * i
/-- FIRE_BARb_TRIM_TARGET, offset 0x0108 + 0x40 × b, RO. -/
def FIRE_BAR_TRIM_TARGET (i : Nat) : Nat := 0x190108 + 0x40 * i
/-- FIRE_BARb_OMEGA, offset 0x010C + 0x40 × b, RO. -/
def FIRE_BAR_OMEGA (i : Nat) : Nat := 0x19010C + 0x40 * i
/-- FIRE_BARb_RATE_MAX, offset 0x0110 + 0x40 × b, RO. -/
def FIRE_BAR_RATE_MAX (i : Nat) : Nat := 0x190110 + 0x40 * i
/-- FIRE_BARb_STATUS, offset 0x0114 + 0x40 × b, RO. -/
def FIRE_BAR_STATUS (i : Nat) : Nat := 0x190114 + 0x40 * i
/-- FIRE_BARb_LINE_LO, _HI, offset 0x0118, 0x011C + 0x40 × b, RO. -/
def FIRE_BAR_LINE_LO (i : Nat) : Nat := 0x190118 + 0x40 * i
/-- FIRE_BARb_LINE_LO, _HI, offset 0x0118, 0x011C + 0x40 × b, RO. -/
def FIRE_BAR_LINE_HI (i : Nat) : Nat := 0x19011C + 0x40 * i
/-- FIRE_BARb_TICK_LO, _HI, offset 0x0120, 0x0124 + 0x40 × b, RO. -/
def FIRE_BAR_TICK_LO (i : Nat) : Nat := 0x190120 + 0x40 * i
/-- FIRE_BARb_TICK_LO, _HI, offset 0x0120, 0x0124 + 0x40 × b, RO. -/
def FIRE_BAR_TICK_HI (i : Nat) : Nat := 0x190124 + 0x40 * i
/-- FIRE_BARb_SKIPPED, offset 0x0128 + 0x40 × b, RO. -/
def FIRE_BAR_SKIPPED (i : Nat) : Nat := 0x190128 + 0x40 * i
/-- FIRE_BARb_SUPPRESSED, offset 0x012C + 0x40 × b, RO. -/
def FIRE_BAR_SUPPRESSED (i : Nat) : Nat := 0x19012C + 0x40 * i
/-- FIRE_BARb_DERATED, offset 0x0130 + 0x40 × b, RO. -/
def FIRE_BAR_DERATED (i : Nat) : Nat := 0x190130 + 0x40 * i
/-- FIRE_BARb_STOPPED, offset 0x0134 + 0x40 × b, RO. -/
def FIRE_BAR_STOPPED (i : Nat) : Nat := 0x190134 + 0x40 * i
/-- FIRE_BARb_RESUME, offset 0x0138 + 0x40 × b, W1S. -/
def FIRE_BAR_RESUME (i : Nat) : Nat := 0x190138 + 0x40 * i
/-- FIRE_HEADg_TEMP, offset 0x1000 + 4 × g, RO. -/
def FIRE_HEAD_TEMP (i : Nat) : Nat := 0x191000 + 0x4 * i

/-! ## Block LACE (11_lace_link.md) -/

/-- LACEb_CFG, offset 0x0000, RWH. -/
def LACE_CFG (i : Nat) : Nat := 0x1A0000 + 0x10000 * i
/-- LACEb_CTRL, offset 0x0004, W1S. -/
def LACE_CTRL (i : Nat) : Nat := 0x1A0004 + 0x10000 * i
/-- LACEb_SENSE_HEAD, offset 0x0008, RW. -/
def LACE_SENSE_HEAD (i : Nat) : Nat := 0x1A0008 + 0x10000 * i
/-- LACEb_HMEM_SEL, offset 0x000C, RW. -/
def LACE_HMEM_SEL (i : Nat) : Nat := 0x1A000C + 0x10000 * i
/-- LACEb_STATUS, offset 0x0010, RO. -/
def LACE_STATUS (i : Nat) : Nat := 0x1A0010 + 0x10000 * i
/-- LACEb_HEADS_PRESENT, offset 0x0014, RO. -/
def LACE_HEADS_PRESENT (i : Nat) : Nat := 0x1A0014 + 0x10000 * i
/-- LACEb_HEADS_RATED, offset 0x0018, RO. -/
def LACE_HEADS_RATED (i : Nat) : Nat := 0x1A0018 + 0x10000 * i
/-- LACEb_LOCAL_STOP, offset 0x001C, RO. -/
def LACE_LOCAL_STOP (i : Nat) : Nat := 0x1A001C + 0x10000 * i
/-- LACEb_ONEWAY_NS, offset 0x0020, RO. -/
def LACE_ONEWAY_NS (i : Nat) : Nat := 0x1A0020 + 0x10000 * i
/-- LACEb_ALIGN_NS, offset 0x0024, RO. -/
def LACE_ALIGN_NS (i : Nat) : Nat := 0x1A0024 + 0x10000 * i
/-- LACEb_EPOCH_FOLLOWED, offset 0x0028, RO. -/
def LACE_EPOCH_FOLLOWED (i : Nat) : Nat := 0x1A0028 + 0x10000 * i
/-- LACEb_BUF_LINES, offset 0x002C, RO. -/
def LACE_BUF_LINES (i : Nat) : Nat := 0x1A002C + 0x10000 * i
/-- LACEb_CRC_ERR_COUNT, offset 0x0030, RO. -/
def LACE_CRC_ERR_COUNT (i : Nat) : Nat := 0x1A0030 + 0x10000 * i
/-- LACEb_TAG_FAIL_COUNT, offset 0x0034, RO. -/
def LACE_TAG_FAIL_COUNT (i : Nat) : Nat := 0x1A0034 + 0x10000 * i
/-- LACEb_RANGE_ERR_COUNT, offset 0x0038, RO. -/
def LACE_RANGE_ERR_COUNT (i : Nat) : Nat := 0x1A0038 + 0x10000 * i
/-- LACEb_RATE_DROP_COUNT, offset 0x003C, RO. -/
def LACE_RATE_DROP_COUNT (i : Nat) : Nat := 0x1A003C + 0x10000 * i
/-- LACEb_RESEND_COUNT, offset 0x0040, RO. -/
def LACE_RESEND_COUNT (i : Nat) : Nat := 0x1A0040 + 0x10000 * i
/-- LACEb_NODE_UNDERFLOW, offset 0x0044, RO. -/
def LACE_NODE_UNDERFLOW (i : Nat) : Nat := 0x1A0044 + 0x10000 * i
/-- LACEb_NODE_BRIDGED, offset 0x0048, RO. -/
def LACE_NODE_BRIDGED (i : Nat) : Nat := 0x1A0048 + 0x10000 * i
/-- LACEb_MISMATCH_COUNT, offset 0x004C, RO. -/
def LACE_MISMATCH_COUNT (i : Nat) : Nat := 0x1A004C + 0x10000 * i
/-- LACEb_MM_LINE_LO, _HI, offset 0x0050, 0x0054, RO. -/
def LACE_MM_LINE_LO (i : Nat) : Nat := 0x1A0050 + 0x10000 * i
/-- LACEb_MM_LINE_LO, _HI, offset 0x0050, 0x0054, RO. -/
def LACE_MM_LINE_HI (i : Nat) : Nat := 0x1A0054 + 0x10000 * i
/-- LACEb_MM_HEAD, offset 0x0058, RO. -/
def LACE_MM_HEAD (i : Nat) : Nat := 0x1A0058 + 0x10000 * i
/-- LACEb_LINKUP_COUNT, offset 0x005C, RO. -/
def LACE_LINKUP_COUNT (i : Nat) : Nat := 0x1A005C + 0x10000 * i
/-- LACEb_NODE_ID0–3, offset 0x0060–0x006C, RO. -/
def LACE_NODE_ID (i j : Nat) : Nat := 0x1A0060 + 0x10000 * i + 0x4 * j
/-- LACEb_HEADh_FMAX, offset 0x0100 + 4 × h, RO. -/
def LACE_HEAD_FMAX (i j : Nat) : Nat := 0x1A0100 + 0x10000 * i + 0x4 * j
/-- LACEb_SENSE_STAT, offset 0x0200, RO. -/
def LACE_SENSE_STAT (i : Nat) : Nat := 0x1A0200 + 0x10000 * i
/-- LACEb_SENSE_DATA, offset 0x0400–0x07FF, RO. -/
def LACE_SENSE_DATA (i j : Nat) : Nat := 0x1A0400 + 0x10000 * i + 0x4 * j
/-- LACEb_HMEM, offset 0x2000–0x3FFF, RO. -/
def LACE_HMEM (i j : Nat) : Nat := 0x1A2000 + 0x10000 * i + 0x4 * j

/-! ## Block LANE (12_serial_lanes.md) -/

/-- LANE_UP_LO, offset 0x0000, RO. -/
def LANE_UP_LO : Nat := 0x220000
/-- LANE_UP_HI, offset 0x0004, RO. -/
def LANE_UP_HI : Nat := 0x220004
/-- LANE_EQ_ROWS, offset 0x0008, RO. -/
def LANE_EQ_ROWS : Nat := 0x220008
/-- LANE_EQ_CRC, offset 0x000C, RO. -/
def LANE_EQ_CRC : Nat := 0x22000C
/-- LANE_EYE_CTRL, offset 0x0010, RW. -/
def LANE_EYE_CTRL : Nat := 0x220010
/-- LANE_EYE_GO, offset 0x0014, W1S. -/
def LANE_EYE_GO : Nat := 0x220014
/-- LANE_EYE_STATUS, offset 0x0018, RO. -/
def LANE_EYE_STATUS : Nat := 0x220018
/-- LANE_LNℓ_CFG, offset 0x0100 + 0x40 × ℓ, RWH. -/
def LANE_LN_CFG (i : Nat) : Nat := 0x220100 + 0x40 * i
/-- LANE_LNℓ_TEST, offset 0x0104 + 0x40 × ℓ, RW. -/
def LANE_LN_TEST (i : Nat) : Nat := 0x220104 + 0x40 * i
/-- LANE_LNℓ_CTRL, offset 0x0108 + 0x40 × ℓ, W1S. -/
def LANE_LN_CTRL (i : Nat) : Nat := 0x220108 + 0x40 * i
/-- LANE_LNℓ_ALT_REQ, offset 0x010C + 0x40 × ℓ, RW. -/
def LANE_LN_ALT_REQ (i : Nat) : Nat := 0x22010C + 0x40 * i
/-- LANE_LNℓ_STATUS, offset 0x0110 + 0x40 × ℓ, RO. -/
def LANE_LN_STATUS (i : Nat) : Nat := 0x220110 + 0x40 * i
/-- LANE_LNℓ_RATE, offset 0x0114 + 0x40 × ℓ, RO. -/
def LANE_LN_RATE (i : Nat) : Nat := 0x220114 + 0x40 * i
/-- LANE_LNℓ_ROW, offset 0x0118 + 0x40 × ℓ, RO. -/
def LANE_LN_ROW (i : Nat) : Nat := 0x220118 + 0x40 * i
/-- LANE_LNℓ_SKEW, offset 0x011C + 0x40 × ℓ, RO. -/
def LANE_LN_SKEW (i : Nat) : Nat := 0x22011C + 0x40 * i
/-- LANE_LNℓ_EYE_STAT, offset 0x0120 + 0x40 × ℓ, RO. -/
def LANE_LN_EYE_STAT (i : Nat) : Nat := 0x220120 + 0x40 * i
/-- LANE_LNℓ_EYE, offset 0x0124 + 0x40 × ℓ, RO. -/
def LANE_LN_EYE (i : Nat) : Nat := 0x220124 + 0x40 * i
/-- LANE_LNℓ_LOCKLOSS_COUNT, offset 0x0128 + 0x40 × ℓ, RO. -/
def LANE_LN_LOCKLOSS_COUNT (i : Nat) : Nat := 0x220128 + 0x40 * i
/-- LANE_LNℓ_SYNC_ERR_COUNT, offset 0x012C + 0x40 × ℓ, RO. -/
def LANE_LN_SYNC_ERR_COUNT (i : Nat) : Nat := 0x22012C + 0x40 * i
/-- LANE_LNℓ_PRBS_ERR_COUNT, offset 0x0130 + 0x40 × ℓ, RO. -/
def LANE_LN_PRBS_ERR_COUNT (i : Nat) : Nat := 0x220130 + 0x40 * i

/-! ## Block CXP (13_inspection_pipeline.md) -/

/-- CXP_STATUS, offset 0x0000, RO. -/
def CXP_STATUS : Nat := 0x230000
/-- CXP_CTL_SEL, offset 0x0004, RW. -/
def CXP_CTL_SEL : Nat := 0x230004
/-- CXP_CTL_ADDR, offset 0x0008, RW. -/
def CXP_CTL_ADDR : Nat := 0x230008
/-- CXP_CTL_DATA, offset 0x000C, RW. -/
def CXP_CTL_DATA : Nat := 0x23000C
/-- CXP_CTL_GO, offset 0x0010, W1S. -/
def CXP_CTL_GO : Nat := 0x230010
/-- CXP_CTL_STAT, offset 0x0014, RO. -/
def CXP_CTL_STAT : Nat := 0x230014
/-- CXP_CTL_RDATA, offset 0x0018, RO. -/
def CXP_CTL_RDATA : Nat := 0x230018
/-- CXP_CAMc_CFG, offset 0x0100 + 0x80 × c, RWH. -/
def CXP_CAM_CFG (i : Nat) : Nat := 0x230100 + 0x80 * i
/-- CXP_CAMc_TRIG, offset 0x0104 + 0x80 × c, RWH. -/
def CXP_CAM_TRIG (i : Nat) : Nat := 0x230104 + 0x80 * i
/-- CXP_CAMc_PITCH, offset 0x0108 + 0x80 × c, RWH. -/
def CXP_CAM_PITCH (i : Nat) : Nat := 0x230108 + 0x80 * i
/-- CXP_CAMc_RATE_MAX, offset 0x010C + 0x80 × c, RWH. -/
def CXP_CAM_RATE_MAX (i : Nat) : Nat := 0x23010C + 0x80 * i
/-- CXP_CAMc_OFFSET, offset 0x0110 + 0x80 × c, RWH. -/
def CXP_CAM_OFFSET (i : Nat) : Nat := 0x230110 + 0x80 * i
/-- CXP_CAMc_TRIG_LAT, offset 0x0114 + 0x80 × c, RWH. -/
def CXP_CAM_TRIG_LAT (i : Nat) : Nat := 0x230114 + 0x80 * i
/-- CXP_CAMc_ACQ_ADDR, offset 0x0118 + 0x80 × c, RWH. -/
def CXP_CAM_ACQ_ADDR (i : Nat) : Nat := 0x230118 + 0x80 * i
/-- CXP_CAMc_ACQ_VAL, offset 0x011C + 0x80 × c, RWH. -/
def CXP_CAM_ACQ_VAL (i : Nat) : Nat := 0x23011C + 0x80 * i
/-- CXP_CAMc_STOP_ADDR, offset 0x0120 + 0x80 × c, RWH. -/
def CXP_CAM_STOP_ADDR (i : Nat) : Nat := 0x230120 + 0x80 * i
/-- CXP_CAMc_STOP_VAL, offset 0x0124 + 0x80 × c, RWH. -/
def CXP_CAM_STOP_VAL (i : Nat) : Nat := 0x230124 + 0x80 * i
/-- CXP_CAMc_FRAME_LO, _HI, offset 0x0128, 0x012C + 0x80 × c, RO. -/
def CXP_CAM_FRAME_LO (i : Nat) : Nat := 0x230128 + 0x80 * i
/-- CXP_CAMc_FRAME_LO, _HI, offset 0x0128, 0x012C + 0x80 × c, RO. -/
def CXP_CAM_FRAME_HI (i : Nat) : Nat := 0x23012C + 0x80 * i
/-- CXP_CAMc_TRIG_SKIP, offset 0x0130 + 0x80 × c, RO. -/
def CXP_CAM_TRIG_SKIP (i : Nat) : Nat := 0x230130 + 0x80 * i
/-- CXP_CAMc_BRINGUP_COUNT, offset 0x0134 + 0x80 × c, RO. -/
def CXP_CAM_BRINGUP_COUNT (i : Nat) : Nat := 0x230134 + 0x80 * i
/-- CXP_CAMc_LINKk_CRC_ERR, offset 0x0140 + 0x80 × c + 4 × k, RO. -/
def CXP_CAM_LINK_CRC_ERR (i j : Nat) : Nat := 0x230140 + 0x80 * i + 0x4 * j

/-! ## Block VPIPE (13_inspection_pipeline.md) -/

/-- VPIPE_FRAME_LINES, offset 0x0000, RWH. -/
def VPIPE_FRAME_LINES : Nat := 0x240000
/-- VPIPE_OVF_LINES, offset 0x0004, RWH. -/
def VPIPE_OVF_LINES : Nat := 0x240004
/-- VPIPE_ARCHIVE, offset 0x0008, RWH. -/
def VPIPE_ARCHIVE : Nat := 0x240008
/-- VPIPE_NR, offset 0x000C, RWH. -/
def VPIPE_NR : Nat := 0x24000C
/-- VPIPE_FAULT_LIM, offset 0x0010, RWH. -/
def VPIPE_FAULT_LIM : Nat := 0x240010
/-- VPIPE_LOAD, offset 0x0014, RO. -/
def VPIPE_LOAD : Nat := 0x240014
/-- VPIPE_CAMc_ORDER, offset 0x0100 + 0x40 × c, RW. -/
def VPIPE_CAM_ORDER (i : Nat) : Nat := 0x240100 + 0x40 * i
/-- VPIPE_CAMc_FIFO, offset 0x0104 + 0x40 × c, RO. -/
def VPIPE_CAM_FIFO (i : Nat) : Nat := 0x240104 + 0x40 * i
/-- VPIPE_CAMc_FRAMES, offset 0x0108 + 0x40 × c, RO. -/
def VPIPE_CAM_FRAMES (i : Nat) : Nat := 0x240108 + 0x40 * i
/-- VPIPE_CAMc_USABLE, offset 0x010C + 0x40 × c, RO. -/
def VPIPE_CAM_USABLE (i : Nat) : Nat := 0x24010C + 0x40 * i
/-- VPIPE_CAMc_SHORT_COUNT, offset 0x0110 + 0x40 × c, RO. -/
def VPIPE_CAM_SHORT_COUNT (i : Nat) : Nat := 0x240110 + 0x40 * i
/-- VPIPE_CAMc_LONG_COUNT, offset 0x0114 + 0x40 × c, RO. -/
def VPIPE_CAM_LONG_COUNT (i : Nat) : Nat := 0x240114 + 0x40 * i
/-- VPIPE_CAMc_DROP_LINES, offset 0x0118 + 0x40 × c, RO. -/
def VPIPE_CAM_DROP_LINES (i : Nat) : Nat := 0x240118 + 0x40 * i
/-- VPIPE_CAMc_DISCARD_LINES, offset 0x011C + 0x40 × c, RO. -/
def VPIPE_CAM_DISCARD_LINES (i : Nat) : Nat := 0x24011C + 0x40 * i
/-- VPIPE_CAMc_CRC_LINES, offset 0x0120 + 0x40 × c, RO. -/
def VPIPE_CAM_CRC_LINES (i : Nat) : Nat := 0x240120 + 0x40 * i
/-- VPIPE_CAMc_ARCHIVE_SKIP, offset 0x0124 + 0x40 × c, RO. -/
def VPIPE_CAM_ARCHIVE_SKIP (i : Nat) : Nat := 0x240124 + 0x40 * i
/-- VPIPE_CAMc_LAST_FLAGS, offset 0x0128 + 0x40 × c, RO. -/
def VPIPE_CAM_LAST_FLAGS (i : Nat) : Nat := 0x240128 + 0x40 * i

/-! ## Block LOOP (14_colour_and_register_loops.md) -/

/-- LOOP_COL_CYCLE, offset 0x0000, RWH. -/
def LOOP_COL_CYCLE : Nat := 0x250000
/-- LOOP_COL_GAIN, offset 0x0004, RWH. -/
def LOOP_COL_GAIN : Nat := 0x250004
/-- LOOP_COL_DEADBAND, offset 0x0008, RWH. -/
def LOOP_COL_DEADBAND : Nat := 0x250008
/-- LOOP_COL_RATE, offset 0x000C, RWH. -/
def LOOP_COL_RATE : Nat := 0x25000C
/-- LOOP_COL_RAMP, offset 0x0010, RWH. -/
def LOOP_COL_RAMP : Nat := 0x250010
/-- LOOP_COL_SUSPECT_MAX, offset 0x0014, RWH. -/
def LOOP_COL_SUSPECT_MAX : Nat := 0x250014
/-- LOOP_REG_CYCLE, offset 0x0018, RWH. -/
def LOOP_REG_CYCLE : Nat := 0x250018
/-- LOOP_REG_CFG, offset 0x001C, RWH. -/
def LOOP_REG_CFG : Nat := 0x25001C
/-- LOOP_REG_RATE, offset 0x0020, RWH. -/
def LOOP_REG_RATE : Nat := 0x250020
/-- LOOP_AWL, offset 0x0024, RWH. -/
def LOOP_AWL : Nat := 0x250024
/-- LOOP_AWL_THR, offset 0x0028, RWH. -/
def LOOP_AWL_THR : Nat := 0x250028
/-- LOOP_STATUS, offset 0x0040, RO. -/
def LOOP_STATUS : Nat := 0x250040
/-- LOOP_HELD, offset 0x0044, RO. -/
def LOOP_HELD : Nat := 0x250044
/-- LOOP_COL_CYCLES, offset 0x0048, RO. -/
def LOOP_COL_CYCLES : Nat := 0x250048
/-- LOOP_REG_CYCLES, offset 0x004C, RO. -/
def LOOP_REG_CYCLES : Nat := 0x25004C
/-- LOOP_AWL_STAT, offset 0x0060, RO. -/
def LOOP_AWL_STAT : Nat := 0x250060
/-- LOOP_BARb_RAMP, offset 0x0100 + 0x20 × b, RO. -/
def LOOP_BAR_RAMP (i : Nat) : Nat := 0x250100 + 0x20 * i
/-- LOOP_BARb_SETTLE_LO, _HI, offset 0x0104, 0x0108 + 0x20 × b, RO. -/
def LOOP_BAR_SETTLE_LO (i : Nat) : Nat := 0x250104 + 0x20 * i
/-- LOOP_BARb_SETTLE_LO, _HI, offset 0x0104, 0x0108 + 0x20 × b, RO. -/
def LOOP_BAR_SETTLE_HI (i : Nat) : Nat := 0x250108 + 0x20 * i
/-- LOOP_BARb_REG_ERR, offset 0x010C + 0x20 × b, RO. -/
def LOOP_BAR_REG_ERR (i : Nat) : Nat := 0x25010C + 0x20 * i
/-- LOOP_BARb_FROZEN, offset 0x0110 + 0x20 × b, RO. -/
def LOOP_BAR_FROZEN (i : Nat) : Nat := 0x250110 + 0x20 * i
/-- LOOP_BARb_UPDATES, offset 0x0114 + 0x20 × b, RO. -/
def LOOP_BAR_UPDATES (i : Nat) : Nat := 0x250114 + 0x20 * i
/-- LOOP_BARb_LIMITED, offset 0x0118 + 0x20 × b, RO. -/
def LOOP_BAR_LIMITED (i : Nat) : Nat := 0x250118 + 0x20 * i
/-- LOOP_AWL_DATA, offset 0x0400–0x07FF, RO. -/
def LOOP_AWL_DATA (i : Nat) : Nat := 0x250400 + 0x4 * i
/-- LOOP_HEADg_DELTAi, offset 0x1000 + 0x10 × g + 4 × i, RO. -/
def LOOP_HEAD_DELTA (i j : Nat) : Nat := 0x251000 + 0x10 * i + 0x4 * j

/-! ## Block PAIR (17_redundant_pair.md) -/

/-- PAIR_CFG, offset 0x0000, RWH. -/
def PAIR_CFG : Nat := 0x260000
/-- PAIR_MATCH_MS, offset 0x0004, RWH. -/
def PAIR_MATCH_MS : Nat := 0x260004
/-- PAIR_SYNC_LEAD, offset 0x0008, RWH. -/
def PAIR_SYNC_LEAD : Nat := 0x260008
/-- PAIR_QUIET_PERIOD, offset 0x000C, RWH. -/
def PAIR_QUIET_PERIOD : Nat := 0x26000C
/-- PAIR_QUIET_LINE, offset 0x0010, RWH. -/
def PAIR_QUIET_LINE : Nat := 0x260010
/-- PAIR_STATUS, offset 0x0020, RO. -/
def PAIR_STATUS : Nat := 0x260020
/-- PAIR_EPOCH, offset 0x0024, RO. -/
def PAIR_EPOCH : Nat := 0x260024
/-- PAIR_EPOCH_MAX, offset 0x0028, RO. -/
def PAIR_EPOCH_MAX : Nat := 0x260028
/-- PAIR_PARTNER, offset 0x002C, RO. -/
def PAIR_PARTNER : Nat := 0x26002C
/-- PAIR_PIPE_COMPAT, offset 0x0030, RO. -/
def PAIR_PIPE_COMPAT : Nat := 0x260030
/-- PAIR_SHANK_NS, offset 0x0034, RO. -/
def PAIR_SHANK_NS : Nat := 0x260034
/-- PAIR_MATCH_RUN_LO, _HI, offset 0x0038, 0x003C, RO. -/
def PAIR_MATCH_RUN_LO : Nat := 0x260038
/-- PAIR_MATCH_RUN_LO, _HI, offset 0x0038, 0x003C, RO. -/
def PAIR_MATCH_RUN_HI : Nat := 0x26003C
/-- PAIR_POS_OFFSET_LO, _HI, offset 0x0040, 0x0044, RO. -/
def PAIR_POS_OFFSET_LO : Nat := 0x260040
/-- PAIR_POS_OFFSET_LO, _HI, offset 0x0040, 0x0044, RO. -/
def PAIR_POS_OFFSET_HI : Nat := 0x260044
/-- PAIR_TAKEOVER_COUNT, offset 0x0048, RO. -/
def PAIR_TAKEOVER_COUNT : Nat := 0x260048
/-- PAIR_MISMATCH_COUNT, offset 0x004C, RO. -/
def PAIR_MISMATCH_COUNT : Nat := 0x26004C
/-- PAIR_LATE_COUNT, offset 0x0050, RO. -/
def PAIR_LATE_COUNT : Nat := 0x260050
/-- PAIR_HB_MISS_COUNT, offset 0x0054, RO. -/
def PAIR_HB_MISS_COUNT : Nat := 0x260054
/-- PAIR_CMD_MISMATCH_COUNT, offset 0x0058, RO. -/
def PAIR_CMD_MISMATCH_COUNT : Nat := 0x260058
/-- PAIR_SHANK_CRC_COUNT, offset 0x005C, RO. -/
def PAIR_SHANK_CRC_COUNT : Nat := 0x26005C
/-- PAIR_LAST_CAUSE, offset 0x0060, RO. -/
def PAIR_LAST_CAUSE : Nat := 0x260060
/-- PAIR_BARb_JOIN_LO, offset 0x0080 + 8 × b, RO. -/
def PAIR_BAR_JOIN_LO (i : Nat) : Nat := 0x260080 + 0x8 * i
/-- PAIR_BARb_JOIN_HI, offset 0x0084 + 8 × b, RO. -/
def PAIR_BAR_JOIN_HI (i : Nat) : Nat := 0x260084 + 0x8 * i

/-! ## Block SAFE (18_safety_partition.md) -/

/-- SAFE_STATUS, offset 0x0000, SRO. -/
def SAFE_STATUS : Nat := 0x270000
/-- SAFE_INPUTS, offset 0x0004, SRO. -/
def SAFE_INPUTS : Nat := 0x270004
/-- SAFE_FAULT, offset 0x0008, SRO. -/
def SAFE_FAULT : Nat := 0x270008
/-- SAFE_SET_SEQ, offset 0x000C, SRO. -/
def SAFE_SET_SEQ : Nat := 0x27000C
/-- SAFE_SET_CRC, offset 0x0010, SRO. -/
def SAFE_SET_CRC : Nat := 0x270010
/-- SAFE_KEY_ID, offset 0x0014, SRO. -/
def SAFE_KEY_ID : Nat := 0x270014
/-- SAFE_MBOX_STAT, offset 0x0018, SRO. -/
def SAFE_MBOX_STAT : Nat := 0x270018
/-- SAFE_MBOX_RESULT, offset 0x001C, SRO. -/
def SAFE_MBOX_RESULT : Nat := 0x27001C
/-- SAFE_NOZ_W, offset 0x0020, SRO. -/
def SAFE_NOZ_W : Nat := 0x270020
/-- SAFE_NOZ_M, offset 0x0024, SRO. -/
def SAFE_NOZ_M : Nat := 0x270024
/-- SAFE_HEAD_W, offset 0x0028, SRO. -/
def SAFE_HEAD_W : Nat := 0x270028
/-- SAFE_HEAD_E, offset 0x002C, SRO. -/
def SAFE_HEAD_E : Nat := 0x27002C
/-- SAFE_TEMP, offset 0x0030, SRO. -/
def SAFE_TEMP : Nat := 0x270030
/-- SAFE_LIMITS, offset 0x0034, SRO. -/
def SAFE_LIMITS : Nat := 0x270034
/-- SAFE_SPEED_TRIP, offset 0x0038, SRO. -/
def SAFE_SPEED_TRIP : Nat := 0x270038
/-- SAFE_SPD_SCALE, offset 0x003C, SRO. -/
def SAFE_SPD_SCALE : Nat := 0x27003C
/-- SAFE_TIMES, offset 0x0040, SRO. -/
def SAFE_TIMES : Nat := 0x270040
/-- SAFE_SPEED, offset 0x0050, SRO. -/
def SAFE_SPEED : Nat := 0x270050
/-- SAFE_BAR_INHIBIT, offset 0x0054, SRO. -/
def SAFE_BAR_INHIBIT : Nat := 0x270054
/-- SAFE_PT_AGE, offset 0x0058, SRO. -/
def SAFE_PT_AGE : Nat := 0x270058
/-- SAFE_ESTOP_COUNT, offset 0x005C, SRO. -/
def SAFE_ESTOP_COUNT : Nat := 0x27005C
/-- SAFE_DISC_COUNT, offset 0x0060, SRO. -/
def SAFE_DISC_COUNT : Nat := 0x270060
/-- SAFE_TRIP_COUNT, offset 0x0064, SRO. -/
def SAFE_TRIP_COUNT : Nat := 0x270064
/-- SAFE_DIAG_COUNT, offset 0x0068, SRO. -/
def SAFE_DIAG_COUNT : Nat := 0x270068

/-! ## Block HLTH (20_health_ageing_calibration.md) -/

/-- HLTH_CFG, offset 0x0000, RWH. -/
def HLTH_CFG : Nat := 0x280000
/-- HLTH_STATUS, offset 0x0004, RO. -/
def HLTH_STATUS : Nat := 0x280004
/-- HLTH_REPLAN_COUNT, offset 0x0008, RO. -/
def HLTH_REPLAN_COUNT : Nat := 0x280008
/-- HLTH_LOG_DROP, offset 0x000C, RO. -/
def HLTH_LOG_DROP : Nat := 0x28000C
/-- HLTH_TEMP_BASE, offset 0x0010, RO. -/
def HLTH_TEMP_BASE : Nat := 0x280010
/-- HLTH_TEMP_BPn, offset 0x0014 + 4 × n, RO. -/
def HLTH_TEMP_BP (i : Nat) : Nat := 0x280014 + 0x4 * i
/-- HLTH_HOLDUP, offset 0x0020, RO. -/
def HLTH_HOLDUP : Nat := 0x280020
/-- HLTH_CAL_CFG, offset 0x0024, RW. -/
def HLTH_CAL_CFG : Nat := 0x280024
/-- HLTH_CAL_STAT, offset 0x0028, RO. -/
def HLTH_CAL_STAT : Nat := 0x280028
/-- HLTH_CAL_RESULT, offset 0x002C, RO. -/
def HLTH_CAL_RESULT : Nat := 0x28002C
/-- HLTH_AGEm, offset 0x0040 + 4 × m, RO. -/
def HLTH_AGE (i : Nat) : Nat := 0x280040 + 0x4 * i
/-- HLTH_AVSv, offset 0x0080 + 4 × v, RO. -/
def HLTH_AVS (i : Nat) : Nat := 0x280080 + 0x4 * i
/-- HLTH_DRAMc, offset 0x00A0 + 4 × c, RO. -/
def HLTH_DRAM (i : Nat) : Nat := 0x2800A0 + 0x4 * i
/-- HLTH_MARGINi_VAL, offset 0x0200 + 8 × i, RO. -/
def HLTH_MARGIN_VAL (i : Nat) : Nat := 0x280200 + 0x8 * i
/-- HLTH_MARGINi_PROJ, offset 0x0204 + 8 × i, RO. -/
def HLTH_MARGIN_PROJ (i : Nat) : Nat := 0x280204 + 0x8 * i

/-! ## Block NVM (20_health_ageing_calibration.md) -/

/-- NVM_STATUS, offset 0x0000, RO. -/
def NVM_STATUS : Nat := 0x290000
/-- NVM_BOOT, offset 0x0004, RO. -/
def NVM_BOOT : Nat := 0x290004
/-- NVM_IMGA_VER, offset 0x0008, RO. -/
def NVM_IMGA_VER : Nat := 0x290008
/-- NVM_IMGB_VER, offset 0x000C, RO. -/
def NVM_IMGB_VER : Nat := 0x29000C
/-- NVM_POH, offset 0x0010, RO. -/
def NVM_POH : Nat := 0x290010
/-- NVM_LOG_OLDEST_LO, _HI, offset 0x0018, 0x001C, RO. -/
def NVM_LOG_OLDEST_LO : Nat := 0x290018
/-- NVM_LOG_OLDEST_LO, _HI, offset 0x0018, 0x001C, RO. -/
def NVM_LOG_OLDEST_HI : Nat := 0x29001C
/-- NVM_LOG_NEXT_LO, _HI, offset 0x0020, 0x0024, RO. -/
def NVM_LOG_NEXT_LO : Nat := 0x290020
/-- NVM_LOG_NEXT_LO, _HI, offset 0x0020, 0x0024, RO. -/
def NVM_LOG_NEXT_HI : Nat := 0x290024
/-- NVM_MRAM_ERR_COUNT, offset 0x0028, RO. -/
def NVM_MRAM_ERR_COUNT : Nat := 0x290028
/-- NVM_FLASH_ERR_COUNT, offset 0x002C, RO. -/
def NVM_FLASH_ERR_COUNT : Nat := 0x29002C

end Sys2Proof.Reg

namespace Sys2Proof.Machine

/-- The access codes of R8. -/
inductive Access where
  | ro | rw | w1c | w1s | wo | rwh | sro
  deriving DecidableEq, Repr

/-- One row of a register table: `n1 x n2` instances from `base`, at strides `s1` and `s2`. -/
structure RegRow where
  base : Nat
  n1 : Nat
  s1 : Nat
  n2 : Nat
  s2 : Nat
  acc : Access
  /-- Bits that exist; the others are reserved and read 0 (R11). -/
  mask : Nat
  /-- Bits a host write sets. -/
  wmask : Nat
  /-- Bits a host write of 1 clears. -/
  cmask : Nat
  deriving DecidableEq, Repr

/-- The rows of block SYS. -/
def rowsSYS : List RegRow := [
  ⟨0x0, 1, 0x0, 1, 0x0, .ro, 0xFFFFFFFF, 0x0, 0x0⟩,
  ⟨0x4, 1, 0x0, 1, 0x0, .ro, 0xFFFFFFFF, 0x0, 0x0⟩,
  ⟨0x8, 1, 0x0, 1, 0x0, .ro, 0xFFFFFFFF, 0x0, 0x0⟩,
  ⟨0xC, 1, 0x0, 1, 0x0, .ro, 0xFF, 0x0, 0x0⟩,
  ⟨0x10, 1, 0x0, 1, 0x0, .ro, 0x3FFF, 0x0, 0x0⟩,
  ⟨0x14, 1, 0x0, 1, 0x0, .w1s, 0x3, 0x0, 0x0⟩,
  ⟨0x18, 1, 0x0, 1, 0x0, .ro, 0xFFFFFFFF, 0x0, 0x0⟩,
  ⟨0x1C, 1, 0x0, 1, 0x0, .ro, 0xFFFFFFFF, 0x0, 0x0⟩,
  ⟨0x20, 1, 0x0, 1, 0x0, .ro, 0xFFFFFFFF, 0x0, 0x0⟩,
  ⟨0x24, 1, 0x0, 1, 0x0, .ro, 0xF, 0x0, 0x0⟩,
  ⟨0x28, 1, 0x0, 1, 0x0, .ro, 0x1FF, 0x0, 0x0⟩,
  ⟨0x40, 8, 0x4, 1, 0x0, .ro, 0xFFFFFFFF, 0x0, 0x0⟩,
  ⟨0x60, 8, 0x4, 1, 0x0, .rw, 0xFFFFFFFF, 0xFFFFFFFF, 0x0⟩]

/-- The rows of block HOSTQ.  Bits [11:0] of a queue's base are reserved (R11): a base written with other bits there keeps none of them,
so the enable finds an aligned base and R93's refusal of an unaligned one never arises (log entry 99). -/
def rowsHOSTQ : List RegRow := [
  ⟨0x10000, 1, 0x0, 1, 0x0, .ro, 0x1FF, 0x0, 0x0⟩,
  ⟨0x10004, 1, 0x0, 1, 0x0, .ro, 0xFFFFFFFF, 0x0, 0x0⟩,
  ⟨0x10008, 1, 0x0, 1, 0x0, .ro, 0xFFFFFFFF, 0x0, 0x0⟩,
  ⟨0x1000C, 1, 0x0, 1, 0x0, .ro, 0xFFFFFFFF, 0x0, 0x0⟩,
  ⟨0x10100, 3, 0x40, 1, 0x0, .ro, 0x1FFFF, 0x0, 0x0⟩,
  ⟨0x10104, 3, 0x40, 1, 0x0, .ro, 0xFFFFFFFF, 0x0, 0x0⟩,
  ⟨0x10108, 3, 0x40, 8, 0x4, .ro, 0xFFFFFFFF, 0x0, 0x0⟩,
  ⟨0x11000, 16, 0x40, 1, 0x0, .rw, 0xFFFFF000, 0xFFFFF000, 0x0⟩,
  ⟨0x11004, 16, 0x40, 1, 0x0, .rw, 0xFFFFFFFF, 0xFFFFFFFF, 0x0⟩,
  ⟨0x11008, 16, 0x40, 1, 0x0, .rw, 0xFFFFF000, 0xFFFFF000, 0x0⟩,
  ⟨0x1100C, 16, 0x40, 1, 0x0, .rw, 0xFFFFFFFF, 0xFFFFFFFF, 0x0⟩,
  ⟨0x11010, 16, 0x40, 1, 0x0, .rw, 0xFF, 0xFF, 0x0⟩,
  ⟨0x11014, 16, 0x40, 1, 0x0, .rw, 0x7FF, 0x7FF, 0x0⟩,
  ⟨0x11018, 16, 0x40, 1, 0x0, .rw, 0xFFFFFF, 0xFFFFFF, 0x0⟩,
  ⟨0x1101C, 16, 0x40, 1, 0x0, .ro, 0xF, 0x0, 0x0⟩,
  ⟨0x11020, 16, 0x40, 1, 0x0, .ro, 0xFFFFFFFF, 0x0, 0x0⟩,
  ⟨0x11024, 16, 0x40, 1, 0x0, .ro, 0xFFFFFFFF, 0x0, 0x0⟩,
  ⟨0x11028, 16, 0x40, 1, 0x0, .ro, 0xFFFFFFFF, 0x0, 0x0⟩,
  ⟨0x1102C, 16, 0x40, 1, 0x0, .ro, 0xFFFFFFFF, 0x0, 0x0⟩,
  ⟨0x18000, 256, 0x4, 1, 0x0, .rw, 0xFFFFFFFF, 0xFFFFFFFF, 0x0⟩,
  ⟨0x19000, 2, 0x4, 1, 0x0, .ro, 0xFFFFFFFF, 0x0, 0x0⟩]

/-- The rows of block CLK. -/
def rowsCLK : List RegRow := [
  ⟨0x20000, 1, 0x0, 1, 0x0, .ro, 0x1F, 0x0, 0x0⟩,
  ⟨0x20004, 1, 0x0, 1, 0x0, .ro, 0xFFFFFFFF, 0x0, 0x0⟩,
  ⟨0x20008, 1, 0x0, 1, 0x0, .ro, 0xFFFFFFFF, 0x0, 0x0⟩]

/-- The rows of block PWR. -/
def rowsPWR : List RegRow := [
  ⟨0x30000, 1, 0x0, 1, 0x0, .ro, 0x7FFF, 0x0, 0x0⟩,
  ⟨0x30004, 1, 0x0, 1, 0x0, .rwh, 0xFFFFFFFF, 0xFFFFFFFF, 0x0⟩,
  ⟨0x30008, 1, 0x0, 1, 0x0, .rwh, 0xFFFFFFFF, 0xFFFFFFFF, 0x0⟩,
  ⟨0x3000C, 1, 0x0, 1, 0x0, .rwh, 0xFFFFFFFF, 0xFFFFFFFF, 0x0⟩,
  ⟨0x30010, 1, 0x0, 1, 0x0, .rwh, 0xFFFFFFFF, 0xFFFFFFFF, 0x0⟩,
  ⟨0x30014, 1, 0x0, 1, 0x0, .rwh, 0xFFFF, 0xFFFF, 0x0⟩,
  ⟨0x30020, 1, 0x0, 1, 0x0, .ro, 0xFFFFFFFF, 0x0, 0x0⟩,
  ⟨0x30024, 1, 0x0, 1, 0x0, .ro, 0xFFFFFFFF, 0x0, 0x0⟩,
  ⟨0x30028, 1, 0x0, 1, 0x0, .ro, 0xFFFFFFFF, 0x0, 0x0⟩,
  ⟨0x3002C, 1, 0x0, 1, 0x0, .ro, 0xFFFFFFFF, 0x0, 0x0⟩,
  ⟨0x30030, 1, 0x0, 1, 0x0, .ro, 0x7FFF, 0x0, 0x0⟩]

/-- The rows of block HEEL. -/
def rowsHEEL : List RegRow := [
  ⟨0x40000, 1, 0x0, 1, 0x0, .ro, 0x7, 0x0, 0x0⟩,
  ⟨0x40004, 1, 0x0, 1, 0x0, .ro, 0x3F, 0x0, 0x0⟩,
  ⟨0x40008, 1, 0x0, 1, 0x0, .ro, 0xFFFF, 0x0, 0x0⟩,
  ⟨0x4000C, 1, 0x0, 1, 0x0, .ro, 0x7FFF7F, 0x0, 0x0⟩,
  ⟨0x40010, 1, 0x0, 1, 0x0, .ro, 0xFFFFFFFF, 0x0, 0x0⟩,
  ⟨0x40014, 1, 0x0, 1, 0x0, .ro, 0xFFFFFFFF, 0x0, 0x0⟩,
  ⟨0x40018, 1, 0x0, 1, 0x0, .ro, 0xFFFFFFFF, 0x0, 0x0⟩,
  ⟨0x4001C, 1, 0x0, 1, 0x0, .ro, 0xFFFFFFFF, 0x0, 0x0⟩,
  ⟨0x40020, 1, 0x0, 1, 0x0, .ro, 0xFFFFFFFF, 0x0, 0x0⟩]

/-- The rows of block TIME. -/
def rowsTIME : List RegRow := [
  ⟨0x50000, 1, 0x0, 1, 0x0, .ro, 0x73F, 0x0, 0x0⟩,
  ⟨0x50004, 1, 0x0, 1, 0x0, .w1s, 0x1, 0x0, 0x0⟩,
  ⟨0x50008, 1, 0x0, 1, 0x0, .rwh, 0x3, 0x3, 0x0⟩,
  ⟨0x5000C, 1, 0x0, 1, 0x0, .rwh, 0xFFFF, 0xFFFF, 0x0⟩,
  ⟨0x50010, 1, 0x0, 1, 0x0, .rwh, 0xFFFFFFFF, 0xFFFFFFFF, 0x0⟩,
  ⟨0x50014, 1, 0x0, 1, 0x0, .rwh, 0xFFFFFFFF, 0xFFFFFFFF, 0x0⟩,
  ⟨0x50018, 1, 0x0, 1, 0x0, .rwh, 0xFFFFFFFF, 0xFFFFFFFF, 0x0⟩,
  ⟨0x50020, 1, 0x0, 1, 0x0, .ro, 0xFFFFFFFF, 0x0, 0x0⟩,
  ⟨0x50024, 1, 0x0, 1, 0x0, .ro, 0xFFFFFFFF, 0x0, 0x0⟩,
  ⟨0x50028, 1, 0x0, 1, 0x0, .ro, 0xFFFFFFFF, 0x0, 0x0⟩,
  ⟨0x5002C, 1, 0x0, 1, 0x0, .ro, 0xFFFFFFFF, 0x0, 0x0⟩,
  ⟨0x50030, 1, 0x0, 1, 0x0, .ro, 0xFFFFFFFF, 0x0, 0x0⟩,
  ⟨0x50034, 1, 0x0, 1, 0x0, .ro, 0xFFFFFFFF, 0x0, 0x0⟩,
  ⟨0x50040, 1, 0x0, 1, 0x0, .ro, 0xFFFFFFFF, 0x0, 0x0⟩,
  ⟨0x50044, 1, 0x0, 1, 0x0, .ro, 0xFFFFFFFF, 0x0, 0x0⟩,
  ⟨0x50048, 1, 0x0, 1, 0x0, .ro, 0xFFFFFFFF, 0x0, 0x0⟩,
  ⟨0x5004C, 1, 0x0, 1, 0x0, .ro, 0xFFFFFFFF, 0x0, 0x0⟩,
  ⟨0x50050, 1, 0x0, 1, 0x0, .ro, 0x3FFFFFFF, 0x0, 0x0⟩,
  ⟨0x50054, 1, 0x0, 1, 0x0, .ro, 0xFFFFFFFF, 0x0, 0x0⟩,
  ⟨0x50060, 1, 0x0, 1, 0x0, .ro, 0xFFFFFFFF, 0x0, 0x0⟩,
  ⟨0x50064, 1, 0x0, 1, 0x0, .ro, 0xFFFFFFFF, 0x0, 0x0⟩,
  ⟨0x50068, 1, 0x0, 1, 0x0, .ro, 0xFFFFFFFF, 0x0, 0x0⟩,
  ⟨0x5006C, 1, 0x0, 1, 0x0, .rwh, 0xFFF, 0xFFF, 0x0⟩,
  ⟨0x50080, 1, 0x0, 1, 0x0, .w1s, 0xFFFF, 0x0, 0x0⟩,
  ⟨0x50084, 1, 0x0, 1, 0x0, .w1s, 0xFFFF, 0x0, 0x0⟩,
  ⟨0x50100, 16, 0x20, 1, 0x0, .rw, 0x3, 0x3, 0x0⟩,
  ⟨0x50104, 16, 0x20, 1, 0x0, .rw, 0xFFFFFFFF, 0xFFFFFFFF, 0x0⟩,
  ⟨0x50108, 16, 0x20, 1, 0x0, .rw, 0xFFFFFFFF, 0xFFFFFFFF, 0x0⟩,
  ⟨0x5010C, 16, 0x20, 1, 0x0, .rw, 0x3FFFFFFF, 0x3FFFFFFF, 0x0⟩,
  ⟨0x50110, 16, 0x20, 1, 0x0, .rw, 0xFFFFFFFF, 0xFFFFFFFF, 0x0⟩,
  ⟨0x50114, 16, 0x20, 1, 0x0, .rw, 0xFFFFFFFF, 0xFFFFFFFF, 0x0⟩,
  ⟨0x50118, 16, 0x20, 1, 0x0, .w1c, 0xFFFF0007, 0x0, 0x4⟩,
  ⟨0x5011C, 16, 0x20, 1, 0x0, .ro, 0xFFFFFFFF, 0x0, 0x0⟩]

/-- The rows of block NET. -/
def rowsNET : List RegRow := [
  ⟨0x60000, 1, 0x0, 1, 0x0, .rwh, 0xFF7F, 0xFF7F, 0x0⟩,
  ⟨0x60004, 1, 0x0, 1, 0x0, .rwh, 0xFFFFFF, 0xFFFFFF, 0x0⟩,
  ⟨0x60008, 1, 0x0, 1, 0x0, .rwh, 0xFFFFFFFF, 0xFFFFFFFF, 0x0⟩,
  ⟨0x6000C, 1, 0x0, 1, 0x0, .rwh, 0xFFFF, 0xFFFF, 0x0⟩,
  ⟨0x60010, 1, 0x0, 1, 0x0, .ro, 0xFFFFFFFF, 0x0, 0x0⟩,
  ⟨0x60014, 1, 0x0, 1, 0x0, .ro, 0xFFFFFFFF, 0x0, 0x0⟩,
  ⟨0x60018, 1, 0x0, 1, 0x0, .ro, 0x3FFFF, 0x0, 0x0⟩,
  ⟨0x60100, 2, 0x80, 1, 0x0, .rwh, 0x7, 0x7, 0x0⟩,
  ⟨0x60104, 2, 0x80, 1, 0x0, .ro, 0xFFFFFFFF, 0x0, 0x0⟩,
  ⟨0x60108, 2, 0x80, 1, 0x0, .ro, 0xFFFFFFFF, 0x0, 0x0⟩,
  ⟨0x6010C, 2, 0x80, 1, 0x0, .rwh, 0xFFFFFFFF, 0xFFFFFFFF, 0x0⟩,
  ⟨0x60110, 2, 0x80, 4, 0x4, .rwh, 0xFFFFFFFF, 0xFFFFFFFF, 0x0⟩,
  ⟨0x60120, 2, 0x80, 1, 0x0, .rwh, 0xFFFFFFFF, 0xFFFFFFFF, 0x0⟩,
  ⟨0x60124, 2, 0x80, 1, 0x0, .ro, 0xF1, 0x0, 0x0⟩,
  ⟨0x60128, 2, 0x80, 1, 0x0, .ro, 0xFFFFFFFF, 0x0, 0x0⟩,
  ⟨0x6012C, 2, 0x80, 1, 0x0, .w1c, 0x3F, 0x0, 0x20⟩,
  ⟨0x60130, 2, 0x80, 1, 0x0, .w1s, 0x1, 0x0, 0x0⟩,
  ⟨0x60134, 2, 0x80, 1, 0x0, .ro, 0xFFFFFFFF, 0x0, 0x0⟩,
  ⟨0x60138, 2, 0x80, 1, 0x0, .ro, 0xFFFFFFFF, 0x0, 0x0⟩,
  ⟨0x6013C, 2, 0x80, 1, 0x0, .ro, 0xFFFFFFFF, 0x0, 0x0⟩,
  ⟨0x60140, 2, 0x80, 1, 0x0, .ro, 0xFFFFFFFF, 0x0, 0x0⟩,
  ⟨0x60144, 2, 0x80, 1, 0x0, .ro, 0xFFFFFFFF, 0x0, 0x0⟩]

/-- The rows of block POS. -/
def rowsPOS : List RegRow := [
  ⟨0x70000, 1, 0x0, 1, 0x0, .w1c, 0x1FF, 0x0, 0x180⟩,
  ⟨0x70004, 1, 0x0, 1, 0x0, .w1s, 0x1, 0x0, 0x0⟩,
  ⟨0x70008, 1, 0x0, 1, 0x0, .rwh, 0x177, 0x177, 0x0⟩,
  ⟨0x7000C, 1, 0x0, 1, 0x0, .rwh, 0xF, 0xF, 0x0⟩,
  ⟨0x70010, 1, 0x0, 1, 0x0, .rwh, 0xFFFFFFFF, 0xFFFFFFFF, 0x0⟩,
  ⟨0x70014, 1, 0x0, 1, 0x0, .rwh, 0xFFFFFFFF, 0xFFFFFFFF, 0x0⟩,
  ⟨0x70018, 1, 0x0, 1, 0x0, .rwh, 0xFFFFFFFF, 0xFFFFFFFF, 0x0⟩,
  ⟨0x7001C, 1, 0x0, 1, 0x0, .rwh, 0xFFFFFFFF, 0xFFFFFFFF, 0x0⟩,
  ⟨0x70020, 1, 0x0, 1, 0x0, .ro, 0xFFFFFFFF, 0x0, 0x0⟩,
  ⟨0x70040, 1, 0x0, 1, 0x0, .ro, 0xFFFFFFFF, 0x0, 0x0⟩,
  ⟨0x70044, 1, 0x0, 1, 0x0, .ro, 0xFFFFFFFF, 0x0, 0x0⟩,
  ⟨0x70048, 1, 0x0, 1, 0x0, .ro, 0xFFFFFFFF, 0x0, 0x0⟩,
  ⟨0x7004C, 1, 0x0, 1, 0x0, .ro, 0xFFFFFFFF, 0x0, 0x0⟩,
  ⟨0x70050, 1, 0x0, 1, 0x0, .ro, 0xFFFFFFFF, 0x0, 0x0⟩,
  ⟨0x70054, 1, 0x0, 1, 0x0, .ro, 0xFFFFFFFF, 0x0, 0x0⟩,
  ⟨0x70058, 1, 0x0, 1, 0x0, .ro, 0xFFFFFFFF, 0x0, 0x0⟩,
  ⟨0x7005C, 1, 0x0, 1, 0x0, .ro, 0xFFFFFFFF, 0x0, 0x0⟩,
  ⟨0x70070, 1, 0x0, 1, 0x0, .ro, 0xFFFFFFFF, 0x0, 0x0⟩,
  ⟨0x70074, 1, 0x0, 1, 0x0, .ro, 0xFFFFFFFF, 0x0, 0x0⟩,
  ⟨0x70078, 1, 0x0, 1, 0x0, .ro, 0xFFFFFFFF, 0x0, 0x0⟩,
  ⟨0x7007C, 1, 0x0, 1, 0x0, .ro, 0xFFFFFFFF, 0x0, 0x0⟩,
  ⟨0x70080, 6, 0x8, 1, 0x0, .ro, 0xFFFFFFFF, 0x0, 0x0⟩,
  ⟨0x70084, 6, 0x8, 1, 0x0, .ro, 0xFFFFFFFF, 0x0, 0x0⟩,
  ⟨0x70100, 4, 0x40, 1, 0x0, .rwh, 0x3FF, 0x3FF, 0x0⟩,
  ⟨0x70104, 4, 0x40, 1, 0x0, .rwh, 0xFFFFFFFF, 0xFFFFFFFF, 0x0⟩,
  ⟨0x70108, 4, 0x40, 1, 0x0, .rwh, 0xFFFFFFFF, 0xFFFFFFFF, 0x0⟩,
  ⟨0x7010C, 4, 0x40, 1, 0x0, .rwh, 0xFFFFFFFF, 0xFFFFFFFF, 0x0⟩,
  ⟨0x70110, 4, 0x40, 1, 0x0, .w1s, 0x3, 0x0, 0x0⟩,
  ⟨0x70114, 4, 0x40, 1, 0x0, .rw, 0xFFFFFFFF, 0xFFFFFFFF, 0x0⟩,
  ⟨0x70118, 4, 0x40, 1, 0x0, .ro, 0xFFFFFFFF, 0x0, 0x0⟩,
  ⟨0x7011C, 4, 0x40, 1, 0x0, .ro, 0xFFFFFFFF, 0x0, 0x0⟩,
  ⟨0x70120, 4, 0x40, 1, 0x0, .ro, 0xFFFFFFFF, 0x0, 0x0⟩,
  ⟨0x70124, 4, 0x40, 1, 0x0, .ro, 0xFFFFFFFF, 0x0, 0x0⟩,
  ⟨0x70128, 4, 0x40, 1, 0x0, .ro, 0xFFFFFFFF, 0x0, 0x0⟩,
  ⟨0x7012C, 4, 0x40, 1, 0x0, .w1c, 0xFF, 0x0, 0x1⟩,
  ⟨0x70130, 4, 0x40, 1, 0x0, .ro, 0xFFFFFFFF, 0x0, 0x0⟩,
  ⟨0x70134, 4, 0x40, 1, 0x0, .ro, 0xFFFFFFFF, 0x0, 0x0⟩,
  ⟨0x70138, 4, 0x40, 1, 0x0, .ro, 0xFFFFFFFF, 0x0, 0x0⟩,
  ⟨0x7013C, 4, 0x40, 1, 0x0, .ro, 0xFFFFFFFF, 0x0, 0x0⟩,
  ⟨0x70200, 2, 0x40, 1, 0x0, .rwh, 0x7FFFF, 0x7FFFF, 0x0⟩,
  ⟨0x70204, 2, 0x40, 1, 0x0, .rwh, 0xFFFFFF, 0xFFFFFF, 0x0⟩,
  ⟨0x70208, 2, 0x40, 1, 0x0, .rwh, 0xFFFFFFFF, 0xFFFFFFFF, 0x0⟩,
  ⟨0x7020C, 2, 0x40, 1, 0x0, .rwh, 0xFFFF, 0xFFFF, 0x0⟩,
  ⟨0x70210, 2, 0x40, 1, 0x0, .rwh, 0xFFFFFF, 0xFFFFFF, 0x0⟩,
  ⟨0x70214, 2, 0x40, 1, 0x0, .rwh, 0xFFFFFFFF, 0xFFFFFFFF, 0x0⟩,
  ⟨0x70218, 2, 0x40, 1, 0x0, .rwh, 0xFFFFFFFF, 0xFFFFFFFF, 0x0⟩,
  ⟨0x7021C, 2, 0x40, 1, 0x0, .rwh, 0xFFFFFFFF, 0xFFFFFFFF, 0x0⟩,
  ⟨0x70220, 2, 0x40, 1, 0x0, .rwh, 0xFFFFFFFF, 0xFFFFFFFF, 0x0⟩,
  ⟨0x70224, 2, 0x40, 1, 0x0, .rwh, 0xFFFFFFFF, 0xFFFFFFFF, 0x0⟩,
  ⟨0x70228, 2, 0x40, 1, 0x0, .ro, 0xFFFFFFFF, 0x0, 0x0⟩,
  ⟨0x7022C, 2, 0x40, 1, 0x0, .ro, 0xFFFFFFFF, 0x0, 0x0⟩,
  ⟨0x70230, 2, 0x40, 1, 0x0, .ro, 0xFFFFFFFF, 0x0, 0x0⟩,
  ⟨0x70234, 2, 0x40, 1, 0x0, .w1c, 0x7FFF, 0x0, 0x1⟩,
  ⟨0x70238, 2, 0x40, 1, 0x0, .ro, 0xFFFFFFFF, 0x0, 0x0⟩,
  ⟨0x7023C, 2, 0x40, 1, 0x0, .ro, 0xFFFFFFFF, 0x0, 0x0⟩,
  ⟨0x70400, 8, 0x20, 1, 0x0, .rwh, 0xF, 0xF, 0x0⟩,
  ⟨0x70404, 8, 0x20, 1, 0x0, .rw, 0xFFFFFF, 0xFFFFFF, 0x0⟩,
  ⟨0x70408, 8, 0x20, 1, 0x0, .w1s, 0xFFFFFFFF, 0x0, 0x0⟩,
  ⟨0x7040C, 8, 0x20, 1, 0x0, .w1s, 0xFFFFFFFF, 0x0, 0x0⟩,
  ⟨0x70410, 8, 0x20, 1, 0x0, .w1s, 0xFFFFFFFF, 0x0, 0x0⟩,
  ⟨0x70414, 8, 0x20, 1, 0x0, .w1s, 0xFFFFFFFF, 0x0, 0x0⟩,
  ⟨0x70418, 8, 0x20, 1, 0x0, .ro, 0x7, 0x0, 0x0⟩,
  ⟨0x7041C, 8, 0x20, 1, 0x0, .ro, 0xFFFFFFFF, 0x0, 0x0⟩,
  ⟨0x71000, 8, 0x400, 64, 0x10, .rw, 0xFFFFFFFF, 0xFFFFFFFF, 0x0⟩,
  ⟨0x71004, 8, 0x400, 64, 0x10, .rw, 0xFFFFFFFF, 0xFFFFFFFF, 0x0⟩,
  ⟨0x71008, 8, 0x400, 64, 0x10, .rw, 0xF3F, 0x3F, 0x0⟩,
  ⟨0x7100C, 8, 0x400, 64, 0x10, .rw, 0xFFFFFFFF, 0xFFFFFFFF, 0x0⟩,
  ⟨0x70600, 2, 0x20, 1, 0x0, .rwh, 0x1F, 0x1F, 0x0⟩,
  ⟨0x70604, 2, 0x20, 1, 0x0, .rwh, 0xFFFFFFFF, 0xFFFFFFFF, 0x0⟩,
  ⟨0x70608, 2, 0x20, 1, 0x0, .rwh, 0xFFFFFFFF, 0xFFFFFFFF, 0x0⟩,
  ⟨0x7060C, 2, 0x20, 1, 0x0, .rwh, 0xFFFFFFFF, 0xFFFFFFFF, 0x0⟩,
  ⟨0x70610, 2, 0x20, 1, 0x0, .ro, 0xFFFFFFFF, 0x0, 0x0⟩,
  ⟨0x70614, 2, 0x20, 1, 0x0, .ro, 0xFFFFFFFF, 0x0, 0x0⟩,
  ⟨0x70618, 2, 0x20, 1, 0x0, .ro, 0xFFFFFFFF, 0x0, 0x0⟩,
  ⟨0x7061C, 2, 0x20, 1, 0x0, .ro, 0x3, 0x0, 0x0⟩]

/-- The rows of block ADC. -/
def rowsADC : List RegRow := [
  ⟨0x80100, 8, 0x20, 1, 0x0, .rwh, 0xFFF3F, 0xFFF3F, 0x0⟩,
  ⟨0x80104, 8, 0x20, 1, 0x0, .rwh, 0xFFFFFFFF, 0xFFFFFFFF, 0x0⟩,
  ⟨0x80108, 8, 0x20, 1, 0x0, .rwh, 0xFFFFFFFF, 0xFFFFFFFF, 0x0⟩,
  ⟨0x8010C, 8, 0x20, 1, 0x0, .ro, 0xFFFFFFFF, 0x0, 0x0⟩,
  ⟨0x80110, 8, 0x20, 1, 0x0, .ro, 0xFFFFFFFF, 0x0, 0x0⟩,
  ⟨0x80114, 8, 0x20, 1, 0x0, .ro, 0xFFFFFFFF, 0x0, 0x0⟩,
  ⟨0x80118, 8, 0x20, 1, 0x0, .ro, 0xFFFFFFFF, 0x0, 0x0⟩,
  ⟨0x8011C, 8, 0x20, 1, 0x0, .w1c, 0x1F, 0x0, 0xF⟩]

/-- The rows of block MEMC. -/
def rowsMEMC : List RegRow := [
  ⟨0x90000, 1, 0x0, 1, 0x0, .ro, 0x1F, 0x0, 0x0⟩,
  ⟨0x90004, 1, 0x0, 1, 0x0, .rwh, 0xFFFFFFFF, 0xFFFFFFFF, 0x0⟩,
  ⟨0x90008, 1, 0x0, 1, 0x0, .rwh, 0xFFFFFFFF, 0xFFFFFFFF, 0x0⟩,
  ⟨0x9000C, 1, 0x0, 1, 0x0, .rwh, 0xFFFFFFFF, 0xFFFFFFFF, 0x0⟩,
  ⟨0x90010, 1, 0x0, 1, 0x0, .rwh, 0xFFFFFFFF, 0xFFFFFFFF, 0x0⟩,
  ⟨0x90014, 1, 0x0, 1, 0x0, .rwh, 0xFFFFFFFF, 0xFFFFFFFF, 0x0⟩,
  ⟨0x90100, 4, 0x40, 1, 0x0, .ro, 0xFFFF, 0x0, 0x0⟩,
  ⟨0x90104, 4, 0x40, 1, 0x0, .ro, 0xFFFFFFFF, 0x0, 0x0⟩,
  ⟨0x90108, 4, 0x40, 1, 0x0, .ro, 0xFFFFFFFF, 0x0, 0x0⟩,
  ⟨0x9010C, 4, 0x40, 1, 0x0, .ro, 0xFFFFFFFF, 0x0, 0x0⟩,
  ⟨0x90110, 4, 0x40, 1, 0x0, .ro, 0xFFFFFFFF, 0x0, 0x0⟩,
  ⟨0x90114, 4, 0x40, 1, 0x0, .ro, 0xFFFFFFFF, 0x0, 0x0⟩,
  ⟨0x90118, 4, 0x40, 1, 0x0, .ro, 0xFFFFFFFF, 0x0, 0x0⟩,
  ⟨0x9011C, 4, 0x40, 1, 0x0, .ro, 0xFFFFFF, 0x0, 0x0⟩,
  ⟨0x90120, 4, 0x40, 1, 0x0, .ro, 0xFFFFFFFF, 0x0, 0x0⟩,
  ⟨0x90124, 4, 0x40, 1, 0x0, .ro, 0xFFFFFFFF, 0x0, 0x0⟩,
  ⟨0x90128, 4, 0x40, 1, 0x0, .ro, 0xFFFFFFFF, 0x0, 0x0⟩]

/-- The rows of block ARB. -/
def rowsARB : List RegRow := [
  ⟨0xA0000, 1, 0x0, 1, 0x0, .w1s, 0x1, 0x0, 0x0⟩,
  ⟨0xA0004, 1, 0x0, 1, 0x0, .ro, 0x3, 0x0, 0x0⟩,
  ⟨0xA0008, 1, 0x0, 1, 0x0, .ro, 0xFFFFFFFF, 0x0, 0x0⟩,
  ⟨0xA000C, 1, 0x0, 1, 0x0, .ro, 0xFFFFFFFF, 0x0, 0x0⟩,
  ⟨0xA0010, 1, 0x0, 1, 0x0, .ro, 0xFFFFFFFF, 0x0, 0x0⟩,
  ⟨0xA0100, 32, 0x4, 1, 0x0, .rw, 0xF, 0x3, 0x0⟩,
  ⟨0xA0200, 32, 0x4, 1, 0x0, .ro, 0xFFFFFFFF, 0x0, 0x0⟩,
  ⟨0xA0280, 32, 0x4, 1, 0x0, .ro, 0xFFFFFFFF, 0x0, 0x0⟩,
  ⟨0xA0400, 16, 0x4, 1, 0x0, .rw, 0xFFFFFFFF, 0xFFFFFFFF, 0x0⟩,
  ⟨0xA0500, 16, 0x4, 1, 0x0, .ro, 0xFFFFFFFF, 0x0, 0x0⟩]

/-- The rows of block PLACE. -/
def rowsPLACE : List RegRow := [
  ⟨0xB0000, 1, 0x0, 1, 0x0, .rwh, 0xFFFFFFFF, 0xFFFFFFFF, 0x0⟩,
  ⟨0xB0004, 1, 0x0, 1, 0x0, .rwh, 0x1F, 0x1F, 0x0⟩,
  ⟨0xB0008, 1, 0x0, 1, 0x0, .rwh, 0xFFFFFFFF, 0xFFFFFFFF, 0x0⟩,
  ⟨0xB000C, 1, 0x0, 1, 0x0, .rwh, 0xF, 0xF, 0x0⟩,
  ⟨0xB0010, 1, 0x0, 1, 0x0, .rwh, 0xFFFFFFFF, 0xFFFFFFFF, 0x0⟩,
  ⟨0xB0020, 1, 0x0, 1, 0x0, .ro, 0xFFFFFF, 0x0, 0x0⟩,
  ⟨0xB0024, 1, 0x0, 1, 0x0, .ro, 0xF, 0x0, 0x0⟩,
  ⟨0xB0028, 1, 0x0, 1, 0x0, .ro, 0xFFFF, 0x0, 0x0⟩,
  ⟨0xB002C, 1, 0x0, 1, 0x0, .ro, 0xFFFFFFFF, 0x0, 0x0⟩,
  ⟨0xB0030, 1, 0x0, 1, 0x0, .ro, 0xFFFF, 0x0, 0x0⟩,
  ⟨0xB0034, 1, 0x0, 1, 0x0, .ro, 0xFFFFFFFF, 0x0, 0x0⟩,
  ⟨0xB0038, 1, 0x0, 1, 0x0, .ro, 0xFFFFFFFF, 0x0, 0x0⟩,
  ⟨0xB003C, 1, 0x0, 1, 0x0, .ro, 0xFFFFFFFF, 0x0, 0x0⟩,
  ⟨0xB0040, 8, 0x4, 1, 0x0, .ro, 0xFFFFFFFF, 0x0, 0x0⟩,
  ⟨0xB0060, 8, 0x4, 1, 0x0, .ro, 0xFFFFFFFF, 0x0, 0x0⟩,
  ⟨0xB0080, 8, 0x4, 1, 0x0, .ro, 0xF7F1F, 0x0, 0x0⟩,
  ⟨0xB00A0, 8, 0x4, 1, 0x0, .ro, 0xFFFFFFFF, 0x0, 0x0⟩]

/-- The rows of block DFL. -/
def rowsDFL : List RegRow := [
  ⟨0xC0000, 1, 0x0, 1, 0x0, .rwh, 0xFFFF, 0xFFFF, 0x0⟩,
  ⟨0xC0004, 1, 0x0, 1, 0x0, .rwh, 0xF, 0xF, 0x0⟩,
  ⟨0xC0010, 1, 0x0, 1, 0x0, .ro, 0xF, 0x0, 0x0⟩,
  ⟨0xC0020, 1, 0x0, 1, 0x0, .ro, 0xFFFFFFFF, 0x0, 0x0⟩,
  ⟨0xC0024, 1, 0x0, 1, 0x0, .ro, 0xFFFFFFFF, 0x0, 0x0⟩,
  ⟨0xC0028, 1, 0x0, 1, 0x0, .ro, 0xFFFFFFFF, 0x0, 0x0⟩,
  ⟨0xC002C, 1, 0x0, 1, 0x0, .ro, 0xFFFFFFFF, 0x0, 0x0⟩,
  ⟨0xC0030, 1, 0x0, 1, 0x0, .ro, 0xFFFFFFFF, 0x0, 0x0⟩,
  ⟨0xC0034, 1, 0x0, 1, 0x0, .ro, 0xFFFFFFFF, 0x0, 0x0⟩,
  ⟨0xC0038, 1, 0x0, 1, 0x0, .ro, 0xFFFFFFFF, 0x0, 0x0⟩,
  ⟨0xC003C, 1, 0x0, 1, 0x0, .ro, 0xFFFFFFFF, 0x0, 0x0⟩,
  ⟨0xC0040, 1, 0x0, 1, 0x0, .ro, 0xFFFFFFFF, 0x0, 0x0⟩,
  ⟨0xC0044, 1, 0x0, 1, 0x0, .ro, 0xFFFFFFFF, 0x0, 0x0⟩,
  ⟨0xC0048, 1, 0x0, 1, 0x0, .ro, 0x1FFFF, 0x0, 0x0⟩,
  ⟨0xC004C, 1, 0x0, 1, 0x0, .ro, 0xFFFFFFFF, 0x0, 0x0⟩,
  ⟨0xC0050, 1, 0x0, 1, 0x0, .ro, 0xFFFFFFFF, 0x0, 0x0⟩,
  ⟨0xC0100, 24, 0x4, 1, 0x0, .ro, 0x3F, 0x0, 0x0⟩,
  ⟨0xC0180, 4, 0x4, 1, 0x0, .ro, 0x7, 0x0, 0x0⟩]

/-- The rows of block RE. -/
def rowsRE : List RegRow := [
  ⟨0x100000, 9, 0x10000, 1, 0x0, .ro, 0x3F, 0x0, 0x0⟩,
  ⟨0x100004, 8, 0x10000, 1, 0x0, .rwh, 0x3, 0x3, 0x0⟩,
  ⟨0x100008, 8, 0x10000, 1, 0x0, .rwh, 0x1FFFF, 0x1FFFF, 0x0⟩,
  ⟨0x10000C, 8, 0x10000, 1, 0x0, .rwh, 0xFFFFFFFF, 0xFFFFFFFF, 0x0⟩,
  ⟨0x100010, 8, 0x10000, 1, 0x0, .ro, 0xFFFFFF03, 0x0, 0x0⟩,
  ⟨0x100014, 8, 0x10000, 1, 0x0, .ro, 0xFFFFFFFF, 0x0, 0x0⟩,
  ⟨0x100018, 8, 0x10000, 1, 0x0, .ro, 0xFFFFFFFF, 0x0, 0x0⟩,
  ⟨0x10001C, 9, 0x10000, 1, 0x0, .ro, 0x3, 0x0, 0x0⟩,
  ⟨0x100100, 8, 0x10000, 24, 0x8, .ro, 0xFFFFFFFF, 0x0, 0x0⟩,
  ⟨0x100104, 8, 0x10000, 24, 0x8, .ro, 0xFFFFFFFF, 0x0, 0x0⟩]

/-- The rows of block FIRE. -/
def rowsFIRE : List RegRow := [
  ⟨0x190000, 1, 0x0, 1, 0x0, .rwh, 0x7, 0x7, 0x0⟩,
  ⟨0x190004, 1, 0x0, 1, 0x0, .rwh, 0xFF, 0xFF, 0x0⟩,
  ⟨0x190008, 1, 0x0, 1, 0x0, .rwh, 0xFFFFFFFF, 0xFFFFFFFF, 0x0⟩,
  ⟨0x19000C, 1, 0x0, 1, 0x0, .ro, 0xF, 0x0, 0x0⟩,
  ⟨0x190010, 1, 0x0, 1, 0x0, .ro, 0xFFFFFFFF, 0x0, 0x0⟩,
  ⟨0x190014, 1, 0x0, 1, 0x0, .ro, 0xFFFFFFFF, 0x0, 0x0⟩,
  ⟨0x190018, 1, 0x0, 1, 0x0, .ro, 0xFFFFFFFF, 0x0, 0x0⟩,
  ⟨0x19001C, 1, 0x0, 1, 0x0, .ro, 0xFFFFFFFF, 0x0, 0x0⟩,
  ⟨0x190100, 8, 0x40, 1, 0x0, .rwh, 0xFFFFFFFF, 0xFFFFFFFF, 0x0⟩,
  ⟨0x190104, 8, 0x40, 1, 0x0, .ro, 0xFFFFFFFF, 0x0, 0x0⟩,
  ⟨0x190108, 8, 0x40, 1, 0x0, .ro, 0xFFFFFFFF, 0x0, 0x0⟩,
  ⟨0x19010C, 8, 0x40, 1, 0x0, .ro, 0xFFFFFFFF, 0x0, 0x0⟩,
  ⟨0x190110, 8, 0x40, 1, 0x0, .ro, 0xFFFFFFFF, 0x0, 0x0⟩,
  ⟨0x190114, 8, 0x40, 1, 0x0, .ro, 0xF, 0x0, 0x0⟩,
  ⟨0x190118, 8, 0x40, 1, 0x0, .ro, 0xFFFFFFFF, 0x0, 0x0⟩,
  ⟨0x19011C, 8, 0x40, 1, 0x0, .ro, 0xFFFFFFFF, 0x0, 0x0⟩,
  ⟨0x190120, 8, 0x40, 1, 0x0, .ro, 0xFFFFFFFF, 0x0, 0x0⟩,
  ⟨0x190124, 8, 0x40, 1, 0x0, .ro, 0xFFFFFFFF, 0x0, 0x0⟩,
  ⟨0x190128, 8, 0x40, 1, 0x0, .ro, 0xFFFFFFFF, 0x0, 0x0⟩,
  ⟨0x19012C, 8, 0x40, 1, 0x0, .ro, 0xFFFFFFFF, 0x0, 0x0⟩,
  ⟨0x190130, 8, 0x40, 1, 0x0, .ro, 0xFFFFFF, 0x0, 0x0⟩,
  ⟨0x190134, 8, 0x40, 1, 0x0, .ro, 0xFFFFFF, 0x0, 0x0⟩,
  ⟨0x190138, 8, 0x40, 1, 0x0, .w1s, 0xFFFFFF, 0x0, 0x0⟩,
  ⟨0x191000, 192, 0x4, 1, 0x0, .ro, 0xFFFFFFF, 0x0, 0x0⟩]

/-- The rows of block LACE. -/
def rowsLACE : List RegRow := [
  ⟨0x1A0000, 8, 0x10000, 1, 0x0, .rwh, 0xFF03, 0xFF03, 0x0⟩,
  ⟨0x1A0004, 8, 0x10000, 1, 0x0, .w1s, 0x3, 0x0, 0x0⟩,
  ⟨0x1A0008, 8, 0x10000, 1, 0x0, .rw, 0x1F, 0x1F, 0x0⟩,
  ⟨0x1A000C, 8, 0x10000, 1, 0x0, .rw, 0x1F, 0x1F, 0x0⟩,
  ⟨0x1A0010, 8, 0x10000, 1, 0x0, .ro, 0x7FFFF, 0x0, 0x0⟩,
  ⟨0x1A0014, 8, 0x10000, 1, 0x0, .ro, 0xFFFFFFFF, 0x0, 0x0⟩,
  ⟨0x1A0018, 8, 0x10000, 1, 0x0, .ro, 0xFFFFFFFF, 0x0, 0x0⟩,
  ⟨0x1A001C, 8, 0x10000, 1, 0x0, .ro, 0xFFFFFFFF, 0x0, 0x0⟩,
  ⟨0x1A0020, 8, 0x10000, 1, 0x0, .ro, 0xFFFFFFFF, 0x0, 0x0⟩,
  ⟨0x1A0024, 8, 0x10000, 1, 0x0, .ro, 0xFFFFFFFF, 0x0, 0x0⟩,
  ⟨0x1A0028, 8, 0x10000, 1, 0x0, .ro, 0xFFFFFFFF, 0x0, 0x0⟩,
  ⟨0x1A002C, 8, 0x10000, 1, 0x0, .ro, 0xFFFFFFFF, 0x0, 0x0⟩,
  ⟨0x1A0030, 8, 0x10000, 1, 0x0, .ro, 0xFFFFFFFF, 0x0, 0x0⟩,
  ⟨0x1A0034, 8, 0x10000, 1, 0x0, .ro, 0xFFFFFFFF, 0x0, 0x0⟩,
  ⟨0x1A0038, 8, 0x10000, 1, 0x0, .ro, 0xFFFFFFFF, 0x0, 0x0⟩,
  ⟨0x1A003C, 8, 0x10000, 1, 0x0, .ro, 0xFFFFFFFF, 0x0, 0x0⟩,
  ⟨0x1A0040, 8, 0x10000, 1, 0x0, .ro, 0xFFFFFFFF, 0x0, 0x0⟩,
  ⟨0x1A0044, 8, 0x10000, 1, 0x0, .ro, 0xFFFFFFFF, 0x0, 0x0⟩,
  ⟨0x1A0048, 8, 0x10000, 1, 0x0, .ro, 0xFFFFFFFF, 0x0, 0x0⟩,
  ⟨0x1A004C, 8, 0x10000, 1, 0x0, .ro, 0xFFFFFFFF, 0x0, 0x0⟩,
  ⟨0x1A0050, 8, 0x10000, 1, 0x0, .ro, 0xFFFFFFFF, 0x0, 0x0⟩,
  ⟨0x1A0054, 8, 0x10000, 1, 0x0, .ro, 0xFFFFFFFF, 0x0, 0x0⟩,
  ⟨0x1A0058, 8, 0x10000, 1, 0x0, .ro, 0x1F, 0x0, 0x0⟩,
  ⟨0x1A005C, 8, 0x10000, 1, 0x0, .ro, 0xFFFFFFFF, 0x0, 0x0⟩,
  ⟨0x1A0060, 8, 0x10000, 4, 0x4, .ro, 0xFFFFFFFF, 0x0, 0x0⟩,
  ⟨0x1A0100, 8, 0x10000, 24, 0x4, .ro, 0xFFFFFFFF, 0x0, 0x0⟩,
  ⟨0x1A0200, 8, 0x10000, 1, 0x0, .ro, 0x3FFFFF, 0x0, 0x0⟩,
  ⟨0x1A0400, 8, 0x10000, 256, 0x4, .ro, 0xFFFFFFFF, 0x0, 0x0⟩,
  ⟨0x1A2000, 8, 0x10000, 2048, 0x4, .ro, 0xFFFFFFFF, 0x0, 0x0⟩]

/-- The rows of block LANE. -/
def rowsLANE : List RegRow := [
  ⟨0x220000, 1, 0x0, 1, 0x0, .ro, 0xFFFFFFFF, 0x0, 0x0⟩,
  ⟨0x220004, 1, 0x0, 1, 0x0, .ro, 0xF, 0x0, 0x0⟩,
  ⟨0x220008, 1, 0x0, 1, 0x0, .ro, 0xFFFF, 0x0, 0x0⟩,
  ⟨0x22000C, 1, 0x0, 1, 0x0, .ro, 0xFFFFFFFF, 0x0, 0x0⟩,
  ⟨0x220010, 1, 0x0, 1, 0x0, .rw, 0x3FF, 0x3FF, 0x0⟩,
  ⟨0x220014, 1, 0x0, 1, 0x0, .w1s, 0x1, 0x0, 0x0⟩,
  ⟨0x220018, 1, 0x0, 1, 0x0, .ro, 0x3F03, 0x0, 0x0⟩,
  ⟨0x220100, 36, 0x40, 1, 0x0, .rwh, 0x7, 0x7, 0x0⟩,
  ⟨0x220104, 36, 0x40, 1, 0x0, .rw, 0x3F, 0x3F, 0x0⟩,
  ⟨0x220108, 36, 0x40, 1, 0x0, .w1s, 0x7, 0x0, 0x0⟩,
  ⟨0x22010C, 36, 0x40, 1, 0x0, .rw, 0x3, 0x3, 0x0⟩,
  ⟨0x220110, 36, 0x40, 1, 0x0, .ro, 0xFFFF, 0x0, 0x0⟩,
  ⟨0x220114, 36, 0x40, 1, 0x0, .ro, 0xFFFF, 0x0, 0x0⟩,
  ⟨0x220118, 36, 0x40, 1, 0x0, .ro, 0xFFFF, 0x0, 0x0⟩,
  ⟨0x22011C, 36, 0x40, 1, 0x0, .ro, 0xFF, 0x0, 0x0⟩,
  ⟨0x220120, 36, 0x40, 1, 0x0, .ro, 0x3FFFF, 0x0, 0x0⟩,
  ⟨0x220124, 36, 0x40, 1, 0x0, .ro, 0x1FF7F, 0x0, 0x0⟩,
  ⟨0x220128, 36, 0x40, 1, 0x0, .ro, 0xFFFFFFFF, 0x0, 0x0⟩,
  ⟨0x22012C, 36, 0x40, 1, 0x0, .ro, 0xFFFFFFFF, 0x0, 0x0⟩,
  ⟨0x220130, 36, 0x40, 1, 0x0, .ro, 0xFFFFFFFF, 0x0, 0x0⟩]

/-- The rows of block CXP. -/
def rowsCXP : List RegRow := [
  ⟨0x230000, 1, 0x0, 1, 0x0, .ro, 0x3F, 0x0, 0x0⟩,
  ⟨0x230004, 1, 0x0, 1, 0x0, .rw, 0x1, 0x1, 0x0⟩,
  ⟨0x230008, 1, 0x0, 1, 0x0, .rw, 0xFFFFFFFF, 0xFFFFFFFF, 0x0⟩,
  ⟨0x23000C, 1, 0x0, 1, 0x0, .rw, 0xFFFFFFFF, 0xFFFFFFFF, 0x0⟩,
  ⟨0x230010, 1, 0x0, 1, 0x0, .w1s, 0x3, 0x0, 0x0⟩,
  ⟨0x230014, 1, 0x0, 1, 0x0, .ro, 0x1FFFFFF, 0x0, 0x0⟩,
  ⟨0x230018, 1, 0x0, 1, 0x0, .ro, 0xFFFFFFFF, 0x0, 0x0⟩,
  ⟨0x230100, 2, 0x80, 1, 0x0, .rwh, 0x3F, 0x3F, 0x0⟩,
  ⟨0x230104, 2, 0x80, 1, 0x0, .rwh, 0x1F, 0x1F, 0x0⟩,
  ⟨0x230108, 2, 0x80, 1, 0x0, .rwh, 0xFFFFFFFF, 0xFFFFFFFF, 0x0⟩,
  ⟨0x23010C, 2, 0x80, 1, 0x0, .rwh, 0xFFFFFFFF, 0xFFFFFFFF, 0x0⟩,
  ⟨0x230110, 2, 0x80, 1, 0x0, .rwh, 0xFFFFFFFF, 0xFFFFFFFF, 0x0⟩,
  ⟨0x230114, 2, 0x80, 1, 0x0, .rwh, 0xFFFFFFFF, 0xFFFFFFFF, 0x0⟩,
  ⟨0x230118, 2, 0x80, 1, 0x0, .rwh, 0xFFFFFFFF, 0xFFFFFFFF, 0x0⟩,
  ⟨0x23011C, 2, 0x80, 1, 0x0, .rwh, 0xFFFFFFFF, 0xFFFFFFFF, 0x0⟩,
  ⟨0x230120, 2, 0x80, 1, 0x0, .rwh, 0xFFFFFFFF, 0xFFFFFFFF, 0x0⟩,
  ⟨0x230124, 2, 0x80, 1, 0x0, .rwh, 0xFFFFFFFF, 0xFFFFFFFF, 0x0⟩,
  ⟨0x230128, 2, 0x80, 1, 0x0, .ro, 0xFFFFFFFF, 0x0, 0x0⟩,
  ⟨0x23012C, 2, 0x80, 1, 0x0, .ro, 0xFFFFFFFF, 0x0, 0x0⟩,
  ⟨0x230130, 2, 0x80, 1, 0x0, .ro, 0xFFFFFFFF, 0x0, 0x0⟩,
  ⟨0x230134, 2, 0x80, 1, 0x0, .ro, 0xFFFFFFFF, 0x0, 0x0⟩,
  ⟨0x230140, 2, 0x80, 4, 0x4, .ro, 0xFFFFFFFF, 0x0, 0x0⟩]

/-- The rows of block VPIPE. -/
def rowsVPIPE : List RegRow := [
  ⟨0x240000, 1, 0x0, 1, 0x0, .rwh, 0xFFFFFFFF, 0xFFFFFFFF, 0x0⟩,
  ⟨0x240004, 1, 0x0, 1, 0x0, .rwh, 0xFFFFFFFF, 0xFFFFFFFF, 0x0⟩,
  ⟨0x240008, 1, 0x0, 1, 0x0, .rwh, 0xFFFFF, 0xFFFFF, 0x0⟩,
  ⟨0x24000C, 1, 0x0, 1, 0x0, .rwh, 0x1F, 0x1F, 0x0⟩,
  ⟨0x240010, 1, 0x0, 1, 0x0, .rwh, 0x3FFF, 0x3FFF, 0x0⟩,
  ⟨0x240014, 1, 0x0, 1, 0x0, .ro, 0xFFFFFFFF, 0x0, 0x0⟩,
  ⟨0x240100, 2, 0x40, 1, 0x0, .rw, 0xF, 0x1, 0x0⟩,
  ⟨0x240104, 2, 0x40, 1, 0x0, .ro, 0x1FFF007F, 0x0, 0x0⟩,
  ⟨0x240108, 2, 0x40, 1, 0x0, .ro, 0xFFFFFFFF, 0x0, 0x0⟩,
  ⟨0x24010C, 2, 0x40, 1, 0x0, .ro, 0xFFFFFFFF, 0x0, 0x0⟩,
  ⟨0x240110, 2, 0x40, 1, 0x0, .ro, 0xFFFFFFFF, 0x0, 0x0⟩,
  ⟨0x240114, 2, 0x40, 1, 0x0, .ro, 0xFFFFFFFF, 0x0, 0x0⟩,
  ⟨0x240118, 2, 0x40, 1, 0x0, .ro, 0xFFFFFFFF, 0x0, 0x0⟩,
  ⟨0x24011C, 2, 0x40, 1, 0x0, .ro, 0xFFFFFFFF, 0x0, 0x0⟩,
  ⟨0x240120, 2, 0x40, 1, 0x0, .ro, 0xFFFFFFFF, 0x0, 0x0⟩,
  ⟨0x240124, 2, 0x40, 1, 0x0, .ro, 0xFFFFFFFF, 0x0, 0x0⟩,
  ⟨0x240128, 2, 0x40, 1, 0x0, .ro, 0xFFFFFFFF, 0x0, 0x0⟩]

/-- The rows of block LOOP. -/
def rowsLOOP : List RegRow := [
  ⟨0x250000, 1, 0x0, 1, 0x0, .rwh, 0xFFFFFFFF, 0xFFFFFFFF, 0x0⟩,
  ⟨0x250004, 1, 0x0, 1, 0x0, .rwh, 0xFFFF, 0xFFFF, 0x0⟩,
  ⟨0x250008, 1, 0x0, 1, 0x0, .rwh, 0xFFFF, 0xFFFF, 0x0⟩,
  ⟨0x25000C, 1, 0x0, 1, 0x0, .rwh, 0xFFF07FF, 0xFFF07FF, 0x0⟩,
  ⟨0x250010, 1, 0x0, 1, 0x0, .rwh, 0x7FFFFF, 0x7FFFFF, 0x0⟩,
  ⟨0x250014, 1, 0x0, 1, 0x0, .rwh, 0xFFF, 0xFFF, 0x0⟩,
  ⟨0x250018, 1, 0x0, 1, 0x0, .rwh, 0xFFFFFFFF, 0xFFFFFFFF, 0x0⟩,
  ⟨0x25001C, 1, 0x0, 1, 0x0, .rwh, 0xFFFFFF07, 0xFFFFFF07, 0x0⟩,
  ⟨0x250020, 1, 0x0, 1, 0x0, .rwh, 0x1FFF00FF, 0x1FFF00FF, 0x0⟩,
  ⟨0x250024, 1, 0x0, 1, 0x0, .rwh, 0xF1, 0xF1, 0x0⟩,
  ⟨0x250028, 1, 0x0, 1, 0x0, .rwh, 0xFFFFFFFF, 0xFFFFFFFF, 0x0⟩,
  ⟨0x250040, 1, 0x0, 1, 0x0, .ro, 0xFFFFFFFF, 0x0, 0x0⟩,
  ⟨0x250044, 1, 0x0, 1, 0x0, .ro, 0x7, 0x0, 0x0⟩,
  ⟨0x250048, 1, 0x0, 1, 0x0, .ro, 0xFFFFFFFF, 0x0, 0x0⟩,
  ⟨0x25004C, 1, 0x0, 1, 0x0, .ro, 0xFFFFFFFF, 0x0, 0x0⟩,
  ⟨0x250060, 1, 0x0, 1, 0x0, .ro, 0x1FFFFFF, 0x0, 0x0⟩,
  ⟨0x250100, 8, 0x20, 1, 0x0, .ro, 0xFF, 0x0, 0x0⟩,
  ⟨0x250104, 8, 0x20, 1, 0x0, .ro, 0xFFFFFFFF, 0x0, 0x0⟩,
  ⟨0x250108, 8, 0x20, 1, 0x0, .ro, 0xFFFFFFFF, 0x0, 0x0⟩,
  ⟨0x25010C, 8, 0x20, 1, 0x0, .ro, 0xFFFFFFFF, 0x0, 0x0⟩,
  ⟨0x250110, 8, 0x20, 1, 0x0, .ro, 0xFFFFFF, 0x0, 0x0⟩,
  ⟨0x250114, 8, 0x20, 1, 0x0, .ro, 0xFFFFFFFF, 0x0, 0x0⟩,
  ⟨0x250118, 8, 0x20, 1, 0x0, .ro, 0xFFFFFFFF, 0x0, 0x0⟩,
  ⟨0x250400, 256, 0x4, 1, 0x0, .ro, 0xFFFFFFFF, 0x0, 0x0⟩,
  ⟨0x251000, 192, 0x10, 4, 0x4, .ro, 0xFFFFFFFF, 0x0, 0x0⟩]

/-- The rows of block PAIR. -/
def rowsPAIR : List RegRow := [
  ⟨0x260000, 1, 0x0, 1, 0x0, .rwh, 0xF, 0xF, 0x0⟩,
  ⟨0x260004, 1, 0x0, 1, 0x0, .rwh, 0xFFFFFFFF, 0xFFFFFFFF, 0x0⟩,
  ⟨0x260008, 1, 0x0, 1, 0x0, .rwh, 0xFFFFFFFF, 0xFFFFFFFF, 0x0⟩,
  ⟨0x26000C, 1, 0x0, 1, 0x0, .rwh, 0xFFFFFFFF, 0xFFFFFFFF, 0x0⟩,
  ⟨0x260010, 1, 0x0, 1, 0x0, .rwh, 0xFFFFFFFF, 0xFFFFFFFF, 0x0⟩,
  ⟨0x260020, 1, 0x0, 1, 0x0, .ro, 0x1FFF, 0x0, 0x0⟩,
  ⟨0x260024, 1, 0x0, 1, 0x0, .ro, 0xFFFFFFFF, 0x0, 0x0⟩,
  ⟨0x260028, 1, 0x0, 1, 0x0, .ro, 0xFFFFFFFF, 0x0, 0x0⟩,
  ⟨0x26002C, 1, 0x0, 1, 0x0, .ro, 0xFFFF, 0x0, 0x0⟩,
  ⟨0x260030, 1, 0x0, 1, 0x0, .ro, 0xFFFFFFFF, 0x0, 0x0⟩,
  ⟨0x260034, 1, 0x0, 1, 0x0, .ro, 0xFFFFFFFF, 0x0, 0x0⟩,
  ⟨0x260038, 1, 0x0, 1, 0x0, .ro, 0xFFFFFFFF, 0x0, 0x0⟩,
  ⟨0x26003C, 1, 0x0, 1, 0x0, .ro, 0xFFFFFFFF, 0x0, 0x0⟩,
  ⟨0x260040, 1, 0x0, 1, 0x0, .ro, 0xFFFFFFFF, 0x0, 0x0⟩,
  ⟨0x260044, 1, 0x0, 1, 0x0, .ro, 0xFFFFFFFF, 0x0, 0x0⟩,
  ⟨0x260048, 1, 0x0, 1, 0x0, .ro, 0xFFFFFFFF, 0x0, 0x0⟩,
  ⟨0x26004C, 1, 0x0, 1, 0x0, .ro, 0xFFFFFFFF, 0x0, 0x0⟩,
  ⟨0x260050, 1, 0x0, 1, 0x0, .ro, 0xFFFFFFFF, 0x0, 0x0⟩,
  ⟨0x260054, 1, 0x0, 1, 0x0, .ro, 0xFFFFFFFF, 0x0, 0x0⟩,
  ⟨0x260058, 1, 0x0, 1, 0x0, .ro, 0xFFFFFFFF, 0x0, 0x0⟩,
  ⟨0x26005C, 1, 0x0, 1, 0x0, .ro, 0xFFFFFFFF, 0x0, 0x0⟩,
  ⟨0x260060, 1, 0x0, 1, 0x0, .ro, 0xFFF, 0x0, 0x0⟩,
  ⟨0x260080, 8, 0x8, 1, 0x0, .ro, 0xFFFFFFFF, 0x0, 0x0⟩,
  ⟨0x260084, 8, 0x8, 1, 0x0, .ro, 0xFFFFFFFF, 0x0, 0x0⟩]

/-- The rows of block SAFE. -/
def rowsSAFE : List RegRow := [
  ⟨0x270000, 1, 0x0, 1, 0x0, .sro, 0x1FF, 0x0, 0x0⟩,
  ⟨0x270004, 1, 0x0, 1, 0x0, .sro, 0x1F, 0x0, 0x0⟩,
  ⟨0x270008, 1, 0x0, 1, 0x0, .sro, 0x3FF, 0x0, 0x0⟩,
  ⟨0x27000C, 1, 0x0, 1, 0x0, .sro, 0xFFFFFFFF, 0x0, 0x0⟩,
  ⟨0x270010, 1, 0x0, 1, 0x0, .sro, 0xFFFFFFFF, 0x0, 0x0⟩,
  ⟨0x270014, 1, 0x0, 1, 0x0, .sro, 0xFFFFFFFF, 0x0, 0x0⟩,
  ⟨0x270018, 1, 0x0, 1, 0x0, .sro, 0x1FFFF, 0x0, 0x0⟩,
  ⟨0x27001C, 1, 0x0, 1, 0x0, .sro, 0xFFFF, 0x0, 0x0⟩,
  ⟨0x270020, 1, 0x0, 1, 0x0, .sro, 0xFFFFFFFF, 0x0, 0x0⟩,
  ⟨0x270024, 1, 0x0, 1, 0x0, .sro, 0xFFFFFFFF, 0x0, 0x0⟩,
  ⟨0x270028, 1, 0x0, 1, 0x0, .sro, 0xFFFFFFFF, 0x0, 0x0⟩,
  ⟨0x27002C, 1, 0x0, 1, 0x0, .sro, 0xFFFFFFFF, 0x0, 0x0⟩,
  ⟨0x270030, 1, 0x0, 1, 0x0, .sro, 0xFFFFFFFF, 0x0, 0x0⟩,
  ⟨0x270034, 1, 0x0, 1, 0x0, .sro, 0x3FFFF, 0x0, 0x0⟩,
  ⟨0x270038, 1, 0x0, 1, 0x0, .sro, 0xFFFFFFFF, 0x0, 0x0⟩,
  ⟨0x27003C, 1, 0x0, 1, 0x0, .sro, 0xFFFFFFFF, 0x0, 0x0⟩,
  ⟨0x270040, 1, 0x0, 1, 0x0, .sro, 0xFFFFFFFF, 0x0, 0x0⟩,
  ⟨0x270050, 1, 0x0, 1, 0x0, .sro, 0xFFFFFFFF, 0x0, 0x0⟩,
  ⟨0x270054, 1, 0x0, 1, 0x0, .sro, 0xFFFF, 0x0, 0x0⟩,
  ⟨0x270058, 1, 0x0, 1, 0x0, .sro, 0xFFFFFFFF, 0x0, 0x0⟩,
  ⟨0x27005C, 1, 0x0, 1, 0x0, .sro, 0xFFFFFFFF, 0x0, 0x0⟩,
  ⟨0x270060, 1, 0x0, 1, 0x0, .sro, 0xFFFFFFFF, 0x0, 0x0⟩,
  ⟨0x270064, 1, 0x0, 1, 0x0, .sro, 0xFFFFFFFF, 0x0, 0x0⟩,
  ⟨0x270068, 1, 0x0, 1, 0x0, .sro, 0xFFFFFFFF, 0x0, 0x0⟩]

/-- The rows of block HLTH. -/
def rowsHLTH : List RegRow := [
  ⟨0x280000, 1, 0x0, 1, 0x0, .rwh, 0xFF7F003F, 0xFF7F003F, 0x0⟩,
  ⟨0x280004, 1, 0x0, 1, 0x0, .ro, 0x7FF, 0x0, 0x0⟩,
  ⟨0x280008, 1, 0x0, 1, 0x0, .ro, 0xFFFFFFFF, 0x0, 0x0⟩,
  ⟨0x28000C, 1, 0x0, 1, 0x0, .ro, 0xFFFFFFFF, 0x0, 0x0⟩,
  ⟨0x280010, 1, 0x0, 1, 0x0, .ro, 0xFFFFFFFF, 0x0, 0x0⟩,
  ⟨0x280014, 3, 0x4, 1, 0x0, .ro, 0xFFFF, 0x0, 0x0⟩,
  ⟨0x280020, 1, 0x0, 1, 0x0, .ro, 0xFFFFFFFF, 0x0, 0x0⟩,
  ⟨0x280024, 1, 0x0, 1, 0x0, .rw, 0xFFFF003F, 0xFFFF003F, 0x0⟩,
  ⟨0x280028, 1, 0x0, 1, 0x0, .ro, 0x7FFFFFF, 0x0, 0x0⟩,
  ⟨0x28002C, 1, 0x0, 1, 0x0, .ro, 0xFFFFFFFF, 0x0, 0x0⟩,
  ⟨0x280040, 16, 0x4, 1, 0x0, .ro, 0xFFFFFFFF, 0x0, 0x0⟩,
  ⟨0x280080, 5, 0x4, 1, 0x0, .ro, 0x1FFFFFF, 0x0, 0x0⟩,
  ⟨0x2800A0, 4, 0x4, 1, 0x0, .ro, 0x1FFFF, 0x0, 0x0⟩,
  ⟨0x280200, 42, 0x8, 1, 0x0, .ro, 0xFFFFFFFF, 0x0, 0x0⟩,
  ⟨0x280204, 42, 0x8, 1, 0x0, .ro, 0xFFFFFFFF, 0x0, 0x0⟩]

/-- The rows of block NVM. -/
def rowsNVM : List RegRow := [
  ⟨0x290000, 1, 0x0, 1, 0x0, .ro, 0x7, 0x0, 0x0⟩,
  ⟨0x290004, 1, 0x0, 1, 0x0, .ro, 0x3D, 0x0, 0x0⟩,
  ⟨0x290008, 1, 0x0, 1, 0x0, .ro, 0xFFFFFFFF, 0x0, 0x0⟩,
  ⟨0x29000C, 1, 0x0, 1, 0x0, .ro, 0xFFFFFFFF, 0x0, 0x0⟩,
  ⟨0x290010, 1, 0x0, 1, 0x0, .ro, 0xFFFFFFFF, 0x0, 0x0⟩,
  ⟨0x290018, 1, 0x0, 1, 0x0, .ro, 0xFFFFFFFF, 0x0, 0x0⟩,
  ⟨0x29001C, 1, 0x0, 1, 0x0, .ro, 0xFFFFFFFF, 0x0, 0x0⟩,
  ⟨0x290020, 1, 0x0, 1, 0x0, .ro, 0xFFFFFFFF, 0x0, 0x0⟩,
  ⟨0x290024, 1, 0x0, 1, 0x0, .ro, 0xFFFFFFFF, 0x0, 0x0⟩,
  ⟨0x290028, 1, 0x0, 1, 0x0, .ro, 0xFFFFFFFF, 0x0, 0x0⟩,
  ⟨0x29002C, 1, 0x0, 1, 0x0, .ro, 0xFFFFFFFF, 0x0, 0x0⟩]

/-- The rows of the block of number `b` (R506); an unassigned block has none (R90). -/
def rowsOfBlock (b : Nat) : List RegRow :=
  if b = 0x0 then rowsSYS else
  if b = 0x1 then rowsHOSTQ else
  if b = 0x2 then rowsCLK else
  if b = 0x3 then rowsPWR else
  if b = 0x4 then rowsHEEL else
  if b = 0x5 then rowsTIME else
  if b = 0x6 then rowsNET else
  if b = 0x7 then rowsPOS else
  if b = 0x8 then rowsADC else
  if b = 0x9 then rowsMEMC else
  if b = 0xA then rowsARB else
  if b = 0xB then rowsPLACE else
  if b = 0xC then rowsDFL else
  if 0x10 ≤ b ∧ b ≤ 0x18 then rowsRE else
  if b = 0x19 then rowsFIRE else
  if 0x1A ≤ b ∧ b ≤ 0x21 then rowsLACE else
  if b = 0x22 then rowsLANE else
  if b = 0x23 then rowsCXP else
  if b = 0x24 then rowsVPIPE else
  if b = 0x25 then rowsLOOP else
  if b = 0x26 then rowsPAIR else
  if b = 0x27 then rowsSAFE else
  if b = 0x28 then rowsHLTH else
  if b = 0x29 then rowsNVM else
  []

/-- The row covers the address. -/
def rowCovers (r : RegRow) (a : Nat) : Bool :=
  decide (r.base ≤ a) &&
    (let o := a - r.base
     if r.n2 = 1 then
       if r.n1 = 1 then o == 0 else o % r.s1 == 0 && decide (o / r.s1 < r.n1)
     else
       decide (o / r.s1 < r.n1) && o % r.s1 % r.s2 == 0 && decide (o % r.s1 / r.s2 < r.n2))

/-- The row of a BAR0 address; none where the offset is reserved or the block unassigned (R90, R509). -/
def rowAt (a : Nat) : Option RegRow := (rowsOfBlock (a / 0x10000)).find? (fun r => rowCovers r a)

/-- The address is that of an RWH register (R8). -/
def isRwh (a : Nat) : Bool :=
  match rowAt a with
  | some r => r.acc == .rwh
  | none => false

/-- Part 0 of `resetRegs`. -/
def resetRegs0 : List (Nat × Word) := [
  (0x0, 0x8200A5E), (0xC, 0x20), (0x10, 0x1), (0x40, 0x3FF7FF0F), (0x44, 0x3FFF), (0x11010, 0x44),
  (0x11018, 0x1), (0x11024, 0x10000), (0x11050, 0x44), (0x11058, 0x1), (0x11064, 0x10000), (0x11090, 0x44),
  (0x11098, 0x1), (0x110A4, 0x10000), (0x110D0, 0x44), (0x110D8, 0x1), (0x110E4, 0x10000), (0x11110, 0x44),
  (0x11118, 0x1), (0x11124, 0x10000), (0x11150, 0x44), (0x11158, 0x1), (0x11164, 0x10000), (0x11190, 0x44),
  (0x11198, 0x1), (0x111A4, 0x10000), (0x111D0, 0x44), (0x111D8, 0x1), (0x111E4, 0x10000), (0x11210, 0x44),
  (0x11218, 0x1), (0x11224, 0x10000), (0x11250, 0x44), (0x11258, 0x1), (0x11264, 0x10000), (0x11290, 0x44),
  (0x11298, 0x1), (0x112A4, 0x10000), (0x112D0, 0x44), (0x112D8, 0x1), (0x112E4, 0x10000), (0x11310, 0x44),
  (0x11318, 0x1), (0x11324, 0x10000), (0x11350, 0x44), (0x11358, 0x1), (0x11364, 0x10000), (0x11390, 0x44),
  (0x11398, 0x1), (0x113A4, 0x10000), (0x113D0, 0x44), (0x113D8, 0x1), (0x113E4, 0x10000), (0x1800C, 0x1),
  (0x1801C, 0x1), (0x1802C, 0x1), (0x1803C, 0x1), (0x1804C, 0x1), (0x1805C, 0x1), (0x1806C, 0x1)]

/-- Part 1 of `resetRegs`. -/
def resetRegs1 : List (Nat × Word) := [
  (0x1807C, 0x1), (0x1808C, 0x1), (0x1809C, 0x1), (0x180AC, 0x1), (0x180BC, 0x1), (0x180CC, 0x1),
  (0x180DC, 0x1), (0x180EC, 0x1), (0x180FC, 0x1), (0x1810C, 0x1), (0x1811C, 0x1), (0x1812C, 0x1),
  (0x1813C, 0x1), (0x1814C, 0x1), (0x1815C, 0x1), (0x1816C, 0x1), (0x1817C, 0x1), (0x1818C, 0x1),
  (0x1819C, 0x1), (0x181AC, 0x1), (0x181BC, 0x1), (0x181CC, 0x1), (0x181DC, 0x1), (0x181EC, 0x1),
  (0x181FC, 0x1), (0x1820C, 0x1), (0x1821C, 0x1), (0x1822C, 0x1), (0x1823C, 0x1), (0x1824C, 0x1),
  (0x1825C, 0x1), (0x1826C, 0x1), (0x1827C, 0x1), (0x1828C, 0x1), (0x1829C, 0x1), (0x182AC, 0x1),
  (0x182BC, 0x1), (0x182CC, 0x1), (0x182DC, 0x1), (0x182EC, 0x1), (0x182FC, 0x1), (0x1830C, 0x1),
  (0x1831C, 0x1), (0x1832C, 0x1), (0x1833C, 0x1), (0x1834C, 0x1), (0x1835C, 0x1), (0x1836C, 0x1),
  (0x1837C, 0x1), (0x1838C, 0x1), (0x1839C, 0x1), (0x183AC, 0x1), (0x183BC, 0x1), (0x183CC, 0x1),
  (0x183DC, 0x1), (0x183EC, 0x1), (0x183FC, 0x1), (0x20000, 0x7), (0x40000, 0x1), (0x40004, 0x1)]

/-- Part 2 of `resetRegs`. -/
def resetRegs2 : List (Nat × Word) := [
  (0x40008, 0x1), (0x50000, 0x100), (0x60124, 0x30), (0x601A4, 0x30), (0x70000, 0x7), (0x7005C, 0x7),
  (0x70404, 0x64), (0x70424, 0x64), (0x70444, 0x64), (0x70464, 0x64), (0x70484, 0x64), (0x704A4, 0x64),
  (0x704C4, 0x64), (0x704E4, 0x64), (0x90000, 0xF), (0x90100, 0x3), (0x90120, 0x4000F3C), (0x90140, 0x3),
  (0x90160, 0x4000F3C), (0x90180, 0x3), (0x901A0, 0x4000F3C), (0x901C0, 0x3), (0x901E0, 0x4000F3C),
  (0xA000C, 0x1FFFFFFF), (0xA0100, 0xB), (0xA0104, 0xB), (0xA0108, 0xB), (0xA010C, 0xB), (0xA0110, 0xB),
  (0xA0114, 0xB), (0xA0118, 0xB), (0xA011C, 0xB), (0xA0120, 0xB), (0xA0124, 0xB), (0xA0128, 0xB),
  (0xA012C, 0xB), (0xA0130, 0xB), (0xA0134, 0xB), (0xA0138, 0xB), (0xA013C, 0xB), (0xA0140, 0xB),
  (0xA0144, 0xB), (0xA0148, 0xB), (0xA014C, 0xB), (0xA0150, 0xB), (0xA0154, 0x6), (0xA0158, 0x7),
  (0xA015C, 0x7), (0xA0160, 0x5), (0xA0164, 0x2), (0xA0168, 0x2), (0xA016C, 0x1), (0xA0170, 0x6),
  (0xB0020, 0xFFFFFF), (0xB0024, 0xF), (0xB002C, 0x76543210), (0xC0010, 0xF), (0xC0100, 0xF), (0xC0104, 0xF),
  (0xC0108, 0xF)]

/-- Part 3 of `resetRegs`. -/
def resetRegs3 : List (Nat × Word) := [
  (0xC010C, 0xF), (0xC0110, 0xF), (0xC0114, 0xF), (0xC0118, 0xF), (0xC011C, 0xF), (0xC0120, 0xF),
  (0xC0124, 0xF), (0xC0128, 0xF), (0xC012C, 0xF), (0xC0130, 0xF), (0xC0134, 0xF), (0xC0138, 0xF),
  (0xC013C, 0xF), (0xC0140, 0xF), (0xC0144, 0xF), (0xC0148, 0xF), (0xC014C, 0xF), (0xC0150, 0xF),
  (0xC0154, 0xF), (0xC0158, 0xF), (0xC015C, 0xF), (0x100000, 0x20), (0x110000, 0x21), (0x120000, 0x22),
  (0x130000, 0x23), (0x140000, 0x24), (0x150000, 0x25), (0x160000, 0x26), (0x170000, 0x27), (0x180000, 0xF),
  (0x19000C, 0x1), (0x1A0010, 0x300), (0x1B0010, 0x300), (0x1C0010, 0x300), (0x1D0010, 0x300),
  (0x1E0010, 0x300), (0x1F0010, 0x300), (0x200010, 0x300), (0x210010, 0x300), (0x220010, 0x200),
  (0x220118, 0xFFFF), (0x220158, 0xFFFF), (0x220198, 0xFFFF), (0x2201D8, 0xFFFF), (0x220218, 0xFFFF),
  (0x220258, 0xFFFF), (0x220298, 0xFFFF), (0x2202D8, 0xFFFF), (0x220318, 0xFFFF), (0x220358, 0xFFFF),
  (0x220398, 0xFFFF), (0x2203D8, 0xFFFF), (0x220418, 0xFFFF), (0x220458, 0xFFFF), (0x220498, 0xFFFF),
  (0x2204D8, 0xFFFF), (0x220518, 0xFFFF), (0x220558, 0xFFFF), (0x220598, 0xFFFF), (0x2205D8, 0xFFFF)]

/-- Part 4 of `resetRegs`. -/
def resetRegs4 : List (Nat × Word) := [
  (0x220618, 0xFFFF), (0x220658, 0xFFFF), (0x220698, 0xFFFF), (0x2206D8, 0xFFFF), (0x220718, 0xFFFF),
  (0x220758, 0xFFFF), (0x220798, 0xFFFF), (0x2207D8, 0xFFFF), (0x220818, 0xFFFF), (0x220858, 0xFFFF),
  (0x220898, 0xFFFF), (0x2208D8, 0xFFFF), (0x220918, 0xFFFF), (0x220958, 0xFFFF), (0x220998, 0xFFFF),
  (0x2209D8, 0xFFFF), (0x270010, 0x67FDA19B), (0x270020, 0x1000), (0x270024, 0xD9A), (0x270028, 0x10000),
  (0x27002C, 0x18000000), (0x270030, 0x3C00370), (0x270034, 0x6E3C), (0x270038, 0x25846),
  (0x27003C, 0x1000000), (0x270040, 0x180032), (0x280024, 0x73330008), (0x280204, 0xFFFFFFFF),
  (0x28020C, 0xFFFFFFFF), (0x280214, 0xFFFFFFFF), (0x28021C, 0xFFFFFFFF), (0x280224, 0xFFFFFFFF),
  (0x28022C, 0xFFFFFFFF), (0x280234, 0xFFFFFFFF), (0x28023C, 0xFFFFFFFF), (0x280244, 0xFFFFFFFF),
  (0x28024C, 0xFFFFFFFF), (0x280254, 0xFFFFFFFF), (0x28025C, 0xFFFFFFFF), (0x280264, 0xFFFFFFFF),
  (0x28026C, 0xFFFFFFFF), (0x280274, 0xFFFFFFFF), (0x28027C, 0xFFFFFFFF), (0x280284, 0xFFFFFFFF),
  (0x28028C, 0xFFFFFFFF), (0x280294, 0xFFFFFFFF), (0x28029C, 0xFFFFFFFF), (0x2802A4, 0xFFFFFFFF),
  (0x2802AC, 0xFFFFFFFF), (0x2802B4, 0xFFFFFFFF), (0x2802BC, 0xFFFFFFFF), (0x2802C4, 0xFFFFFFFF),
  (0x2802CC, 0xFFFFFFFF), (0x2802D4, 0xFFFFFFFF), (0x2802DC, 0xFFFFFFFF), (0x2802E4, 0xFFFFFFFF),
  (0x2802EC, 0xFFFFFFFF), (0x2802F4, 0xFFFFFFFF), (0x2802FC, 0xFFFFFFFF), (0x280304, 0xFFFFFFFF)]

/-- Part 5 of `resetRegs`. -/
def resetRegs5 : List (Nat × Word) := [
  (0x28030C, 0xFFFFFFFF), (0x280314, 0xFFFFFFFF), (0x28031C, 0xFFFFFFFF), (0x280324, 0xFFFFFFFF),
  (0x28032C, 0xFFFFFFFF), (0x280334, 0xFFFFFFFF), (0x28033C, 0xFFFFFFFF), (0x280344, 0xFFFFFFFF),
  (0x28034C, 0xFFFFFFFF), (0x290000, 0x3), (0x290004, 0x8), (0x290020, 0x1)]

/-- The non-zero reset values of the registers that are not RWH, by rising address. -/
def resetRegs : List (Nat × Word) :=
  resetRegs0 ++ resetRegs1 ++ resetRegs2 ++ resetRegs3 ++ resetRegs4 ++ resetRegs5

/-- Part 0 of `resetRwh`. -/
def resetRwh0 : List (Nat × Word) := [
  (0x30004, 0xA), (0x30008, 0xA), (0x3000C, 0x64), (0x30010, 0x3E8), (0x30014, 0xA10), (0x5000C, 0x2080),
  (0x50010, 0x64), (0x50014, 0xF4240), (0x50018, 0x1F4), (0x5006C, 0x64), (0x60004, 0xF88080),
  (0x60008, 0x3FD01FD), (0x60100, 0x4), (0x60180, 0x4), (0x70008, 0x70), (0x7000C, 0x3), (0x70010, 0x1F4),
  (0x70014, 0x3E8), (0x70018, 0x3E8), (0x7001C, 0x64), (0x70104, 0x1000000), (0x7010C, 0x8),
  (0x70144, 0x1000000), (0x7014C, 0x8), (0x70184, 0x1000000), (0x7018C, 0x8), (0x701C4, 0x1000000),
  (0x701CC, 0x8), (0x70200, 0xC8), (0x70204, 0x640), (0x70210, 0x3E8), (0x70214, 0x64), (0x70218, 0x28),
  (0x7021C, 0x10000), (0x70220, 0x1000000), (0x70224, 0x3), (0x70240, 0xC8), (0x70244, 0x640),
  (0x70250, 0x3E8), (0x70254, 0x64), (0x70258, 0x28), (0x7025C, 0x10000), (0x70260, 0x1000000),
  (0x70264, 0x3), (0x70604, 0x1), (0x70608, 0x1), (0x70624, 0x1), (0x70628, 0x1), (0x80100, 0x1000),
  (0x80104, 0x14), (0x80108, 0x7FFF8000), (0x80120, 0x1000), (0x80124, 0x14), (0x80128, 0x7FFF8000),
  (0x80140, 0x1000), (0x80144, 0x14), (0x80148, 0x7FFF8000), (0x80160, 0x1000), (0x80164, 0x14),
  (0x80168, 0x7FFF8000)]

/-- Part 1 of `resetRwh`. -/
def resetRwh1 : List (Nat × Word) := [
  (0x80180, 0x1000), (0x80184, 0x14), (0x80188, 0x7FFF8000), (0x801A0, 0x1000), (0x801A4, 0x14),
  (0x801A8, 0x7FFF8000), (0x801C0, 0x1000), (0x801C4, 0x14), (0x801C8, 0x7FFF8000), (0x801E0, 0x1000),
  (0x801E4, 0x14), (0x801E8, 0x7FFF8000), (0x90004, 0x3E8), (0x90008, 0xA), (0x9000C, 0x40), (0x90010, 0x10),
  (0x90014, 0x18), (0xB0000, 0x1D4C0), (0xB0008, 0x1F40), (0xB000C, 0xC), (0xB0010, 0x3E8),
  (0xC0000, 0xAAAA), (0xC0004, 0x6), (0x100004, 0x1), (0x100008, 0x2060), (0x110004, 0x1),
  (0x110008, 0x2060), (0x120004, 0x1), (0x120008, 0x2060), (0x130004, 0x1), (0x130008, 0x2060),
  (0x140004, 0x1), (0x140008, 0x2060), (0x150004, 0x1), (0x150008, 0x2060), (0x160004, 0x1),
  (0x160008, 0x2060), (0x170004, 0x1), (0x170008, 0x2060), (0x190008, 0x40), (0x1A0000, 0x1000),
  (0x1B0000, 0x1000), (0x1C0000, 0x1000), (0x1D0000, 0x1000), (0x1E0000, 0x1000), (0x1F0000, 0x1000),
  (0x200000, 0x1000), (0x210000, 0x1000), (0x220100, 0x6), (0x220140, 0x6), (0x220180, 0x6), (0x2201C0, 0x6),
  (0x220200, 0x6), (0x220240, 0x6), (0x220280, 0x6), (0x2202C0, 0x6), (0x220300, 0x6), (0x220340, 0x6),
  (0x220380, 0x6), (0x2203C0, 0x6)]

/-- Part 2 of `resetRwh`. -/
def resetRwh2 : List (Nat × Word) := [
  (0x220400, 0x6), (0x220440, 0x6), (0x220480, 0x6), (0x2204C0, 0x6), (0x220500, 0x6), (0x220540, 0x6),
  (0x220580, 0x6), (0x2205C0, 0x6), (0x220600, 0x6), (0x220640, 0x6), (0x220680, 0x6), (0x2206C0, 0x6),
  (0x220700, 0x6), (0x220740, 0x6), (0x220780, 0x6), (0x2207C0, 0x6), (0x220800, 0x6), (0x220840, 0x6),
  (0x220880, 0x6), (0x2208C0, 0x6), (0x220900, 0x6), (0x220940, 0x6), (0x220980, 0x6), (0x2209C0, 0x6),
  (0x230100, 0x24), (0x230108, 0x54AAAB), (0x23010C, 0x5DC0), (0x230180, 0x24), (0x230188, 0x54AAAB),
  (0x23018C, 0x5DC0), (0x240000, 0x800), (0x240004, 0x400), (0x240008, 0x102), (0x24000C, 0x12),
  (0x240010, 0x2010), (0x250000, 0x186A0), (0x250004, 0x200), (0x250008, 0x32), (0x25000C, 0x4000040),
  (0x250010, 0x1007D0), (0x250014, 0x10), (0x250018, 0x186A0), (0x25001C, 0x1F48000), (0x250020, 0x4000008),
  (0x250024, 0x20), (0x250028, 0xC002000), (0x260000, 0x8), (0x260004, 0x64), (0x260008, 0x1F4),
  (0x280000, 0xA18003F)]

/-- The non-zero reset values of the RWH registers, by rising address. -/
def resetRwh : List (Nat × Word) :=
  resetRwh0 ++ resetRwh1 ++ resetRwh2

/-- The registers that hold the health of the parts of R139 and the map of the raster engines. -/
def healthRegs : List Nat :=
  [Reg.PLACE_DFL_OK, Reg.PLACE_CH_OK, Reg.PLACE_LACE_OK, Reg.PLACE_RE_MAP, Reg.RE_STATUS 8] ++
    (List.range 8).flatMap (fun b =>
      [Reg.LACE_STATUS b, Reg.LACE_HEADS_RATED b] ++ (List.range 24).map (fun h => Reg.LACE_HEAD_FMAX b h))

/-- Their values in a register file; a register that is 0 is not listed. -/
def healthOf (regs : NMap Word) : NMap Word := healthRegs.foldl (fun m a => mapSet 0 m a (mapGet 0 regs a)) []

end Sys2Proof.Machine
end

