-- ==== Sys2Proof/Machine/State.lean ====
section
/-!
DEFINITION. The state of the module as plain data: the registers, every piece of state the chapters name beside
them, the queue of waiting commands, and the state after reset.  A register lives in `Dev.regs`, an RWH register in
`Dev.cfg.force`; each structure below holds what its chapter names and no register shows.
-/

namespace Sys2Proof.Machine

/-! ## Event log (R27, R498-R501) -/

/-- One event-log record: its header fields and its payload bytes (R498). -/
structure LogRec where
  seq : Nat
  time : Nat
  ev : Ev
  origin : Nat
  payload : List Byte
  deriving DecidableEq, Repr

/-- The event log: the staging buffer of the heel domain and the ring in MRAM (R500), oldest record first. -/
structure LogSt where
  staging : List LogRec := []
  ring : List LogRec := []
  /-- The first SEQ the module ever assigned (R501). -/
  firstSeq : Nat := 1
  deriving DecidableEq, Repr

/-! ## Host link and queues (R86-R108) -/

/-- A command that has started and not completed. -/
structure Out where
  q : Nat
  /-- The 64-byte submission entry (R96). -/
  entry : List Byte
  /-- SQ head after the command started (R100). -/
  sqHead : Nat
  /-- A completion entry is posted when it completes; false after a host link reset (R89). -/
  post : Bool
  /-- A number the command keeps from its start (jobs aborted, ...). -/
  note : Nat := 0
  /-- A matched command's KEY and DIGEST (R424); none for a command that is not matched. -/
  mkey : Option (Nat × Nat) := none
  /-- On the STANDBY, the ACTIVE's RESULT with which the command completes when it completes OK (R424). -/
  actRes : Option Nat := none
  deriving DecidableEq, Repr

/-- One queue pair beyond its registers. -/
structure QSt where
  /-- Entries fetched and not started, oldest first. -/
  fetched : List (List Byte) := []
  /-- How many of them, the oldest, a plane restart ends (R95). -/
  cut : Nat := 0
  /-- Completion entries written since the last completion message (R102). -/
  unsent : Nat := 0
  deriving DecidableEq, Repr

/-- The host link. -/
structure HostSt where
  qs : NMap QSt := []
  outs : List Out := []
  /-- Bytes the module has written to host memory; an unlisted byte reads 0. -/
  hostMem : List Host.Cell := []
  /-- The device-resident submission queues of BAR2 (R91), by BAR2 offset. -/
  bar2 : List Host.Cell := []
  deriving DecidableEq, Repr

/-! ## Configuration (R80-R85) -/

/-- A configuration table: its written length (R511) and its bytes. -/
structure Table where
  len : Nat := 0
  bytes : List Host.Cell := []
  deriving DecidableEq, Repr

/-- A configuration: every RWH register (an unlisted one is 0) and every table. -/
structure Image where
  regs : NMap Word := []
  tables : NMap Table := []
  deriving DecidableEq, Repr

/-- A stored copy of a configuration in NVM (R84, R85). -/
inductive CopySt where
  /-- Magic and sequence number 0: as delivered. -/
  | empty
  /-- Not empty, and its magic, length or CRC does not check. -/
  | bad
  /-- Valid: sequence number, recorded feature set, image. -/
  | valid (seq : Nat) (feats : List Nat) (img : Image)
  deriving DecidableEq, Repr

/-- The configuration in force, the session and the copies. -/
structure CfgSt where
  force : Image := {}
  session : Option Image := none
  /-- The last committed configuration (R80). -/
  last : Option Image := none
  /-- Last sequence number a commit took since the last full or warm reset (R83). -/
  lastSeq : Nat := 0
  /-- The stored copy that start-up located in step 8 (R73, R80): its sequence number, feature set and image. -/
  located : Option (Nat × List Nat × Image) := none
  copyA : CopySt := .empty
  copyB : CopySt := .empty
  deriving DecidableEq, Repr

/-! ## Jobs and commit points -/

/-- The plane entry of a job record (R134). -/
structure PlaneRec where
  pre : Nat := 0
  strips : Nat := 0
  compBytes : Nat := 0
  peakBytes : Nat := 0
  chainMax : Nat := 0
  deriving DecidableEq, Repr

/-- A job on one of its bars. -/
structure JobBar where
  /-- Lines of the job issued on the bar. -/
  issued : Nat := 0
  /-- The job has left the bar (R130). -/
  left : Bool := false
  deriving DecidableEq, Repr

/-- The states of a job, as JOB_STATUS codes them (R115, R130). -/
inductive JobPhase where
  | admitted | scheduled | printing | ended | aborted
  deriving DecidableEq, Repr

/-- A job the module holds (R130-R134). -/
structure Job where
  id : Nat
  phase : JobPhase
  mode : Nat
  pitch : Nat
  barMask : Nat
  cyclic : Bool
  lines : Nat
  cycles : Nat
  rep : Bool
  planes : NMap PlaneRec
  /-- Ceiling in mm/min and in lines/s from the placement engine, and the bar ceilings in lines/s. -/
  ceiling : Nat := 0
  rate : Nat := 0
  barRate : NMap Nat := []
  /-- Scheduled by JOB_RUN. -/
  run : Bool := false
  /-- JOB_RUN MODE 1: the start time awaited for the grid origin (R247). -/
  startTime : Option Nat := none
  /-- Grid origin in 2^-16 um, once set (R247); a JOB_SWITCH adds n line pitches, which need not be a whole number. -/
  x0 : Option Rat := none
  /-- Highest reference tick issued + 1 (R248, R256). -/
  nextTick : Nat := 0
  bars : NMap JobBar := []
  defects : Nat := 0
  skipped : Nat := 0
  stripFaults : Nat := 0
  /-- Bars lost for this job (R151). -/
  lostBars : List Nat := []
  /-- The jobs to which admitted JOB_SWITCH records hand this job's bars (R141). -/
  succs : List Nat := []
  /-- On the STANDBY: MODE and START_AT of its own JOB_RUN (R434). -/
  own : Option (Nat × Nat) := none
  /-- The placement engine has read the job's entry (R137). -/
  placed : Bool := false
  /-- Of an ended or aborted job: the jobs that have ended or been aborted since (R132). -/
  later : Nat := 0
  deriving DecidableEq, Repr

/-- A commit point record (R29). -/
structure CommitRec where
  kind : Nat
  bar : Nat
  origin : Nat
  flags : Nat
  seq : Nat
  job : Nat
  epoch : Nat
  line : Nat
  arg : Nat
  deriving DecidableEq, Repr

/-- An admitted commit point and the bars on which it is still pending. -/
structure Pend where
  cp : CommitRec
  bars : List Nat
  deriving DecidableEq, Repr

/-- An entry of the job descriptor table: its 512 bytes (R138). -/
structure JdtEntry where
  job : Nat
  bytes : List Byte
  deriving DecidableEq, Repr

/-- What the control plane holds of the parts' health: the registers of R139's inputs and the map of the engines as the newest
health event that it applied left them, and that event's SEQ (R22, R137, R138). -/
structure CtlSt where
  known : NMap Word := []
  seq : Nat := 0
  deriving DecidableEq, Repr

/-- Jobs, the job descriptor table and the commit points. -/
structure JobSt where
  /-- Jobs not yet ENDED or ABORTED, in order of admission. -/
  jobs : List Job := []
  /-- Ended and aborted jobs that JOB_STATUS still answers for, newest first (R132). -/
  ended : List Job := []
  jdt : List JdtEntry := []
  commits : List Pend := []
  /-- Parts that have changed state since the last re-plan, as a mask of causes (R149). -/
  replanDue : Nat := 0
  /-- Last assigned commit sequence number (R34). -/
  commitSeq : Nat := 0
  deriving DecidableEq, Repr

/-! ## Strips, decompression and the raster engines -/

/-- A strip in a window or in the repeat store: its envelope and payload (R156). -/
structure Strip where
  no : Nat
  history : Nat
  check : Nat
  firstLine : Nat
  lineCount : Nat
  payload : List Byte
  crc : Nat
  /-- A strip the module built (STRIP_SUBMIT_RAW): the bytes its payload decodes to; dynamic blocks need no feature (R162). -/
  built : Option (List Byte) := none
  last : Bool
  deriving DecidableEq, Repr

/-- A decoded line as the input ring holds it (R147, R181). -/
inductive LineData where
  /-- The bytes of the line after the inverse pre-transform. -/
  | data (bs : List Byte)
  /-- The line prints blank; the cause of its defect range (R268), 0 for none. -/
  | blank (cause : Nat)
  deriving DecidableEq, Repr

/-- A decompression lane at a strip boundary: its context image (R150, R171). -/
structure LaneCtx where
  job : Nat := 0
  bar : Nat := 0xF
  strip : Nat := 0
  pre : Nat := 0
  histValid : Bool := false
  /-- The last decoded bytes of the chain, at most 32,768, newest last. -/
  hist : List Byte := []
  /-- Decoded bytes of the chain modulo 32,768: the window index of the next byte. -/
  winPos : Nat := 0
  broken : Bool := false
  deriving DecidableEq, Repr

/-- One plane of a job: its window, its decoded lines and what the module checks strips against. -/
structure PlaneSt where
  /-- Next strip STRIP_SUBMIT expects (R121), and the next FIRST_LINE. -/
  nextStrip : Nat := 0
  nextLine : Nat := 0
  lastSeen : Bool := false
  /-- Stored strips, ascending. -/
  strips : List Strip := []
  /-- Lines of the chain being submitted (R136). -/
  chainLines : Nat := 0
  /-- Next strip to be decoded and the cycle of a cyclic job it belongs to. -/
  decNext : Nat := 0
  decCycle : Nat := 0
  /-- The strip decoded last with the bar line it begins at, and the context image its chain had before it (R150). -/
  lastDec : Option (Nat × Nat) := none
  before : LaneCtx := {}
  /-- The chain in progress is broken (R169). -/
  broken : Bool := false
  /-- Decoded bar lines not yet consumed, by bar line index. -/
  lines : NMap LineData := []
  /-- Byte counts of strips by first line, for the density check (R136). -/
  density : List (Nat × Nat × Nat) := []
  /-- The largest byte count of a span observed (R136), and the figure the placement engine uses in place of PEAK_BYTES since the
  last strip boundary, when larger. -/
  peakSeen : Nat := 0
  peakUse : Nat := 0
  /-- A density excess awaits the re-plan of the next strip boundary (R136, R149). -/
  densityDue : Bool := false
  deriving DecidableEq, Repr

/-- A stream that waits for a compression lane or is with one (R173). -/
structure CmpJob where
  /-- 1 pair state, 2 raw strip, 3 frame, 4 log. -/
  use : Nat
  /-- The compression lane it has; none while it waits. -/
  lane : Option Nat := none
  input : List Byte
  verify : Bool
  /-- The command it belongs to. -/
  out : Option Out := none
  /-- Item and bar of a pair state stream; the next and the first SEQ of a log stream; a frame's or log's buffer elements. -/
  item : Nat := 0
  bar : Nat := 0
  els : List (Nat × Nat) := []
  /-- The write request of a frame or log stream that fails (R107). -/
  err : Option DmaErr := none
  deriving DecidableEq, Repr

/-- A STRIP_SUBMIT or STRIP_SUBMIT_RAW that waits for room or behind an earlier one of its plane (R121). -/
structure StripWait where
  out : Out
  job : Nat
  bar : Nat
  dma : Dma
  /-- The raw strip's compressed payload, once it is compressed. -/
  done : Option (List Byte × List Byte) := none
  deriving DecidableEq, Repr

/-- The strip engine. -/
structure StripSt where
  /-- By job * 8 + bar. -/
  planes : NMap PlaneSt := []
  /-- Decompression lanes 0-23. -/
  lanes : NMap LaneCtx := []
  /-- Bytes of the repeat store each job uses. -/
  repeatUse : NMap Nat := []
  /-- Streams waiting for a compression lane or with one, in arrival order (R173). -/
  cmpWait : List CmpJob := []
  /-- Submissions that wait, in order (R121). -/
  waits : List StripWait := []
  /-- Lanes left over, as a mask: they decode the first lines of a job awaiting a JOB_SWITCH on their bar (R142). -/
  ahead : Nat := 0
  deriving DecidableEq, Repr

/-- A line between stages 8 and 9 of a raster engine (R180). -/
structure MidLine where
  line : Nat
  /-- Drop codes of the 4,096 nozzles of each head; empty for a blank line. -/
  heads : NMap (List Nat)
  deriving DecidableEq, Repr

/-- The banks of a bar as they were written; an empty byte list is a bank's reset contents. -/
structure BarBanks where
  /-- Last table banks 0 and 1 (R189, R191). -/
  last : NMap (List Byte) := []
  /-- Screen sets 0 and 1 (R193). -/
  screens : NMap (List Byte) := []
  /-- Nozzle state map of bank k of head h at key 2 h + k (R198). -/
  maps : NMap (List Byte) := []
  /-- Maps of the map builder that wait for their bank, by head (R198). -/
  waitMaps : NMap (List Byte) := []
  deriving DecidableEq, Repr

/-- A LINE frame that the Lace framer keeps (R295). -/
structure KeptLine where
  job : Nat
  line : Nat
  head : Nat
  fine : Nat
  lane : Nat
  data : List Byte
  deriving DecidableEq, Repr

/-- The raster engine path of one bar. -/
structure BarRast where
  /-- Next bar line index stage 1 begins; F(b) is one less (R32). -/
  front : Nat := 0
  /-- Next bar line index stage 10 hands on. -/
  handed : Nat := 0
  /-- Lines between stages 8 and 9, in order. -/
  mid : List MidLine := []
  /-- Error rows of the ED segments, ascending columns (R195); an empty row is all 0. -/
  ed : NMap (List Int) := []
  /-- Stage 6 resets the error rows before the next line it screens (R196). -/
  edReset : Bool := true
  /-- The credit of each nozzle by head (R200, R202); an empty list is all 0. -/
  credit : NMap (List Nat) := []
  /-- Lines stage 9 has counted on the bar. -/
  dutyLines : Nat := 0
  /-- Final line energies of each head by counted line, newest first (R201). -/
  energy : NMap (List (Nat × Nat)) := []
  /-- Lines not yet issued that print blank, with the cause of their defect range: 5 starved (R148), 6 strip fault; 0 none
  (R136). -/
  blanks : NMap (Option Nat) := []
  /-- LINE_CRC of the head lines handed on, by line and head, until the line is issued (R427). -/
  out : NMap (List (Nat × Nat)) := []
  /-- The index after the last issued line, when that was starved: one DATA_STARVED per run (R148). -/
  starvedTo : Option Nat := none
  /-- Heads that stage 3 took as DEAD for their temperature when it began a line, by line not yet issued (R262, R269). -/
  deadAt : NMap Nat := []
  /-- LINE frames sent and kept until the token of their line (R295). -/
  kept : List KeptLine := []
  deriving DecidableEq, Repr

/-- The raster engines. -/
structure RastSt where
  /-- Bars whose inactive Last table bank the colour loop owns (R364), as a mask. -/
  owned : Nat := 0
  banks : NMap BarBanks := []
  /-- The copies of the banks in the system region, from which a spare engine loads (R204): Last tables, screen sets, maps. -/
  copies : NMap BarBanks := []
  bars : NMap BarRast := []
  deriving DecidableEq, Repr

/-! ## Firing -/

/-- An open defect range (R268, R269). -/
structure Rng where
  job : Nat
  bar : Nat
  head : Nat
  cause : Nat
  first : Nat
  last : Nat
  count : Nat
  /-- Consecutive lines fired without a skip since the last skipped one (SKIPPED ranges). -/
  clean : Nat := 0
  deriving DecidableEq, Repr

/-- A change of derating or blanking that takes effect at a line (R261, R514). -/
structure HeadChg where
  line : Nat
  head : Nat
  on : Bool
  deriving DecidableEq, Repr

/-- The firing state of one bar beyond its registers. -/
structure BarFire where
  /-- Job in progress on the bar; 0 none. -/
  job : Nat := 0
  /-- Lines of that job issued. -/
  next : Nat := 0
  /-- Time-counter value of the last reference tick issued, and the tick interval before it. -/
  tick : Option Nat := none
  period : Option Nat := none
  /-- Firing instant of the last line fired, in 2.5 ns / 64. -/
  fired : Option Nat := none
  /-- Heads derated in stage 9, and the changes to come. -/
  derate : Nat := 0
  derateChg : List HeadChg := []
  /-- Heads blanked in the tokens, and the changes to come. -/
  blank : Nat := 0
  blankChg : List HeadChg := []
  /-- Heads stage 3 counts as DEAD (R262). -/
  dead : Nat := 0
  /-- Overspeed suppression in force on the bar. -/
  suppressed : Bool := false
  /-- Lines issued on the bar over all jobs. -/
  issuedEver : Nat := 0
  /-- Lines since the last valid report of each head. -/
  age : NMap Nat := []
  /-- Head temperatures stopped by TEMP_STALE rather than by a report. -/
  stale : Nat := 0
  deriving DecidableEq, Repr

/-- The firing block. -/
structure FireSt where
  bars : NMap BarFire := []
  ranges : List Rng := []
  /-- Position x in um where the overspeed resume count started (R260). -/
  slowFrom : Option Rat := none
  deriving DecidableEq, Repr


/-! ## Lace -/

/-- A bar port's link-up and session state beyond its registers (R289-R301). -/
structure LaceSt where
  /-- Latencies measured by the ECHO exchanges of this link-up, in ns / 4. -/
  echoes : List Int := []
  /-- T_SEND of the ECHO outstanding. -/
  echoSent : Option Nat := none
  /-- An AUTH_CHALLENGE is outstanding; attempts of this link-up that count (R299), and the nonce NM sent. -/
  chal : Bool := false
  authTries : Nat := 0
  nm : List Byte := []
  /-- Session key K_S; none before AUTH_CONFIRM (R292). -/
  key : Option (List Byte) := none
  /-- Last SEQ accepted from the node, last SEQ sent, and the gaps seen (R284). -/
  rxSeq : Nat := 0
  txSeq : Nat := 0
  seqGaps : Nat := 0
  /-- Frame count of each lane since link-up (R277). -/
  laneSeq : NMap Nat := []
  /-- Head memory as read, by head: its bytes from address 0 (R287). -/
  hmem : NMap (List Byte) := []
  /-- The outstanding HMEM_READ: head, address, length. -/
  hmemReq : Option (Nat × Nat × Nat) := none
  /-- The outstanding SENSE_REQ's head, and one that waits for the outstanding request (R296). -/
  senseReq : Option Nat := none
  senseWait : Option Nat := none
  /-- Lines issued on the bar, counted over all jobs, at which an impossible value arrived (R299). -/
  rangeErrs : List Nat := []
  /-- Token bucket level in bytes / 16 and the counter value it was brought to (R300). -/
  bucket : Nat := 1048576
  bucketAt : Nat := 0
  /-- A frame was discarded in the present 100 us interval; consecutive such intervals (R299). -/
  flooded : Bool := false
  floodRun : Nat := 0
  /-- A run of link-up failures has been reported (R290). -/
  downLogged : Bool := false
  /-- The previous valid report of each head, 1/16 degC, and the heads that have one (R298). -/
  lastTemp : NMap Int := []
  hasTemp : Nat := 0
  deriving DecidableEq, Repr


/-! ## What the module sends -/

/-- What the module hands to a transmitter: the model's own record of frames, tokens, pulses and messages, in order. -/
inductive Tx where
  /-- An MSI-X message (R101). -/
  | msix (addr : Nat) (data : Nat)
  /-- A fire-permit or INHIBIT token (R279): bar, lanes, FLAGS, FINE, PERIOD, LINE, EPOCH, BLANK. -/
  | token (bar : Nat) (lanes : List Nat) (flags fine period line epoch blank : Nat)
  /-- A LINE frame (R277): bar, head, FLAGS, FINE, LINE, EPOCH, JOB, lane, LANE_SEQ, head line. -/
  | line (bar head flags fine line epoch job lane laneSeq : Nat) (data : List Byte)
  /-- A CONTROL or MGMT frame (R283): bar, lane, TYPE, KIND, SEQ, TAGGED, body, tag. -/
  | lace (bar lane type kind seq : Nat) (tagged : Bool) (body tag : List Byte)
  /-- A Shank frame (R420): lanes, KIND, FLAGS, EPOCH, SEQ and body. -/
  | shank (lanes : List Nat) (kind flags epoch seq : Nat) (body : List Byte)
  /-- A camera line trigger (R336, R337): camera, frame start, grid index, line time. -/
  | camTrigger (cam : Nat) (start : Bool) (index : Int) (time : Nat)
  /-- The connection configuration of a camera (R335): camera, links, rate code, stream packet size. -/
  | camConnect (cam links rate packet : Nat)
  /-- A camera control access (R334, R335): camera, write, address, data. -/
  | camControl (cam : Nat) (write : Bool) (addr data : Nat)
  /-- A PTP message of a port (R384): port, message type, sequence, body numbers. -/
  | ptp (port type seq : Nat) (body : List Int)
  /-- A clock sequence on SSI_CLK (R211): channel and number of clocks. -/
  | ssiClock (ch clocks : Nat)
  /-- The output level of a pin changes: name, index, level. -/
  | pin (name : String) (index level : Nat)
  /-- A DRAM read answered to an arbiter port (R401): channel, port, address, poisoned, bytes. -/
  | memReply (chan port addr : Nat) (poisoned : Bool) (data : List Byte)
  /-- A DRAM command of a channel (R402): 0 read, 1 write, 2 self-refresh entry. -/
  | memCmd (chan kind addr : Nat)
  /-- A request on the shelf bus or the PCIe sideband: WAKE# (R477). -/
  | sideband (name : String) (level : Nat)
  deriving DecidableEq, Repr


/-! ## The redundant pair (R415-R441) -/

/-- A matched command that waits on the STANDBY for its CMD frame (R424): the started command, its KEY and DIGEST, and
what its buffer yielded. -/
structure PairWait where
  out : Out
  key : Nat
  digest : Nat
  dma : Dma
  /-- Its CMD frame of the start has arrived. -/
  seen : Bool := false
  deriving DecidableEq, Repr

/-- A CMD frame kept until its command comes (R424). -/
structure CmdFrame where
  key : Nat
  digest : Nat
  status : Nat
  result : Nat
  deriving DecidableEq, Repr

/-- A decision of the ACTIVE as a DECISION frame carries it (R421, R426). -/
structure Decision where
  line : Nat
  bar : Nat
  head : Nat
  dkind : Nat
  cause : Nat
  count : Nat
  deriving DecidableEq, Repr

/-- A mismatch whose DIAG frames are awaited (R430). -/
structure Mismatch where
  line : Nat
  bar : Nat
  own : Bool
  other : Option Bool
  /-- The STANDBY was IN_STEP before it. -/
  inStep : Bool
  /-- A node reported it (R307). -/
  node : Bool := false
  deriving DecidableEq, Repr

/-- The pair beyond its registers. -/
structure PairSt where
  /-- State streams that the compression lanes ended with a status: item, bar and status (R178). -/
  failed : List (Nat × Nat × Nat) := []
  /-- SEQ of the last non-heartbeat frame sent and of the last one accepted (R420). -/
  txSeq : Nat := 0
  rxSeq : Nat := 0
  /-- Heartbeats sent (R422). -/
  hbSeq : Nat := 0
  /-- A HELLO has arrived; the last T_SEND received and the counter value at its arrival (R421). -/
  helloIn : Bool := false
  echo : Nat := 0
  echoAt : Nat := 0
  /-- The partner has echoed one of this module's HELLO frames, and its HELLO showed IN_HOLD. -/
  helloBoth : Bool := false
  partnerHold : Bool := false
  partnerEpoch : Nat := 0
  partnerSrc : Nat := 0
  partnerCeil : Nat := 0
  partnerSeq : Nat := 0
  /-- Heartbeats received with TIME_CFG.SRC = 3, for the update of every 128th (R422). -/
  hbRecv : Nat := 0
  waits : List PairWait := []
  kept : List CmdFrame := []
  /-- Matched commands since formation: by opcode, and TABLE_LOAD by bar, head and bank (R424). -/
  counts : NMap Nat := []
  /-- POS minus the own m, the last 128 heartbeats, newest first (R425). -/
  offs : List Int := []
  /-- Grid origins of JOB frames, less the position offset, waiting for their job (R425). -/
  jobX : NMap Rat := []
  /-- Own and received line digests not yet compared, by bar: line and digest (R427). -/
  own : NMap (List (Nat × Nat)) := []
  theirs : NMap (List (Nat × Nat)) := []
  /-- Consecutive matched lines of each bar (R427). -/
  runs : NMap Nat := []
  /-- Print-affecting faults appended: bar and line (R429, R430). -/
  faults : List (Nat × Nat) := []
  /-- A matched command failed its own checks after the ACTIVE accepted it (R424). -/
  refusedOwn : Bool := false
  mismatch : Option Mismatch := none
  /-- The resync line of each bar of the resynchronisation in progress, and the bars that have joined (R437, R439). -/
  resync : NMap Nat := []
  joined : Nat := 0
  /-- The STANDBY has asked for the role (R436). -/
  takeback : Bool := false
  /-- Decisions received and not yet reached (R426). -/
  decisions : List Decision := []
  /-- LOOP frames waiting for their commit point: loop, bar, cycle and entry bytes (R426). -/
  loops : List (Nat × Nat × Nat × List Byte) := []
  /-- A START that waits for the preferred module's START (R416). -/
  startWait : Option Out := none
  /-- Nodes that report the partner's port with a higher epoch: bar to the epoch and the tick it was seen (R418). -/
  nodeReports : NMap (Nat × Nat) := []
  /-- Bars on which this module sends MASTER in a planned takeover in progress (R435). -/
  master : Nat := 0
  /-- Compressed STATE bytes received, by item * 256 + bar (R438). -/
  stateIn : NMap (List Byte) := []
  /-- Bodies that go on in the next frame of their kind (R420). -/
  part : NMap (List Byte) := []
  /-- HB_SEQ of the last heartbeat received; none since the partner was lost. -/
  hbLast : Option Nat := none
  /-- The position sources of the modules differ (R425). -/
  srcDiff : Bool := false
  /-- In the ACTIVE: the resync line of each bar and the mask of the items 6 to 8 still to be sent for it (R438). -/
  syncOut : NMap (Option (Nat × Nat)) := []
  /-- In a SYNCING STANDBY: the items 7 and 8 still to come for each bar, as a mask of item - 6. -/
  await : NMap Nat := []
  /-- A takeover not reported yet: its cause, and the lines until it is (R434). -/
  tkWait : Option (Nat × Nat) := none
  /-- Counter value and epoch of the last report of each bar's node that it follows the partner's port (R418). -/
  reports : NMap (Nat × Nat) := []
  /-- A print-affecting fault of a bar: the lines issued on the bar over all jobs at it, plus 1 (R422). -/
  faultAt : NMap Nat := []
  deriving DecidableEq, Repr

/-! ## Position, compare outputs, emulation, ADC (R206-R245) -/

/-- An encoder channel beyond its registers. -/
structure EncSt where
  /-- C_ref (R227). -/
  anchor : Int := 0
  /-- The index window the count is in: E, whether it was entered from below, an index was accepted in it (R229). -/
  window : Option (Int × Bool × Bool) := none
  /-- E of the windows crossed without an accepted index and not yet reported, oldest first. -/
  missed : List Int := []
  /-- The index of the present entry into the qualifying state has been latched (R226). -/
  taken : Bool := false
  deriving DecidableEq, Repr

/-- A serial channel beyond its registers. -/
structure SsiSt where
  /-- P_prev (R214). -/
  prev : Option Nat := none
  /-- The latch instant of a good frame that the observer has not used yet (R221). -/
  fresh : Option Nat := none
  /-- Local time up to which the multiples of PERIOD have been served, and a firing of the trigger unit whose frame is due (R216,
  R376). -/
  served : Nat := 0
  trig : Bool := false
  deriving DecidableEq, Repr

/-- A compare output beyond its registers. -/
structure CmpSt where
  /-- Entries whose target has been crossed and that have not acted yet. -/
  due : List Nat := []
  /-- Counter value of the scheduled return to 0. -/
  ret : Option Nat := none
  deriving DecidableEq, Repr

/-- An emulation output beyond its registers. -/
structure EmuSt where
  r : Int := 0
  emitted : Int := 0
  /-- The target recorded at the last heartbeat (R240). -/
  recorded : Int := 0
  deriving DecidableEq, Repr

/-- An ADC channel beyond its registers. -/
structure AdcSt where
  /-- Samples taken. -/
  samples : Nat := 0
  /-- An ADC_LIMIT event has been appended since the last sample within LOW to HIGH. -/
  limited : Bool := false
  /-- Samples left in the burst. -/
  burst : Nat := 0
  /-- Local time up to which the multiples of the continuous period have been served (R376). -/
  served : Nat := 0
  deriving DecidableEq, Repr

/-- The position block beyond its registers. -/
structure PosSt where
  /-- The observer's estimates: x in um, v in um/s, a in um/s^2 (R221). -/
  x : Rat := 0
  v : Rat := 0
  a : Rat := 0
  /-- Source offset O in um (R217). -/
  off : Rat := 0
  /-- D0, and whether the present excursion has been reported (R219). -/
  d0 : Rat := 0
  beyond : Bool := false
  /-- Consecutive updates with |e| beyond POS_TRACK_ERR_MAX (R223). -/
  errRun : Nat := 0
  /-- The six channel counts at the last updates, newest first, at most 1,000 (R223). -/
  hist : List (List Int) := []
  /-- Channels kept out of use since a fault until a START (R210). -/
  barred : Nat := 0
  /-- The counter value at which coasting began (R220). -/
  coastAt : Nat := 0
  /-- The counter value of the last update's sample instant. -/
  sample : Nat := 0
  enc : NMap EncSt := []
  ssi : NMap SsiSt := []
  cmp : NMap CmpSt := []
  emu : NMap EmuSt := []
  adc : NMap AdcSt := []
  deriving DecidableEq, Repr

/-! ## DRAM and the fabric arbiter (R394-R414) -/

/-- A request of an arbiter port to a channel: a burst-aligned channel-local address, and for a write the offset in the
burst and its bytes. -/
structure MemReq where
  port : Nat
  addr : Nat
  write : Option (Nat × List Byte) := none
  /-- The read of a system block's copy 1 in place of an uncorrectable copy 0: the channel and address to rewrite (R397). -/
  rewrite : Option (Nat × Nat) := none
  deriving DecidableEq, Repr

/-- One DRAM channel, its controller queue and its arbiter, beyond their registers. -/
structure ChanSt where
  /-- Current slot (R408). -/
  slot : Nat := 0
  /-- The holder: port, 256-byte run, bursts it may still place. -/
  holder : Option (Nat × Nat × Nat) := none
  /-- Last port granted in each PRIO level. -/
  lastGrant : NMap Nat := []
  /-- Pending queue of each port (R409). -/
  pend : NMap (List MemReq) := []
  /-- Granted reads whose burst is under way. -/
  reads : List MemReq := []
  /-- This arbiter's active slot table; empty before its first swap. -/
  table : List Byte := []
  swapWait : Bool := false
  /-- Times of the corrected codewords of each device (rank * 8 + device) and of the uncorrectable ones within the last
  second (R400, R404). -/
  ce : NMap (List Nat) := []
  ue : List Nat := []
  /-- The last 16 commands, newest first: 0 read, 1 write, 2 self-refresh entry; and the address (R402). -/
  retry : List (Nat × Nat) := []
  /-- Replays in a row that met a further alert. -/
  alertRun : Nat := 0
  /-- DQS delay taps corrected (R403). -/
  taps : Int := 0
  /-- Next burst the patrol scrub reads (R399). -/
  scrub : Nat := 0
  /-- Self-refresh has been asked for (R406). -/
  srAsked : Bool := false
  deriving DecidableEq, Repr

/-- The memory. -/
structure MemSt where
  chans : NMap ChanSt := []
  /-- The stored word of each burst, 40 symbols, at channel * 2^28 + burst; an empty or unlisted one is the all-zero word. -/
  words : NMap (List Nat) := []
  /-- The healthy list under which the system region lies (R397). -/
  sysList : List Nat := [0, 1, 2, 3]
  /-- A slot table of the placement engine waits for SWAP_PENDING to clear (R413). -/
  planDue : Bool := false
  deriving DecidableEq, Repr

/-! ## The safety partition (R442-R467) -/

/-- An input that a pulsed source feeds (R445, R449). -/
structure PulseIn where
  /-- Closed, as the last sample that counted read it; and as it read before the own pulse in progress. -/
  on : Bool := false
  was : Bool := false
  /-- It has read off in the own pulse in progress. -/
  off : Bool := false
  /-- Own pulses passed in a row. -/
  passes : Nat := 0
  /-- Evaluation at which it last closed. -/
  closedAt : Nat := 0
  deriving DecidableEq, Repr

/-- The partition beyond its registers. -/
structure SafeSt where
  /-- K_I in force; empty while KEY_ID is 0. -/
  ki : List Byte := []
  /-- The two MRAM copies (R463): sequence number and the 128 bytes; no bytes stand for the factory set, none for an
  invalid copy. -/
  copyA : Option (Nat × List Byte) := some (0, [])
  copyB : Option (Nat × List Byte) := some (0, [])
  /-- TEMPS reports of the copy port not yet examined: bar, temperatures, LOCAL_STOP (R443, R454). -/
  copies : List (Nat × List Int × Nat) := []
  /-- Evaluations made (R447). -/
  evals : Nat := 0
  /-- ESTOP1_IN, ESTOP2_IN and KEY_IN. -/
  ins : NMap PulseIn := []
  /-- Evaluation at which exactly one channel became closed. -/
  split : Option Nat := none
  /-- Both channels have been open together since a fault was latched. -/
  opened : Bool := false
  /-- Evaluation at which the outputs were last commanded to change, and whether the readback has shown off since. -/
  cmdAt : Nat := 0
  seenOff : Bool := true
  /-- Evaluations in a row at which each output reads off while commanded on. -/
  low : NMap Nat := []
  /-- Counter value of the last passed test of each channel (R448). -/
  tested : NMap Nat := []
  /-- Counter value since which the speed lies below 95 % of SPEED_TRIP (R453). -/
  slowFrom : Option Nat := none
  /-- Heads over in the last report, by 24 bar + head; reports in a row of each bar without one (R454). -/
  hot : NMap Bool := []
  calm : NMap Nat := []
  /-- Counter value of the entry to the safe state, its fault bit; the last reset request (R458). -/
  safeAt : Option Nat := none
  safeBit : Nat := 0
  lastReset : Option (Nat × Nat) := none
  /-- The reset request of this entry has been made or is withheld. -/
  asked : Bool := false
  deriving DecidableEq, Repr

/-! ## Cameras and the vision pipeline (R332-R353) -/

/-- The stamps of a line trigger (R336): grid index, line position in um, line time. -/
structure Stamp where
  g : Int
  pos : Rat
  time : Nat
  deriving DecidableEq, Repr

/-- The line triggers from one frame-start trigger to the next (R337), and the grid indexes skipped among them. -/
structure TrigFrame where
  id : Nat
  stamps : List Stamp := []
  skipped : Nat := 0
  deriving DecidableEq, Repr

/-- A received line that waits for the pipeline (R341): its index in the frame and its 73,728 samples. -/
structure CamLine where
  index : Nat
  bad : Bool
  dropBefore : Bool
  samples : List Nat
  deriving DecidableEq, Repr

/-- What an occurrence of a region gathers (R347, R368). -/
structure RegAcc where
  job : Nat
  k : Nat
  /-- It began before the frame. -/
  cut : Bool
  /-- Grid index of its last line, good lines, bad lines. -/
  g : Int
  good : Nat := 0
  bad : Nat := 0
  /-- PATCH: sum of R of each band. -/
  sums : List Nat := [0, 0, 0, 0, 0, 0]
  /-- MARK: sums of w, of w times pixel and of w times position. -/
  w : Nat := 0
  wp : Nat := 0
  wx : Rat := 0
  /-- AWL: sums of R of each pixel and band, and lines, by row of dashes. -/
  rows : NMap (List Nat) := []
  lines : NMap Nat := []
  deriving DecidableEq, Repr

/-- What a frame has of a region: occurrences, one of them cut by a frame boundary, the last complete one. -/
structure RegRes where
  count : Nat := 0
  cut : Bool := false
  last : Option RegAcc := none
  deriving DecidableEq, Repr

/-- An open frame (R337-R350). -/
structure FrameSt where
  no : Nat
  /-- The frame-start trigger it belongs to. -/
  trig : Option Nat
  cal : Bool
  bank : Nat
  formatBad : Bool
  arrived : Nat := 0
  kept : Nat := 0
  discarded : Nat := 0
  badLines : Nat := 0
  dropped : Nat := 0
  /-- The line that arrived last was dropped. -/
  lastDropped : Bool := false
  /-- Histogram bins by 64 band + bin. -/
  hist : NMap Nat := []
  acc : NMap (Option RegAcc) := []
  res : NMap RegRes := []
  /-- Archive slot it goes to, and its line records. -/
  slot : Option Nat := none
  archive : List Byte := []
  /-- Sums of the samples of its good lines in 1/16 count, while a calibration runs (R496). -/
  calSums : List Nat := []
  calLines : Nat := 0
  deriving DecidableEq, Repr

/-- A running camera calibration (R496): CAL 7 or 8, frames to come, the order to restore, the sums of the frames counted. -/
structure CamCal where
  kind : Nat
  left : Nat
  order : Nat
  sums : List Nat := []
  lines : Nat := 0
  deriving DecidableEq, Repr

/-- One camera beyond its registers. -/
structure CamSt where
  /-- Highest grid index triggered or skipped, and the counter value of the last trigger. -/
  gTop : Option Int := none
  lastTrig : Option Nat := none
  trigs : List TrigFrame := []
  nextTrig : Nat := 0
  /-- Frame-start triggers to which an image header has been bound. -/
  bound : Nat := 0
  /-- FMODE 1: FUNIT has fired since the last frame-start trigger. -/
  armed : Bool := false
  /-- A frame starts with the next line trigger in any mode: acquisition has just started. -/
  fresh : Bool := false
  /-- Lines that wait, oldest first. -/
  queue : List CamLine := []
  frame : Option FrameSt := none
  /-- Next frame number. -/
  nextNo : Nat := 0
  /-- Grid index and noise-reduced samples of the line before, when it was good. -/
  prev : Option (Int × List Nat) := none
  /-- Statistics ring: the newest 4,096 records with their frame numbers, oldest first. -/
  ring : List (Nat × List Byte) := []
  /-- Archive slots: frame number and bytes. -/
  slots : NMap (Option (Nat × List Byte)) := []
  /-- Correction banks as calibrations wrote them; an unlisted bank holds the configuration table. -/
  banks : NMap (List Byte) := []
  cal : Option CamCal := none
  deriving DecidableEq, Repr

/-! ## Colour and register loops (R354-R372) -/

/-- A ramp of a bar (R362). -/
structure Ramp where
  /-- Corrections before and after, by variable: head-level keys (bar * 24 + head) * 8 + knot, segment-level keys
  (bar * 1536 + segment) * 8 + knot. -/
  deltas : List (Nat × Int × Int)
  epss : List (Nat × Int × Int)
  steps : Nat
  dist : Nat
  /-- The step posted last, its line, job, bank and SEQ. -/
  k : Nat
  line : Nat
  job : Nat
  bank : Nat
  seq : Nat
  /-- HOLD stops the ramp at this step. -/
  stop : Bool := false
  deriving DecidableEq, Repr

/-- The settle line of a variable: the job whose lines it counts in, and the line (R356). -/
structure Settle where
  job : Nat := 0
  line : Nat := 0
  deriving DecidableEq, Repr

/-- The loops beyond their registers. -/
structure LoopSt where
  /-- Local time up to which the multiples of the colour and the register cycle have been served (R376). -/
  colServed : Nat := 0
  regServed : Nat := 0
  /-- Base Last table of each bar whose colour loop was switched ON; an empty one is the identity. -/
  base : NMap (List Byte) := []
  delta : NMap Int := []
  eps : NMap Int := []
  /-- Settle lines: bar-level, of heads (bar * 24 + head), of segments (bar * 1536 + segment), of register loops. -/
  settle : NMap Settle := []
  headSettle : NMap Settle := []
  segSettle : NMap Settle := []
  regSettle : NMap Settle := []
  ramps : NMap (Option Ramp) := []
  /-- Causes for which a head is frozen (mask of R372's causes), and the segments frozen for SUSPECT nozzles. -/
  frozen : NMap Nat := []
  segFrozen : NMap Bool := []
  /-- SEQ of the first record the next cycle of each loop reads (R357). -/
  colFrom : Nat := 0
  regFrom : Nat := 0
  /-- Post line, target and SEQ of the last BAR_PHASE the loop posted for a bar, while it is pending. -/
  regPend : NMap (Option (Nat × Nat)) := []
  /-- Not-firing counts of each head (bar * 24 + head), one for each nozzle (R369). -/
  awl : NMap (List Nat) := []
  /-- Cause of the hold in progress (R371): 1 takeover, 2 plane restart. -/
  heldCause : Nat := 0
  deriving DecidableEq, Repr

/-! ## Time, triggers and network (R373-R393) -/

/-- The servo, local time and the trigger units beyond their registers. -/
structure TimeSt where
  /-- N_base in 2^-16 ns and C_base (R374). -/
  nBase : Nat := 0
  cBase : Nat := 0
  /-- The integrator in ppb (R379). -/
  i : Rat := 0
  /-- The source has delivered an update since full reset; the next update resumes from a holdover (R380, R382). -/
  started : Bool := false
  resume : Bool := false
  /-- |theta| of the last 16 updates in ns, newest first. -/
  thetas : List Rat := []
  /-- Consecutive updates within TIME_LOCK_THR. -/
  lockRun : Nat := 0
  /-- Counter value of the last update. -/
  lastAt : Nat := 0
  /-- Grandmaster identity and parent port of the PTP source in use. -/
  master : Option (Nat × Nat) := none
  newMaster : Bool := false
  /-- The wire-disagree monitor of the PPS_IN pair reports a fault (R56). -/
  ppsWire : Bool := false
  /-- PPS_OUT is high; the last second it has pulsed. -/
  ppsHigh : Bool := false
  ppsLast : Option Nat := none
  /-- Firings of each trigger unit since it was armed. -/
  fired : NMap Nat := []
  deriving DecidableEq, Repr

/-- A transmit time stamp (R387): identifier, and local time in 2^-16 ns. -/
structure TsEntry where
  id : Nat
  time : Nat
  deriving DecidableEq, Repr

/-- An Ethernet port and its PTP port beyond their registers. -/
structure NetPort where
  tsq : List TsEntry := []
  /-- The best foreign master of the port: its sourcePortIdentity and data. -/
  best : Option (Nat × PtpAnnounce) := none
  /-- A two-step Sync that waits for its Follow_Up: source, sequence, ingress time, correction, logMessageInterval. -/
  sync : Option (Nat × Nat × Nat × Int × Int) := none
  /-- t2 - t1 of the last Sync in 2^-16 ns. -/
  ms : Option Int := none
  /-- The Delay_Req or Pdelay_Req outstanding: sequence, and its egress time once read from the queue. -/
  req : Option (Nat × Option Nat) := none
  /-- A two-step Pdelay_Resp that waits for its Follow_Up: sequence, request receipt time, ingress time, correction. -/
  resp : Option (Nat × Nat × Nat × Int) := none
  /-- Sequence number of the next message the port sends. -/
  seq : Nat := 0
  deriving DecidableEq, Repr

/-! ## Serial lanes (R312-R331) -/

/-- The lanes beyond their registers. -/
structure LaneBlk where
  /-- CDR_BW in force of each lane. -/
  bw : NMap Nat := []
  /-- ALT_REQ as it stood when each lane last trained. -/
  alt : NMap Nat := []
  /-- The eye scan that runs: its lane, and whether the host asked for it; whether its lane has been down in it. -/
  scan : Option (Nat × Bool) := none
  scanDown : Bool := false
  /-- The host's scan that waits, and the margin scans that wait (R326, R327, R491). -/
  hostNext : Option Nat := none
  queue : List Nat := []
  deriving DecidableEq, Repr

/-! ## Power, hot swap and start-up (R41, R43, R63-R66, R73, R468-R484) -/

/-- Power and presence beyond the registers. -/
structure PwrSt where
  /-- The power state before DOZE, or before the entry in progress (R470, R474). -/
  prev : Nat := 0
  /-- An entry in progress: target and whether the shelf asked for it. -/
  target : Nat := 0
  shelf : Bool := false
  /-- Agents that have not answered in the present phase, the one asked first; agents stopped, last first. -/
  agents : List Nat := []
  stopped : List Nat := []
  /-- Counter value at the start of the present phase. -/
  phaseAt : Nat := 0
  /-- Wake events latched (R479): code and trigger unit, oldest first. -/
  latched : List (Nat × Nat) := []
  /-- Domain starts that wait: number of the step in the table of R481, and windows waited. -/
  steps : List (Nat × Nat) := []
  /-- The wake in progress: source, replayed, state left, unit. -/
  waking : Option (Nat × Bool × Nat × Nat) := none
  /-- WAKE# is driven low. -/
  wakePin : Bool := false
  /-- CLKREQ# is driven low (R52). -/
  clkReq : Bool := true
  /-- The J2 transmitters and ROLE are enabled (R63). -/
  j2 : Bool := true
  /-- EJECT is open; a forced removal waits for the PRESENT pins; power-fail warning has been raised. -/
  ejected : Bool := false
  removed : Bool := false
  failing : Bool := false
  /-- Start-up stays at step 4 (R74). -/
  stuck : Bool := false
  /-- The base plate has been above 70 degC since the last report of it (R41). -/
  hot : Bool := false
  /-- The strap pins now, coded as SYS_STRAPS; a reset latches them (R47). -/
  straps : Nat := 0x20
  deriving DecidableEq, Repr

/-! ## Health and firmware images (R485-R505) -/

/-- A firmware image in flash (R503, R504): its bytes, and whether it may be written on at its end; a factory image's
bytes are not held. -/
structure ImgSt where
  bytes : List Byte := []
  open_ : Bool := false
  factory : Bool := false
  deriving DecidableEq, Repr

/-- Health beyond the registers. -/
structure HealthSt where
  /-- Daily samples of each margin, newest first: POH and value (R487). -/
  samples : NMap (List (Nat × Int)) := []
  /-- Margins reported low, and exhausted, since the last full reset, as masks. -/
  lowSent : Nat := 0
  goneSent : Nat := 0
  /-- Width of the latest margin scan of each lane, and the scans in a row below the limits (R489). -/
  widths : NMap Nat := []
  badScans : NMap Nat := []
  /-- Channels whose interval oscillator has drifted 2 taps or more between two reads, as a mask (R489). -/
  drifted : Nat := 0
  /-- Images A and B. -/
  imgs : NMap ImgSt := [(0, { factory := true })]
  deriving DecidableEq, Repr

/-- The module without its command queue. -/
structure Dev where
  /-- The time counter C (R374). -/
  tc : Nat
  /-- Every register that is not RWH, by BAR0 address; an unlisted register reads 0. -/
  regs : NMap Word
  log : LogSt := {}
  host : HostSt := {}
  cfg : CfgSt := {}
  job : JobSt := {}
  ctl : CtlSt := {}
  strip : StripSt := {}
  rast : RastSt := {}
  fire : FireSt := {}
  lace : NMap LaceSt := []
  pair : PairSt := {}
  pos : PosSt := {}
  mem : MemSt := {}
  safe : SafeSt := {}
  cam : NMap CamSt := []
  /-- The lines that the vision pipeline has processed in the last second, newest first: time-counter value, RCLK cycles and camera
  (R341, VPIPE_LOAD). -/
  visUse : List (Nat × Nat × Nat) := []
  loop : LoopSt := {}
  time : TimeSt := {}
  net : NMap NetPort := []
  lane : LaneBlk := {}
  pwr : PwrSt := {}
  hlth : HealthSt := {}
  /-- What the module has handed to its transmitters, oldest first. -/
  tx : List Tx := []
  /-- The model's own counter of free values used (`Config.freeWord`, `Config.freeByte`). -/
  freeCtr : Nat := 0
  deriving DecidableEq, Repr

/-- The module with the commands that wait, first in, first out. -/
structure State where
  dev : Dev
  pending : List Instr := []
  deriving DecidableEq, Repr

/-- Faults. -/
inductive Fault where
  /-- Raised by no meaning: every command runs on every operand (log entry 6).  Safe. -/
  | illFormed (mnemonic : String)
  deriving DecidableEq, Repr

/-- Refusals. -/
inductive Refusal where
  /-- Raised by the dispatch for a command that has no meaning yet.  Safe. -/
  | notModelled (mnemonic : String)
  deriving DecidableEq, Repr

/-- The module in HOLD at the end of its first start-up (R73), with a factory-new NVM. -/
def Dev.reset : Dev where
  tc := 0
  regs := resetRegs
  cfg := { force := { regs := resetRwh } }
  ctl := { known := healthOf resetRegs }

/-- The state after reset: no command waits. -/
def State.reset : State where
  dev := Dev.reset

end Sys2Proof.Machine
end

