-- ==== Sys2Proof/Machine/Ops.lean ====
section
/-!
DEFINITION. The named operations over the module's state: register access, the event log, interrupts, completion of
commands and the host's view of a register.  Every meaning is built from these.
-/

namespace Sys2Proof.Machine

/-! ## Registers -/

/-- A register that is not RWH. -/
def Dev.rd (d : Dev) (a : Nat) : Nat := (mapGet 0 d.regs a).toNat

/-- Set a register that is not RWH. -/
def Dev.wr (d : Dev) (a v : Nat) : Dev := { d with regs := mapSet 0 d.regs a (BitVec.ofNat 32 v) }

/-- A field of a register. -/
def Dev.rdF (d : Dev) (a lo n : Nat) : Nat := fld (d.rd a) lo n

/-- Set a field of a register. -/
def Dev.wrF (d : Dev) (a lo n v : Nat) : Dev := d.wr a (putFld (d.rd a) lo n v)

/-- Bit `i` of a register. -/
def Dev.bit (d : Dev) (a i : Nat) : Bool := bitOf (d.rd a) i

/-- Set bit `i` of a register. -/
def Dev.wrBit (d : Dev) (a i : Nat) (b : Bool) : Dev := d.wrF a i 1 (b2n b)

/-- A signed register. -/
def Dev.rdS (d : Dev) (a : Nat) : Int := sgn 32 (d.rd a)

/-- Set a signed register. -/
def Dev.wrS (d : Dev) (a : Nat) (v : Int) : Dev := d.wr a (uns 32 v)

/-- A 64-bit quantity in a LO register and the HI register after it. -/
def Dev.rd64 (d : Dev) (a : Nat) : Nat := d.rd a + d.rd (a + 4) * 0x100000000

/-- Set a 64-bit quantity, modulo 2^64. -/
def Dev.wr64 (d : Dev) (a v : Nat) : Dev := (d.wr a v).wr (a + 4) (v / 0x100000000)

/-- A signed 64-bit quantity. -/
def Dev.rdS64 (d : Dev) (a : Nat) : Int := sgn 64 (d.rd64 a)

/-- Set a signed 64-bit quantity, modulo 2^64. -/
def Dev.wrS64 (d : Dev) (a : Nat) (v : Int) : Dev := d.wr64 a (uns 64 v)

/-- Add to a counter that saturates at 0xFFFF_FFFF. -/
def Dev.bumpBy (d : Dev) (a k : Nat) : Dev := d.wr a (min (d.rd a + k) 0xFFFFFFFF)

/-- Add 1 to a counter that saturates at 0xFFFF_FFFF. -/
def Dev.bump (d : Dev) (a : Nat) : Dev := d.bumpBy a 1

/-- An RWH register in force. -/
def Dev.cf (d : Dev) (a : Nat) : Nat := (mapGet 0 d.cfg.force.regs a).toNat

/-- A field of an RWH register in force. -/
def Dev.cfF (d : Dev) (a lo n : Nat) : Nat := fld (d.cf a) lo n

/-- Bit `i` of an RWH register in force. -/
def Dev.cfB (d : Dev) (a i : Nat) : Bool := bitOf (d.cf a) i

/-- The feature bit is accepted and the set is locked (R77, R78). -/
def Dev.feat (d : Dev) (n : Nat) : Bool :=
  d.bit Reg.SYS_STATUS 9 && d.bit (Reg.SYS_FEAT_ACCEPT (n / 32)) (n % 32)

/-- Publish a result in a status register that holds SEQ in [15:0] and VALID in [16] (R104): SEQ + 1 with VALID = 1. -/
def Dev.publish (d : Dev) (a : Nat) : Dev := (d.wrF a 0 16 (d.rdF a 0 16 + 1)).wrBit a 16 true

/-- Write consecutive words from a register upward. -/
def Dev.wrWords (d : Dev) (a : Nat) (ws : List Nat) : Dev :=
  { d with regs := mapWriteWords 0 d.regs a (ws.map (BitVec.ofNat 32)) }

/-! ## Module state (SYS_STATUS, R75, R113) -/

/-- SYS_STATUS.STATE is HOLD. -/
def Dev.inHold (d : Dev) : Bool := d.rdF Reg.SYS_STATUS 0 4 == 1

/-- SYS_STATUS.STATE is SERVICE. -/
def Dev.inService (d : Dev) : Bool := d.rdF Reg.SYS_STATUS 0 4 == 2

/-- SYS_STATUS.STATE is RECOVERY. -/
def Dev.inRecovery (d : Dev) : Bool := d.rdF Reg.SYS_STATUS 0 4 == 3

/-- Nothing but the heel domain works: start-up stays at step 4 (R74), the module is in SLEEP, DEEP_SLEEP or OFF (R468), or
its power has failed (R43). -/
def Dev.halted (d : Dev) : Bool := d.pwr.stuck || d.pwr.failing || decide (3 ≤ d.rdF Reg.PWR_STATUS 0 3)

/-- R470: a host write in DOZE returns the module to the state before. -/
def Dev.dozeExit (d : Dev) : Dev :=
  if d.rdF Reg.PWR_STATUS 0 3 = 2 then d.wrF Reg.PWR_STATUS 0 3 d.pwr.prev else d

/-- The feature set is locked. -/
def Dev.featLocked (d : Dev) : Bool := d.bit Reg.SYS_STATUS 9

/-- This module's slot: 0 A, 1 B (R47). -/
def Dev.slot (d : Dev) : Nat := d.rdF Reg.SYS_STRAPS 0 1

/-- Bar b is enabled in the configuration in force. -/
def Dev.barEn (d : Dev) (b : Nat) : Bool := d.cfB Reg.FIRE_BAR_EN b

/-- The enabled bars, rising. -/
def Dev.enBars (d : Dev) : List Nat := bitsOf 8 (d.cf Reg.FIRE_BAR_EN)

/-! ## What leaves the module -/

/-- Hand something to a transmitter. -/
def Dev.send (d : Dev) (t : Tx) : Dev := { d with tx := d.tx ++ [t] }

/-- Use a free value: the counter of `Config.freeWord` advances. -/
def Dev.tick (d : Dev) : Dev := { d with freeCtr := d.freeCtr + 1 }

/-! ## Interrupts (R101) -/

/-- Send vector `v`, or set its pending bit while the table masks it. -/
def Dev.vector (d : Dev) (v : Nat) : Dev :=
  if d.bit (Reg.HOSTQ_MSIX_TABLE (4 * v + 3)) 0 then
    d.wrBit (Reg.HOSTQ_MSIX_PBA (v / 32)) (v % 32) true
  else
    d.send (.msix (d.rd64 (Reg.HOSTQ_MSIX_TABLE (4 * v))) (d.rd (Reg.HOSTQ_MSIX_TABLE (4 * v + 2))))

/-- The event vector of a plane: 0 control, 1 data, 2 management. -/
def eventVector (plane : Nat) : Nat := if plane = 0 then 0 else if plane = 1 then 16 else 40

/-! ## The event log (R498-R500) -/

/-- Bytes a record takes in the staging buffer. -/
def recBytes (r : LogRec) : Nat := 48 + r.payload.length

/-- Pad a payload to a whole group of 8 bytes (R498). -/
def pad8 (bs : List Byte) : List Byte := bs ++ List.replicate ((8 - bs.length % 8) % 8) 0

/-- A payload of 64-bit values (R498). -/
def vals (vs : List Nat) : List Byte := vs.flatMap (leBytes 8)

/-- A payload of signed 64-bit values. -/
def ivals (vs : List Int) : List Byte := vs.flatMap (fun v => leBytes 8 (uns 64 v))

/-- Count an outstanding FAULT record in HLTH_STATUS.FAULT_OUT (R499). -/
def Dev.countFault (d : Dev) (ev : Ev) : Dev :=
  if evClass ev = 2 then d.wrF Reg.HLTH_STATUS 0 8 (satU 8 (d.rdF Reg.HLTH_STATUS 0 8 + 1)) else d

/-- Append to the event log (R27, R500): the record takes the next SEQ and the counter value; when the staging buffer
is full it is not stored and HLTH_LOG_DROP counts it. -/
def Dev.append (d : Dev) (origin : Nat) (ev : Ev) (payload : List Byte) : Dev :=
  let seq := d.rd64 Reg.NVM_LOG_NEXT_LO
  let r : LogRec := ⟨seq, d.tc, ev, origin, pad8 payload⟩
  let d1 := (d.wr64 Reg.NVM_LOG_NEXT_LO (seq + 1)).countFault ev
  if ((d1.log.staging.map recBytes).sum + recBytes r) ≤ 0x100000 then
    let d2 := { d1 with log := { d1.log with staging := d1.log.staging ++ [r] } }
    if d2.log.ring.isEmpty && d2.log.staging.length == 1 then d2.wr64 Reg.NVM_LOG_OLDEST_LO seq else d2
  else d1.bump Reg.HLTH_LOG_DROP

/-- The control plane takes over the health of the parts as the data plane has it (R22, R137): log entry 94. -/
def Dev.takeHealth (d : Dev) (seq : Nat) : Dev := { d with ctl := { known := healthOf d.regs, seq := seq } }

/-- An event that the data plane has stored in the log and that reports a part's health reaches the control plane, which learns
part health from nothing else (R22, R137, R138). -/
def Dev.learn (d : Dev) (ev : Ev) (seq : Nat) : Dev := if isHealthEvent ev then d.takeHealth seq else d

/-- Append an event of a plane and signal the event vector of the data or the management plane (R101, R270); a stored event of the
data plane may teach the control plane (R137). -/
def Dev.event (d : Dev) (origin : Nat) (ev : Ev) (payload : List Byte) : Dev :=
  let d1 := d.append origin ev payload
  if origin = 1 then
    let d2 := d1.vector 16
    if d.log.staging.length < d1.log.staging.length then d2.learn ev (d.rd64 Reg.NVM_LOG_NEXT_LO) else d2
  else if origin = 2 then d1.vector 40
  else d1

/-- R10: record an ignored write with its address and value. -/
def Dev.writeIgnored (d : Dev) (a v : Nat) : Dev := d.append 0 .writeIgnored (vals [a, v])

/-! ## The host's view of a register -/

/-- LACEb_HMEM: a word of the head memory that LACEb_HMEM_SEL selects, as read at link-up (R288). -/
def Dev.hmemWord (d : Dev) (a : Nat) : Nat :=
  let b := a / 0x10000 - 0x1A
  let m := mapGet [] (mapGet {} d.lace b : LaceSt).hmem (d.rdF (Reg.LACE_HMEM_SEL b) 0 5)
  numAt m (a % 0x10000 - 0x2000) 4

/-- PWR_STATUS.READY_GATED: in READY, the bars without a SCHEDULED or PRINTING job (R468, R470). -/
def Dev.readyGated (d : Dev) : Nat :=
  let busy : Nat → Bool := fun b =>
    d.job.jobs.any (fun j => (j.phase == .scheduled || j.phase == .printing) && bitOf j.barMask b)
  if d.rdF Reg.PWR_STATUS 0 3 = 1 then (List.range 8).foldl (fun m b => if busy b then m else m + 2 ^ b) 0 else 0

/-- A block that does not answer in RECOVERY: every one but SYS, HOSTQ, HEEL and NVM (R74). -/
def silentBlock (a : Nat) : Bool := !(rowsOfBlock (a / 0x10000)).isEmpty && !(([0, 1, 4, 0x29] : List Nat).contains (a / 0x10000))

/-- CLK_ROOT_DEV: the deviation of SHREF from the TCXO (R69), which the module compares all the time; 0 while the TCXO is the root, the
deviation that the fault found while REF_FAULT is set, and otherwise whatever the comparison gives at this moment. -/
def Dev.rootDev (d : Dev) : Nat :=
  if d.bit Reg.CLK_STATUS 3 then d.rd Reg.CLK_ROOT_DEV
  else if d.bit Reg.CLK_STATUS 0 then 0
  else (Config.rootDev d.tc).toNat

/-- VPIPE_LOAD: pipeline cycles used per 1,000 over the last second, of 800 million (R341). -/
def Dev.visLoad (d : Dev) : Nat :=
  (((d.visUse.filter (fun x => decide (d.tc < x.1 + 400000000))).map (fun x => x.2.1)).sum) / 800000

/-- What a host read of a BAR0 address returns (R8, R11, R81, R90, R509): a write-only or unassigned address reads 0, as does a block
that does not answer in RECOVERY; an RWH register reads the staging image while a session is open; reading changes nothing (R9). -/
def Dev.hostRead (d : Dev) (a : Nat) : Nat :=
  if d.inRecovery && silentBlock a then 0
  else if a = Reg.CLK_ROOT_DEV then d.rootDev
  else if a = Reg.VPIPE_LOAD then d.visLoad
  else if a = Reg.PWR_STATUS then putFld (d.rd a) 7 8 d.readyGated
  else if 0x1A0000 ≤ a ∧ a < 0x220000 ∧ 0x2000 ≤ a % 0x10000 ∧ a % 0x10000 < 0x4000 then d.hmemWord a
  else
    match rowAt a with
    | none => 0
    | some r =>
      match r.acc with
      | .wo => 0
      | .rwh =>
        match d.cfg.session with
        | some img => (mapGet 0 img.regs a).toNat
        | none => d.cf a
      | _ => d.rd a

/-! ## Queues and completion (R92-R105) -/

/-- Queue pair q. -/
def Dev.qs (d : Dev) (q : Nat) : QSt := mapGet {} d.host.qs q

/-- Replace queue pair q. -/
def Dev.setQs (d : Dev) (q : Nat) (s : QSt) : Dev :=
  { d with host := { d.host with qs := mapSet {} d.host.qs q s } }

/-- SQ and CQ sizes in entries. -/
def Dev.sqSize (d : Dev) (q : Nat) : Nat := 2 ^ d.rdF (Reg.HOSTQ_Q_SIZE q) 0 4
def Dev.cqSize (d : Dev) (q : Nat) : Nat := 2 ^ d.rdF (Reg.HOSTQ_Q_SIZE q) 4 4

/-- The plane the pair serves. -/
def Dev.qPlane (d : Dev) (q : Nat) : Nat := d.rdF (Reg.HOSTQ_Q_CTRL q) 1 2

/-- The pair is enabled, and fetches: no doorbell or fetch error has stopped it (R99),
and no entry to a sleep state has passed phase 1 (R473). -/
def Dev.qEnabled (d : Dev) (q : Nat) : Bool := d.bit (Reg.HOSTQ_Q_CTRL q) 0
def Dev.qFetching (d : Dev) (q : Nat) : Bool :=
  d.qEnabled q && !d.bit (Reg.HOSTQ_Q_STATUS q) 1 && !d.bit (Reg.HOSTQ_Q_STATUS q) 3 &&
    !(d.bit Reg.PWR_STATUS 3 && decide (2 ≤ d.rdF Reg.PWR_STATUS 4 3))

/-- Every command that has started and not completed; and those of one pair. -/
def Dev.allOuts (d : Dev) : List Out :=
  d.host.outs ++ d.pair.waits.map PairWait.out ++ d.pair.startWait.toList ++ d.strip.waits.map StripWait.out ++
    d.strip.cmpWait.filterMap CmpJob.out
def Dev.qOuts (d : Dev) (q : Nat) : List Out := d.allOuts.filter (fun o => o.q == q)

/-! ## Compression lanes (R173) -/

/-- The stream that comes first: lowest use, then arrival order. -/
def nextStream (cs : List CmpJob) : Option CmpJob :=
  match (cs.map CmpJob.use).min? with
  | none => none
  | some m => cs.find? (fun c => c.use == m)

/-- The first stream equal to one is replaced. -/
def putStream (c : CmpJob) (new : List CmpJob) : List CmpJob → List CmpJob
  | [] => []
  | x :: xs => if x = c then new ++ xs else x :: putStream c new xs

/-- The lowest compression lane in service that is free. -/
def Dev.freeCmp (d : Dev) : Option Nat :=
  (bitsOf 4 (d.rd Reg.DFL_CMP_OK)).find? (fun m => d.strip.cmpWait.all (fun c => c.lane != some m))

/-- Waiting streams take the free lanes, in their order. -/
def Dev.takeCmp : Nat → Dev → Dev
  | 0, d => d
  | n + 1, d =>
    match d.freeCmp, nextStream (d.strip.cmpWait.filter (fun c => c.lane.isNone)) with
    | some m, some c =>
      Dev.takeCmp n { d with strip := { d.strip with cmpWait := putStream c [{ c with lane := some m }] d.strip.cmpWait } }
    | _, _ => d

/-- DFL_CMPm.USE of every lane. -/
def Dev.showCmp (d : Dev) : Dev :=
  (List.range 4).foldl (fun acc m =>
    acc.wr (Reg.DFL_CMP m) (((acc.strip.cmpWait.find? (fun c => c.lane == some m)).map CmpJob.use).getD 0)) d

/-- R173: a waiting stream takes the first free lane. -/
def Dev.fillCmp (d : Dev) : Dev := (Dev.takeCmp 4 d).showCmp

/-- A stream arrives at the compression lanes. -/
def Dev.addStream (d : Dev) (c : CmpJob) : Dev :=
  ({ d with strip := { d.strip with cmpWait := d.strip.cmpWait ++ [c] } } : Dev).fillCmp

/-- Free CQ slots: a CQ of size N holds N - 1 entries, and every started command owns one (R98). -/
def Dev.cqFree (d : Dev) (q : Nat) : Nat :=
  let n := d.cqSize q
  let used := (d.rdF (Reg.HOSTQ_Q_CQ_TAIL q) 0 16 + n - d.rdF (Reg.HOSTQ_Q_CQ_HEAD q) 0 16) % n
  n - 1 - used - (d.qOuts q).length

/-- Fields of a submission entry (R96). -/
def entOpcode (e : List Byte) : Nat := numAt e 0 2
def entFlags (e : List Byte) : Nat := byteAt e 2
def entPlane (e : List Byte) : Nat := byteAt e 3
def entTag (e : List Byte) : Nat := numAt e 4 2

/-- The plane of a command by its opcode (R109): 0 control, 1 data, 2 management. -/
def opPlane (opc : Nat) : Nat := opc / 256 - 1

/-- The MBOX flag acts: it is set and the mailbox is there (feature MAILBOX, or RECOVERY: R505). -/
def Dev.mboxOn (d : Dev) (e : List Byte) : Bool := bitOf (entFlags e) 0 && (d.feat 2 || d.inRecovery)

/-- Write bytes to host memory. -/
def Dev.toHost (d : Dev) (addr : Nat) (bs : List Byte) : Dev :=
  { d with host := { d.host with hostMem := mapWrite 0 d.host.hostMem addr bs } }

/-- Post the result of a command to the mailbox of a plane (R103): the plane whose pair took the command, also where the opcode
belongs to another plane or to none (R109; log entry 95). -/
def Dev.mailbox (d : Dev) (plane tag status : Nat) (data : List Byte) : Dev :=
  let ws := bytesWords ((data ++ List.replicate 32 0).take 32)
  ((d.wrWords (Reg.HOSTQ_MBOX_DATA plane 0) ws).wr (Reg.HOSTQ_MBOX_TAG_STATUS plane)
    (tag + status * 0x10000)).publish (Reg.HOSTQ_MBOX_STAT plane)

/-- The 16 bytes of a completion entry (R100). -/
def cqEntry (tag status result sqHead q phase : Nat) : List Byte :=
  leBytes 2 tag ++ leBytes 2 status ++ leBytes 4 result ++ leBytes 2 sqHead ++ leBytes 1 q ++ leBytes 1 0 ++ leBytes 4 phase

/-- Send the completion vector of the pair and start a new count (R102). -/
def Dev.completionVector (d : Dev) (q : Nat) : Dev :=
  (d.vector (d.rdF (Reg.HOSTQ_Q_CTRL q) 4 6)).setQs q { d.qs q with unsent := 0 }

/-- Write one completion entry, advance the CQ tail, and signal when AGG_COUNT is reached (R100, R102).  Entries written while IRQ_EN
is 0 count too: "since the last message" names no start of the count (log entry 99). -/
def Dev.postCq (d : Dev) (q tag status result sqHead : Nat) : Dev :=
  let t := d.rdF (Reg.HOSTQ_Q_CQ_TAIL q) 0 16
  let ph := d.rdF (Reg.HOSTQ_Q_CQ_TAIL q) 16 1
  let d1 := d.toHost (d.rd64 (Reg.HOSTQ_Q_CQ_BASE_LO q) + 16 * t) (cqEntry tag status result sqHead q ph)
  let t' := if t + 1 = d.cqSize q then 0 else t + 1
  let ph' := if t + 1 = d.cqSize q then 1 - ph else ph
  let d2 := d1.wr (Reg.HOSTQ_Q_CQ_TAIL q) (t' + ph' * 0x10000)
  let d3 := d2.setQs q { d2.qs q with unsent := (d2.qs q).unsent + 1 }
  if d3.bit (Reg.HOSTQ_Q_CTRL q) 10 && decide (max 1 (d3.rdF (Reg.HOSTQ_Q_AGG q) 0 8) ≤ (d3.qs q).unsent)
  then d3.completionVector q else d3

/-- The Shank lanes that are up (R419). -/
def Dev.shankUpLanes (d : Dev) : List Nat := [0, 1].filter (fun k => d.bit Reg.PAIR_STATUS (6 + k))

/-- One non-heartbeat Shank frame, on lane 0 while it is up and otherwise on lane 1 (R419): SEQ counts from pair formation, and is 0 before it (R420). -/
def Dev.shankOne (d : Dev) (kind flags : Nat) (body : List Byte) : Dev :=
  let seq := if d.bit Reg.PAIR_STATUS 4 then d.pair.txSeq + 1 else 0
  let d1 : Dev := { d with pair := { d.pair with txSeq := seq } }
  d1.send (.shank (d.shankUpLanes.take 1) kind flags (d.rd Reg.PAIR_EPOCH) seq body)

/-- Shank frames of one kind carrying a body: at most 4,096 body bytes each, MORE set on all but the last (R420). -/
def Dev.shankParts (kind : Nat) : Nat → Dev → List Byte → Dev
  | 0, d, _ => d
  | n + 1, d, body =>
    if body.length ≤ 4096 then d.shankOne kind 0 body
    else Dev.shankParts kind n (d.shankOne kind 1 (body.take 4096)) (body.drop 4096)

/-- The STATE frames of an item (R421): each carries ITEM, BAR and OFFSET, and MORE is set on all but the last. -/
def Dev.shankState (item bar : Nat) : Nat → Nat → Dev → List Byte → Dev
  | 0, _, d, _ => d
  | n + 1, off, d, bs =>
    let part := bs.take 4088
    let body := leBytes 1 item ++ leBytes 1 bar ++ leBytes 2 0 ++ leBytes 4 off ++ pad8 part
    if bs.length ≤ 4088 then d.shankOne 9 0 body
    else Dev.shankState item bar n (off + 4088) (d.shankOne 9 1 body) (bs.drop 4088)

/-- Send a non-heartbeat frame to the partner while a Shank lane is up (R419, R420). -/
def Dev.shank (d : Dev) (kind : Nat) (body : List Byte) : Dev :=
  if d.bit Reg.PAIR_STATUS 6 || d.bit Reg.PAIR_STATUS 7 then Dev.shankParts kind (body.length / 4096 + 1) d body else d

/-- The body of a CMD frame (R421). -/
def cmdBody (key digest status result : Nat) : List Byte :=
  leBytes 8 key ++ leBytes 4 digest ++ leBytes 4 status ++ leBytes 4 result ++ leBytes 4 0

/-- A matched command that started on the ACTIVE, or that waits on a module that has become ACTIVE, completes: its CMD frame
(R421, R424). -/
def Dev.cmdDone (d : Dev) (o : Out) (status result : Nat) : Dev :=
  match o.mkey with
  | some (k, g) =>
    if d.rdF Reg.PAIR_STATUS 0 2 ≠ 2 ∧ o.actRes.isNone then d.shank 7 (cmdBody k g status result) else d
  | none => d

/-- Complete a command: mailbox, completion entry, interrupt, in this order (R102, R103); a matched command of the
STANDBY completes OK with the ACTIVE's RESULT, and its own refusal of what the ACTIVE accepted is noted (R424). -/
def Dev.complete (d : Dev) (o : Out) (status result : Nat) (data : List Byte) : Dev :=
  let res := if status = 0 then o.actRes.getD result else result
  let d0 := if o.actRes.isSome && status != 0 then { d with pair := { d.pair with refusedOwn := true } } else d
  let d1 := d0.cmdDone o status res
  let d2 := if d1.mboxOn o.entry then d1.mailbox (d1.qPlane o.q) (entTag o.entry) status data else d1
  if o.post then d2.postCq o.q (entTag o.entry) status res o.sqHead else d2

/-- Keep a command that has started and not completed. -/
def Dev.keep (d : Dev) (o : Out) : Dev := { d with host := { d.host with outs := d.host.outs ++ [o] } }

/-- Complete every kept command that the test selects, in the order they started. -/
def Dev.completeWhere (d : Dev) (p : Out → Bool) (status : Nat) (result : Out → Nat) : Dev :=
  let sel := d.host.outs.filter p
  let d1 := { d with host := { d.host with outs := d.host.outs.filter (fun o => !p o) } }
  sel.foldl (fun acc o => acc.complete o status (result o) []) d1

/-- Status codes of R128. -/
def OK : Nat := 0
def INVALID_OPCODE : Nat := 0x0101
def WRONG_PLANE : Nat := 0x0102
def RESERVED_FIELD : Nat := 0x0103
def FEATURE_NOT_ACCEPTED : Nat := 0x0104
def OUT_OF_RANGE : Nat := 0x0105
def BAD_BUFFER : Nat := 0x0106
def CFG_CHECK_FAILED : Nat := 0x0107
def COMMIT_RESERVED : Nat := 0x0108
def STRIP_ORDER : Nat := 0x0109
def NOT_IN_HOLD : Nat := 0x0201
def IN_HOLD : Nat := 0x0202
def FEATURES_UNLOCKED : Nat := 0x0203
def NO_SESSION : Nat := 0x0204
def SESSION_OPEN : Nat := 0x0205
def NO_STORED_CFG : Nat := 0x0206
def NOT_COMMITTED : Nat := 0x0207
def REF_FAULT_PRESENT : Nat := 0x0208
def COMMIT_LATE : Nat := 0x0209
def NO_SUCH_JOB : Nat := 0x020A
def TABLE_LOCKED : Nat := 0x020B
def PLANE_RESTARTED : Nat := 0x020C
def RECOVERY_ONLY : Nat := 0x020D
def JOB_ID_IN_USE : Nat := 0x020E
def BARS_BUSY : Nat := 0x020F
def JOB_ENDED : Nat := 0x0210
def START_PASSED : Nat := 0x0211
def JOB_ACTIVE : Nat := 0x0212
def BASEPLATE_HOT : Nat := 0x0213
def SLEEP_ABORT : Nat := 0x0214
def IMAGE_RUNNING : Nat := 0x0215
def FW_UNVERIFIED : Nat := 0x0216
def FRAME_GONE : Nat := 0x0217
def CFG_IMAGE_FULL : Nat := 0x0301
def COMMIT_QUEUE_FULL : Nat := 0x0302
def NO_JOB_SLOT : Nat := 0x0303
def REPEAT_STORE_FULL : Nat := 0x0304
def NO_CAPACITY : Nat := 0x0305
def STRIP_TOO_LARGE : Nat := 0x0306
def DMA_READ_ERROR : Nat := 0x0401
def DMA_WRITE_ERROR : Nat := 0x0402
def DMA_ABORTED : Nat := 0x0403
def ENVELOPE_BAD : Nat := 0x0404
def TABLE_CRC : Nat := 0x0405
def CFG_STORE_FAILED : Nat := 0x0406
def FW_SIGNATURE : Nat := 0x0407
def SELF_VERIFY_FAIL : Nat := 0x0408
def DATA_POISONED : Nat := 0x0409
def SAFE_KEY_OPEN : Nat := 0x0501
def SAFE_REJECTED : Nat := 0x0502
def SAFE_CRC : Nat := 0x0503
def SAFE_TIMEOUT : Nat := 0x0504
def NOT_ACTIVE : Nat := 0x0601
def NOT_IN_PAIR : Nat := 0x0602
def PAIR_MISMATCH : Nat := 0x0603
def OUT_OF_STEP : Nat := 0x0604
def TAKEBACK_REFUSED : Nat := 0x0605
def SELFTEST_FAILED : Nat := 0x0701
def ENGINE_FAULT : Nat := 0x0702
def DRAM_FAULT : Nat := 0x0703
def NVM_FAULT : Nat := 0x0704
def LANE_FAULT : Nat := 0x0705

/-- WAKE# is released (R53, R478). -/
def Dev.wakeRelease (d : Dev) : Dev :=
  if d.pwr.wakePin then ({ d with pwr := { d.pwr with wakePin := false } } : Dev).send (.sideband "WAKE#" 1) else d

end Sys2Proof.Machine
end

