-- ==== Sys2Proof/Machine/Flags.lean ====
section
/-!
DEFINITION. The status fields that several chapters read and set: the pair role and step state (PAIR_STATUS, R415), the
reference and self-test flags, and the shared rules that derive a flag from them.
-/

namespace Sys2Proof.Machine

/-- Pair operation runs: feature PAIR accepted and PAIR_CFG.ENABLE = 1 (R415). -/
def Dev.pairOn (d : Dev) : Bool := d.feat 41 && d.cfB Reg.PAIR_CFG 0

/-- The role: 0 NONE, 1 ACTIVE, 2 STANDBY. -/
def Dev.role (d : Dev) : Nat := d.rdF Reg.PAIR_STATUS 0 2

/-- The step state: 0 IN_STEP, 1 OUT_OF_STEP, 2 SYNCING; valid in STANDBY. -/
def Dev.stepState (d : Dev) : Nat := d.rdF Reg.PAIR_STATUS 2 2

/-- The pair is formed (R423); heartbeats of the partner arrive (R432). -/
def Dev.formed (d : Dev) : Bool := d.bit Reg.PAIR_STATUS 4
def Dev.partnerAlive (d : Dev) : Bool := d.bit Reg.PAIR_STATUS 5

/-- The partner's ROLE and STEP as its last heartbeat gave them (PAIR_PARTNER). -/
def Dev.partnerRole (d : Dev) : Nat := d.rdF Reg.PAIR_PARTNER 0 8
def Dev.partnerStep (d : Dev) : Nat := d.rdF Reg.PAIR_PARTNER 8 2

/-- The partner is a STANDBY that is IN_STEP. -/
def Dev.partnerInStep (d : Dev) : Bool := d.partnerAlive && d.partnerRole == 2 && d.partnerStep == 0

/-- This module's slot is the preferred one (PAIR_CFG.PREFERRED). -/
def Dev.preferred (d : Dev) : Bool := d.cfF Reg.PAIR_CFG 1 1 == d.slot

/-- Some Shank lane is up. -/
def Dev.shankUp (d : Dev) : Bool := d.bit Reg.PAIR_STATUS 6 || d.bit Reg.PAIR_STATUS 7

/-- Host, self-test and reference flags. -/
def Dev.selftestFail (d : Dev) : Bool := d.bit Reg.SYS_STATUS 11
def Dev.refFault (d : Dev) : Bool := d.bit Reg.CLK_STATUS 3

/-- SYS_STATUS.CFG. -/
def Dev.cfgField (d : Dev) : Nat := d.rdF Reg.SYS_STATUS 4 3

/-- The module drives its field outputs: never as STANDBY; else always outside a shared shelf, and in one while DRIVING (R51,
PAIR_STATUS). -/
def Dev.driving (d : Dev) : Bool := d.role != 2 && (!d.bit Reg.SYS_STRAPS 6 || d.bit Reg.PAIR_STATUS 8)

/-! ## Local time (R374, R376) -/

/-- Local time N at a counter value, in 2^-16 ns (R374). -/
def Dev.localAt (d : Dev) (c : Nat) : Int :=
  let u : Int := ((c : Int) - (d.time.cBase : Int)) * 163840
  (d.time.nBase : Int) + u + u * d.rdS Reg.TIME_RATE / 1099511627776

/-- Local time now. -/
def Dev.localNow (d : Dev) : Nat := (d.localAt d.tc).toNat

/-- R376: local time has reached a multiple of a period (2^-16 ns) that has not been served yet; a step over several makes the work
due once, and after a step back no multiple already served is due again. -/
def Dev.mulDue (d : Dev) (served p : Nat) : Bool := p != 0 && decide (served ≤ d.localNow / p * p)

/-- The multiples that count as served once the last one reached has been, and when work is enabled: those up to now. -/
def Dev.mulServed (d : Dev) (p : Nat) : Nat := d.localNow / p * p + 1
def Dev.mulFrom (d : Dev) (served : Nat) : Nat := max served (d.localNow + 1)

/-- Microseconds in 2^-16 ns. -/
def usLocal (n : Nat) : Nat := n * 65536000

end Sys2Proof.Machine
end

