-- ==== Sys2Proof/Machine/Operands.lean ====
section
/-!
DEFINITION. The operand forms: the submission entry's parameters and its checks by R110, buffer references (R106), and
the commit point record (R29).
-/

namespace Sys2Proof.Machine

/-! ## Buffer references (R106, R107) -/

/-- One element: address, length, kind word. -/
structure BufElem where
  addr : Nat
  len : Nat
  kind : Nat
  last : Bool
  /-- The reserved bits of KIND are 0. -/
  resOk : Bool
  deriving DecidableEq, Repr

/-- The element at 16 bytes. -/
def elemOf (bs : List Byte) : BufElem :=
  let k := numAt bs 12 4
  ⟨numAt bs 0 8, numAt bs 8 4, k % 4, bitOf k 2, k / 8 == 0⟩

/-- The 16-byte elements of a list segment. -/
def segElems : Nat → List Byte → List BufElem
  | 0, _ => []
  | n + 1, bs => elemOf bs :: segElems n (bs.drop 16)

/-- What a buffer reference resolves to. -/
inductive BufRes where
  /-- It breaks a rule of R106. -/
  | bad
  /-- The read of a list segment fails: the data offset at which its first DATA element would begin, and its address (R107). -/
  | segErr (offset addr : Nat)
  /-- The DATA elements in order: address and length. -/
  | ok (data : List (Nat × Nat))
  deriving DecidableEq, Repr

/-- How the elements of one segment end. -/
inductive SegEnd where
  | bad
  | done (data : List (Nat × Nat)) (count : Nat)
  | more (data : List (Nat × Nat)) (count : Nat) (next : BufElem)
  deriving DecidableEq, Repr

/-- Walk the elements of a segment. -/
def walkSeg (data : List (Nat × Nat)) (count : Nat) : List BufElem → SegEnd
  | [] => .bad
  | e :: es =>
    if e.resOk = false then .bad
    else if e.kind = 0 then
      if e.len = 0 then .bad
      else if e.last then .done (data ++ [(e.addr, e.len)]) (count + 1)
      else walkSeg (data ++ [(e.addr, e.len)]) (count + 1) es
    else if e.kind = 1 then
      if es.isEmpty && !e.last then .more data (count + 1) e else .bad
    else .bad

/-- A LIST element names a well-placed segment: 16-byte aligned, 16 to 65,536 bytes, a multiple of 16. -/
def listOk (e : BufElem) : Bool :=
  e.addr % 16 == 0 && e.len % 16 == 0 && decide (16 ≤ e.len) && decide (e.len ≤ 65536)

/-- Data bytes of an element list. -/
def bufTotal (data : List (Nat × Nat)) : Nat := (data.map Prod.snd).sum

/-- Follow the list segments. -/
def walkSegs (err : Option DmaErr) (data : List (Nat × Nat)) (count : Nat) (e : BufElem) :
    Nat → List (List Byte) → BufRes
  | i, segs =>
    if listOk e = false then .bad
    else if (match err with | some x => x.seg == some i | none => false) then .segErr (bufTotal data) e.addr
    else
      match segs with
      | [] => .bad
      | s :: ss =>
        match walkSeg data count (segElems (e.len / 16) s) with
        | .bad => .bad
        | .done dt c => if c ≤ 65536 ∧ bufTotal dt ≤ 0x100000000 then .ok dt else .bad
        | .more dt c nxt => walkSegs err dt c nxt (i + 1) ss

/-- Resolve a buffer reference; `sgl` is the feature DMA_SGL.  The command's own LIST reference stands in no list, so its LAST bit is
ignored as a DATA reference's is; without DMA_SGL a LIST reference breaks R106 and is no missing feature of R78 (log entry 97). -/
def resolveBuf (sgl : Bool) (ref : List Byte) (dma : Dma) : BufRes :=
  let e := elemOf ref
  if e.resOk = false then .bad
  else if e.kind = 0 then (if e.len = 0 then .bad else .ok [(e.addr, e.len)])
  else if e.kind = 1 && sgl then walkSegs dma.err [] 1 e 0 dma.segs
  else .bad

/-- The buffer reference of a submission entry (bytes 24-39). -/
def entBuf (e : List Byte) : List Byte := (e.drop 24).take 16

/-- The buffer of a started command. -/
def Dev.buffer (d : Dev) (e : List Byte) (dma : Dma) : BufRes := resolveBuf (d.feat 3) (entBuf e) dma

/-- The host address of a data byte of a buffer, by its offset in list order. -/
def dataAddr : List (Nat × Nat) → Nat → Nat
  | [], off => off
  | (a, n) :: es, off => if off < n then a + off else dataAddr es (off - n)

/-- The data offset of the request that fails lies within the buffer. -/
def errOffset (els : List (Nat × Nat)) (x : DmaErr) : Nat := min x.offset (bufTotal els - 1)

/-- R107: append DMA_ERROR with the host address, the data offset and the kind of error; it is an uncorrectable error of the link
(log entry 98). -/
def Dev.dmaErrorEvent (d : Dev) (plane addr offset : Nat) (x : DmaErr) : Dev :=
  (d.append plane .dmaError (vals [addr, offset, x.kind.val])).bump Reg.HOSTQ_UE_COUNT

/-- The data request that fails, if it is not the read of a list segment. -/
def dataErr (dma : Dma) : Option DmaErr :=
  match dma.err with
  | some x => if x.seg.isNone then some x else none
  | none => none

/-- The first `n` bytes a host-to-module transfer delivers. -/
def dmaBytes (dma : Dma) (n : Nat) : List Byte := (dma.data ++ List.replicate (n - dma.data.length) 0).take n

/-- Write bytes to the DATA elements of a buffer in list order. -/
def Dev.scatter (d : Dev) : List (Nat × Nat) → List Byte → Dev
  | [], _ => d
  | (a, n) :: es, bs => if bs.isEmpty then d else (d.toHost a (bs.take n)).scatter es (bs.drop n)

/-- Run a command's transfer from the host: BAD_BUFFER or DMA_READ_ERROR completes the command (R107); otherwise `k` gets
the buffer's length and its bytes.  `chk` runs after the buffer reference is checked and before data moves. -/
def Dev.dmaIn (d : Dev) (o : Out) (dma : Dma) (chk : Nat → Option Nat) (k : Dev → List Byte → Dev) : Dev :=
  match d.buffer o.entry dma with
  | .bad => d.complete o BAD_BUFFER 0 []
  | .segErr off addr =>
    match dma.err with
    | some x => (d.complete o DMA_READ_ERROR off []).dmaErrorEvent (opPlane (entOpcode o.entry)) addr off x
    | none => d
  | .ok els =>
    match chk (bufTotal els) with
    | some st => d.complete o st 0 []
    | none =>
      match dataErr dma with
      | some x =>
        (d.complete o DMA_READ_ERROR (errOffset els x) []).dmaErrorEvent (opPlane (entOpcode o.entry))
          (dataAddr els (errOffset els x)) (errOffset els x) x
      | none => k d (dmaBytes dma (bufTotal els))

/-- Write a command's bytes to its DATA elements: a failing request stops the transfer there and completes the command with
DMA_WRITE_ERROR (R107); otherwise `k` completes it, given the number of bytes written. -/
def Dev.dmaPut (d : Dev) (o : Out) (els : List (Nat × Nat)) (err : Option DmaErr) (bs : List Byte) (k : Dev → Nat → Dev) : Dev :=
  match err with
  | some x =>
    ((d.scatter els (bs.take (errOffset els x))).complete o DMA_WRITE_ERROR (errOffset els x) []).dmaErrorEvent
      (opPlane (entOpcode o.entry)) (dataAddr els (errOffset els x)) (errOffset els x) x
  | none => k (d.scatter els bs) bs.length

/-- Run a command's transfer to the host: the bytes fill the buffer up to its length; a failing request stops the
transfer there (R107).  `k` completes the command, given the number of bytes written. -/
def Dev.dmaOut (d : Dev) (o : Out) (dma : Dma) (bytes : Nat → List Byte) (k : Dev → Nat → Dev) : Dev :=
  match d.buffer o.entry dma with
  | .bad => d.complete o BAD_BUFFER 0 []
  | .segErr off addr =>
    match dma.err with
    | some x => (d.complete o DMA_READ_ERROR off []).dmaErrorEvent (opPlane (entOpcode o.entry)) addr off x
    | none => d
  | .ok els => d.dmaPut o els (dataErr dma) ((bytes (bufTotal els)).take (bufTotal els)) k

/-! ## Commit point records (R29) -/

/-- The record at 32 bytes. -/
def commitOf (b : List Byte) : CommitRec where
  kind := byteAt b 0
  bar := byteAt b 1
  origin := byteAt b 2
  flags := byteAt b 3
  seq := numAt b 4 4
  job := numAt b 8 4
  epoch := numAt b 12 4
  line := numAt b 16 8
  arg := numAt b 24 8

/-- The 32 bytes of a record. -/
def commitBytes (c : CommitRec) : List Byte :=
  leBytes 1 c.kind ++ leBytes 1 c.bar ++ leBytes 1 c.origin ++ leBytes 1 c.flags ++ leBytes 4 c.seq ++ leBytes 4 c.job ++
    leBytes 4 c.epoch ++ leBytes 8 c.line ++ leBytes 8 c.arg

/-! ## The command table (R109, R113, R115, R120, R123) -/

/-- One row: opcode, the states that accept it, and the bits of each parameter byte its layout names. -/
structure CmdInfo where
  opc : Nat
  hold : Bool
  service : Bool
  recovery : Bool
  /-- Offset and mask of each named parameter byte. -/
  bytes : List (Nat × Nat)
  deriving DecidableEq, Repr

/-- Whole bytes `a` to `b`. -/
def span (a b : Nat) : List (Nat × Nat) := (List.range (b + 1 - a)).map (fun i => (a + i, 0xFF))

/-- The commands of the module. -/
def cmdTable : List CmdInfo :=
  [ ⟨0x0101, true, false, false, span 8 8⟩,
    ⟨0x0102, true, false, false, span 8 19 ++ span 24 39⟩,
    ⟨0x0103, true, false, false, span 8 15 ++ [(16, 1)]⟩,
    ⟨0x0104, true, true, false, span 8 19 ++ span 24 39⟩,
    ⟨0x0110, true, false, false, []⟩,
    ⟨0x0111, false, true, false, span 8 8⟩,
    ⟨0x0120, true, true, false, span 8 11 ++ [(12, 1)] ++ span 24 39⟩,
    ⟨0x0121, false, true, false, span 8 12 ++ span 16 23⟩,
    ⟨0x0122, true, true, false, span 8 11⟩,
    ⟨0x0123, true, true, false, span 8 11⟩,
    ⟨0x0130, true, true, false, span 8 39⟩,
    ⟨0x0131, true, true, false, span 8 8 ++ span 24 39⟩ ] ++
  [ ⟨0x0201, true, true, false, span 8 12 ++ [(13, 1)] ++ span 16 19 ++ span 24 39⟩,
    ⟨0x0202, true, true, false, span 8 12 ++ [(13, 1), (14, 3)] ++ span 15 39⟩,
    ⟨0x0210, true, true, false, span 8 15 ++ span 24 39⟩,
    ⟨0x0211, true, true, false, span 8 11 ++ span 24 39⟩,
    ⟨0x0220, false, true, false, span 8 8 ++ span 12 15 ++ [(16, 1)] ++ span 24 39⟩,
    ⟨0x0221, false, true, false, span 8 8 ++ span 12 17 ++ span 24 39⟩ ] ++
  [ ⟨0x0301, true, true, true, span 8 19 ++ span 24 39⟩,
    ⟨0x0302, true, true, false, span 24 39⟩,
    ⟨0x0310, true, true, true, span 8 8 ++ span 12 15 ++ span 24 39⟩,
    ⟨0x0311, true, true, true, span 8 8⟩,
    ⟨0x0312, true, true, true, span 8 8⟩,
    ⟨0x0320, true, true, false, span 8 8 ++ span 16 17 ++ [(20, 0x3F)]⟩,
    ⟨0x0330, true, true, false, []⟩,
    ⟨0x0340, true, false, false, span 12 15 ++ span 24 39⟩,
    ⟨0x0350, true, true, false, span 8 8⟩,
    ⟨0x0360, true, true, false, span 8 8 ++ span 12 15⟩,
    ⟨0x0370, false, true, false, span 8 10⟩ ]

/-- The row of an opcode. -/
def cmdInfo (opc : Nat) : Option CmdInfo := cmdTable.find? (fun c => c.opc == opc)

/-- Every parameter bit the layout does not name is 0 (R110 step 3). -/
def paramsOk (c : CmdInfo) (e : List Byte) : Bool :=
  (List.range 56).all (fun i =>
    let o := i + 8
    let m := match c.bytes.find? (fun x => x.1 == o) with | some x => x.2 | none => 0
    Nat.land (byteAt e o) m == byteAt e o)

/-- No enumerated parameter holds a reserved value (R110 step 3; JOB 0 is reserved: R118). -/
def enumsOk (opc : Nat) (e : List Byte) : Bool :=
  let p8 := byteAt e 8
  let job := numAt e 8 4
  if opc = 0x0101 then decide (p8 ≤ 2)
  else if opc = 0x0111 then decide (p8 ≤ 1)
  else if opc = 0x0121 then decide (job ≠ 0) && decide (byteAt e 12 ≤ 1)
  else if opc = 0x0120 || opc = 0x0122 || opc = 0x0123 || opc = 0x0201 then decide (job ≠ 0)
  else if opc = 0x0202 then decide (job ≠ 0) && decide (byteAt e 15 ≤ 2)
  else if opc = 0x0210 || opc = 0x0211 then
    decide (1 ≤ p8) && decide (p8 ≤ 3) && decide (byteAt e 11 ≤ 1) && (p8 == 3 || byteAt e 10 == 0)
  else if opc = 0x0310 || opc = 0x0311 || opc = 0x0312 then decide (p8 ≤ 1)
  else if opc = 0x0320 then decide (p8 ≤ 4)
  else if opc = 0x0350 then decide (1 ≤ p8) && decide (p8 ≤ 4)
  else if opc = 0x0360 then decide (1 ≤ p8) && decide (p8 ≤ 8)
  else if opc = 0x0370 then decide (p8 ≤ 1) && decide (byteAt e 9 ≤ 2)
  else true

/-- The features a command needs by its opcode and parameters (R110 step 4). -/
def needFeats (opc : Nat) (e : List Byte) : List Nat :=
  let p8 := byteAt e 8
  if opc = 0x0120 then (if bitOf (byteAt e 12) 0 then [18] else [])
  else if opc = 0x0202 then 16 :: (if bitOf (byteAt e 14) 1 then [17] else [])
  else if opc = 0x0210 then (if p8 = 3 then [23] else [])
  else if opc = 0x0320 then (if p8 = 3 then [43] else if p8 = 4 then [44] else [])
  else if opc = 0x0350 then [41]
  else if opc = 0x0370 then (if p8 = 0 then [35] else [36])
  else []

/-- The checks of R110 that hold for every command, steps 1 to 5, in order; `none` when all pass.  Within step 5 the module state
comes before FEATURES_UNLOCKED: the spec gives no order (log entry 99). -/
def Dev.cmdCheck (d : Dev) (q : Nat) (e : List Byte) : Option Nat :=
  match cmdInfo (entOpcode e) with
  | none => some INVALID_OPCODE
  | some c =>
    if opPlane c.opc ≠ d.qPlane q ∨ entPlane e ≠ d.qPlane q then some WRONG_PLANE
    else if 4 ≤ entFlags e ∨ numAt e 6 2 ≠ 0 ∨ paramsOk c e = false ∨ enumsOk c.opc e = false then some RESERVED_FIELD
    else if (needFeats c.opc e).all d.feat = false then some FEATURE_NOT_ACCEPTED
    else if d.inRecovery then (if c.recovery ∧ q = 2 then none else some RECOVERY_ONLY)
    else if d.inHold ∧ c.hold = false then some IN_HOLD
    else if d.inService ∧ c.service = false then some NOT_IN_HOLD
    else if d.featLocked = false ∧ c.recovery = false then some FEATURES_UNLOCKED
    else none

end Sys2Proof.Machine
end

