-- ==== Sys2Proof/Machine/Jobs.lean ====
section
/-!
DEFINITION. Jobs, the speed ceiling, lane sharing and re-planning (R130-R151), pending commit points (R29-R38), and the
end of a job on a bar.
-/

namespace Sys2Proof.Machine

/-! ## Jobs -/

/-- The live job of an identifier. -/
def Dev.findJob (d : Dev) (id : Nat) : Option Job := d.job.jobs.find? (fun j => j.id == id)

/-- The job of an identifier, live or still answered for (R132). -/
def Dev.anyJob (d : Dev) (id : Nat) : Option Job :=
  match d.findJob id with
  | some j => some j
  | none => d.job.ended.find? (fun j => j.id == id)

/-- Apply a function to the live job of an identifier. -/
def Dev.modJob (d : Dev) (id : Nat) (f : Job → Job) : Dev :=
  { d with job := { d.job with jobs := d.job.jobs.map (fun j => if j.id = id then f j else j) } }

/-- Bars of a job. -/
def Job.barList (j : Job) : List Nat := bitsOf 8 j.barMask

/-- The job on one of its bars. -/
def Job.onBar (j : Job) (b : Nat) : JobBar := mapGet {} j.bars b

/-- Scheduled or printing. -/
def Job.active (j : Job) : Bool := j.phase == .scheduled || j.phase == .printing

/-- Some job is SCHEDULED or PRINTING. -/
def Dev.anyActive (d : Dev) : Bool := d.job.jobs.any Job.active

/-- Resolution of a pitch code in dpi (R246). -/
def dpiOf (pitch : Nat) : Nat := if pitch = 0 then 1200 else if pitch = 1 then 900 else if pitch = 2 then 800 else 600

/-- The configured resolution. -/
def Dev.dpi (d : Dev) : Nat := dpiOf (d.cfF Reg.FIRE_CTRL 0 2)

/-- Bytes of an input line (R152). -/
def lineBytes (mode : Nat) : Nat :=
  if mode = 1 then 24576 else if mode = 2 then 12288 else if mode = 3 then 49152 else 98304

/-- Input lines of a run of bar lines: C8-600 serves two bar lines with one (R155). -/
def inputLines (mode n : Nat) : Nat := if mode = 3 then (n + 1) / 2 else n

/-- Decoded size of a strip (R152). -/
def decodedSize (mode n : Nat) : Nat := inputLines mode n * lineBytes mode

/-- The plane of a job on a bar. -/
def Dev.plane (d : Dev) (job b : Nat) : PlaneSt := mapGet {} d.strip.planes (job * 8 + b)

/-- Replace a plane. -/
def Dev.setPlane (d : Dev) (job b : Nat) (p : PlaneSt) : Dev :=
  { d with strip := { d.strip with planes := mapSet {} d.strip.planes (job * 8 + b) p } }

/-- Bytes a stored strip takes (R121). -/
def stripBytes (s : Strip) : Nat := 32 + s.payload.length + 4 * s.check

/-- The firing state of a bar, and its replacement. -/
def Dev.bf (d : Dev) (b : Nat) : BarFire := mapGet {} d.fire.bars b
def Dev.setBf (d : Dev) (b : Nat) (x : BarFire) : Dev :=
  { d with fire := { d.fire with bars := mapSet {} d.fire.bars b x } }

/-- The raster path of a bar, and its replacement. -/
def Dev.br (d : Dev) (b : Nat) : BarRast := mapGet {} d.rast.bars b
def Dev.setBr (d : Dev) (b : Nat) (x : BarRast) : Dev :=
  { d with rast := { d.rast with bars := mapSet {} d.rast.bars b x } }

/-- The banks of a bar, and their replacement. -/
def Dev.bb (d : Dev) (b : Nat) : BarBanks := mapGet {} d.rast.banks b
def Dev.setBb (d : Dev) (b : Nat) (x : BarBanks) : Dev :=
  { d with rast := { d.rast with banks := mapSet {} d.rast.banks b x } }

/-! ## Memory plan (R144) -/

/-- Healthy DRAM channels and decompression lanes. -/
def Dev.channels (d : Dev) : Nat := (bitsOf 4 (d.rd Reg.PLACE_CH_OK)).length
def Dev.dflLanes (d : Dev) : List Nat := bitsOf 24 (d.rd Reg.PLACE_DFL_OK)

/-- The repeat store in bytes. -/
def Dev.repeatStore (d : Dev) : Nat := d.cfF Reg.PLACE_REPEAT 0 5 * 0x40000000

/-- W in MiB for a number of healthy channels, a repeat store in GiB and a number of enabled bars. -/
def winMib (k repGib bars : Nat) : Nat := if bars = 0 then 0 else (16384 * k - 4096 - repGib * 1024) / bars

/-- W in bytes. -/
def Dev.winBytes (d : Dev) : Nat := d.rdF Reg.PLACE_WIN_MIB 0 16 * 0x100000

/-- Re-size the windows (R144). -/
def Dev.resizeWindows (d : Dev) : Dev :=
  d.wrF Reg.PLACE_WIN_MIB 0 16 (satU 16 (winMib d.channels (d.cfF Reg.PLACE_REPEAT 0 5) d.enBars.length))

/-- The module as the control plane sees it: the parts as the health events it has applied left them, and the windows they give
(R22, R137, R144). -/
def Dev.asKnown (d : Dev) : Dev :=
  ({ d with regs := healthRegs.foldl (fun m a => mapSet 0 m a (mapGet 0 d.ctl.known a)) d.regs } : Dev).resizeWindows

/-- Bytes reserved in the repeat store. -/
def Dev.repeatUsed (d : Dev) : Nat := (d.strip.repeatUse.map Prod.snd).sum

/-- Show the repeat store in use. -/
def Dev.showRepeat (d : Dev) : Dev := d.wr Reg.PLACE_REPEAT_USED (cdiv d.repeatUsed 0x100000)

/-! ## Speed ceiling (R139, R140, R142) -/

/-- L_head(b); none with no rated head. -/
def Dev.lHead (d : Dev) (b : Nat) : Option Nat :=
  ((bitsOf 24 (d.rd (Reg.LACE_HEADS_RATED b))).map (fun h => d.rd (Reg.LACE_HEAD_FMAX b h))).min?

/-- P(b) in b/s (R139, R272). -/
def laceRate (lanes : Nat) (slow : Bool) : Nat :=
  if lanes = 2 then (if slow then 14400000000 else 28900000000)
  else if lanes = 1 then (if slow then 7200000000 else 14400000000)
  else 0

/-- L_lace(b). -/
def Dev.lLace (d : Dev) (b : Nat) : Nat :=
  laceRate (d.rdF Reg.PLACE_LACE_OK (2 * b) 1 + d.rdF Reg.PLACE_LACE_OK (2 * b + 1) 1) (d.cfB (Reg.LACE_CFG b) 0) / 196608

/-- U_p in bytes per bar line. -/
def uBytes (mode : Nat) : Nat := if mode = 2 then 12288 else if mode = 4 then 98304 else 24576

/-- B_p. -/
def bBytes (peak : Nat) : Nat := cdiv peak 65536

/-- c_p. -/
def credit (mode peak : Nat) : Nat := min 8 (max 1 (uBytes mode / bBytes peak))

/-- n_max(p). -/
def nMax (chainMax : Nat) : Nat := max 1 (64 / chainMax)

/-- L_dfl(p) with n lanes. -/
def lDfl (mode peak n : Nat) : Nat := n * credit mode peak * 800000000 / uBytes mode

/-- L_cap. -/
def Dev.lCap (d : Dev) (dpi : Nat) : Nat := d.cf Reg.PLACE_SPEED_MAX * dpi / 1524

/-- A line rate as a web speed in mm/min. -/
def toMmMin (l dpi : Nat) : Nat := l * 1524 / dpi

/-- The peak figure placement uses: the declared one, or a larger one observed that a strip boundary has put in its place (R136). -/
def Dev.peak (d : Dev) (j : Job) (b : Nat) : Nat := max (mapGet {} j.planes b).peakBytes (d.plane j.id b).peakUse

/-- Give the spare lanes one at a time to the plane with n < n_max and the lowest l_dfl; ties go to the lowest bar. -/
def giveLanes (mode : Nat) : Nat → List (Nat × PlaneRec × Nat) → List (Nat × PlaneRec × Nat)
  | 0, ps => ps
  | k + 1, ps =>
    let open_ := ps.filter (fun p => p.2.2 < nMax p.2.1.chainMax)
    match (open_.map (fun p => lDfl mode p.2.1.peakBytes p.2.2)).min? with
    | none => ps
    | some m =>
      match open_.find? (fun p => lDfl mode p.2.1.peakBytes p.2.2 == m) with
      | none => ps
      | some best => giveLanes mode k (ps.map (fun p => if p.1 = best.1 then (p.1, p.2.1, p.2.2 + 1) else p))

/-- R142: lanes for the planes of a job out of a number of healthy lanes: bar, plane entry, lanes. -/
def shareLanes (mode healthy : Nat) (ps : List (Nat × PlaneRec)) : List (Nat × PlaneRec × Nat) :=
  giveLanes mode (healthy - ps.length) (ps.map (fun p => (p.1, p.2, 1)))

/-- The planes of a job that count for its ceiling: those of bars not lost (R151), with the peak in use. -/
def Dev.jobPlanes (d : Dev) (j : Job) : List (Nat × PlaneRec) :=
  (j.barList.filter (fun b => !j.lostBars.contains b)).map
    (fun b => (b, { mapGet {} j.planes b with peakBytes := d.peak j b }))

/-- A raster engine serves the bar (PLACE_RE_MAP). -/
def Dev.hasEngine (d : Dev) (b : Nat) : Bool := d.rdF Reg.PLACE_RE_MAP (4 * b) 4 != 0xF

/-- RE8 is free and healthy (R205). -/
def Dev.re8Free (d : Dev) : Bool := !d.bit (Reg.RE_STATUS 8) 4 && !d.bit (Reg.RE_STATUS 8) 5

/-- The bar can print: its node is not quarantined, a Lace lane is up, an engine serves it or RE8 can, a head is rated. -/
def Dev.barCan (d : Dev) (b : Nat) : Bool :=
  d.rdF (Reg.LACE_STATUS b) 0 4 != 7 && decide (0 < d.lLace b) && (d.hasEngine b || d.re8Free) && (d.lHead b).isSome

/-- The ceiling of one plane with n lanes (R140). -/
def Dev.barCeil (d : Dev) (j : Job) (b : Nat) (p : PlaneRec) (n : Nat) : Nat :=
  let m := min (d.lLace b) (lDfl j.mode p.peakBytes n)
  let m' := match d.lHead b with | some h => min m h | none => 0
  if j.rep then m' else min m' (d.winBytes / (2 * bBytes p.peakBytes))

/-- L_dram of a job; a job none of whose planes counts asks nothing of the DRAM, and the limit is none. -/
def Dev.lDram (d : Dev) (j : Job) (ps : List (Nat × PlaneRec)) : Option Nat :=
  let dm := (ps.map (fun p => (if j.rep then 1 else 2) * bBytes p.2.peakBytes)).sum
  if dm = 0 then none else some ((17920000000 * d.channels - d.cf Reg.PLACE_DRAM_RESERVE * 1000000) / dm)

/-- Bar ceilings (bar, lines/s, lanes) and the job ceiling of a job, from the parts now healthy. -/
def Dev.ceilings (d : Dev) (j : Job) : List (Nat × Nat × Nat) × Nat :=
  let ps := d.jobPlanes j
  let bars := (shareLanes j.mode d.dflLanes.length ps).map (fun p => (p.1, d.barCeil j p.1 p.2.1 p.2.2, p.2.2))
  let cap := d.lCap (dpiOf j.pitch)
  let l := (bars.map (fun x => x.2.1)).foldl min (match d.lDram j ps with | some m => min m cap | none => cap)
  (bars, l)

/-! ## Rates of the firing block (R141) -/

/-- The rate a job's bars use: with a JOB_SWITCH admitted, the lower of the two ceilings. -/
def Dev.effRate (d : Dev) (j : Job) : Nat :=
  let others := d.job.jobs.filter (fun k => j.succs.contains k.id || (k.succs.contains j.id && k.active))
  (others.map (fun k => k.rate)).foldl min j.rate

/-- The job whose rate governs a bar: the one in progress there, or a scheduled one with a plane for it. -/
def Dev.barJob (d : Dev) (b : Nat) : Option Job :=
  match d.findJob (d.bf b).job with
  | some j => if j.active then some j else none
  | none => d.job.jobs.find? (fun j => j.active && bitOf j.barMask b && !(j.onBar b).left)

/-- R_b of a bar; 0 when no job.  In the ACTIVE, with the STANDBY IN_STEP, the lower of its own and the STANDBY's
CEILING (R428). -/
def Dev.rateOf (d : Dev) (b : Nat) : Nat :=
  match d.barJob b with
  | some j =>
    if d.role = 1 && d.partnerInStep && decide (d.pair.partnerCeil ≠ 0) then
      min (d.effRate j) (d.pair.partnerCeil * dpiOf j.pitch / 1524)
    else d.effRate j
  | none => 0

/-- Least of the non-zero numbers; 0 when none. -/
def leastPos (xs : List Nat) : Nat := ((xs.filter (fun x => x ≠ 0)).min?).getD 0

/-- Bring the rate registers of FIRE and PLACE up to date. -/
def Dev.showRates (d : Dev) : Dev :=
  let d1 := (List.range 8).foldl
    (fun acc b =>
      let ceil := match acc.barJob b with
        | some j => if j.phase = .printing then toMmMin (mapGet 0 j.barRate b) (dpiOf j.pitch) else 0
        | none => 0
      let lane := match acc.barJob b with
        | some j =>
          let p : PlaneRec := mapGet {} j.planes b
          let n := ((List.range 24).filter (fun l => acc.rdF (Reg.DFL_LANE l) 0 4 == b)).length
          n + nMax p.chainMax * 0x100 + credit j.mode (acc.peak j b) * 0x10000
        | none => 0
      (((acc.wr (Reg.FIRE_BAR_RATE_MAX b) (acc.rateOf b)).wr (Reg.PLACE_BAR_CEIL b) ceil).wr
        (Reg.PLACE_BAR_LANES b) lane)) d
  let d2 := d1.wr Reg.FIRE_LINE_RATE_MAX (leastPos ((List.range 8).map (fun b => d1.rateOf b)))
  d2.wr Reg.PLACE_CEILING
    (leastPos ((d2.job.jobs.filter (fun j => j.phase == .printing)).map (fun j => j.ceiling)))

/-! ## Lanes and engines -/

/-- The lane holds the history of a chain in progress. -/
def Dev.laneBusy (d : Dev) (n : Nat) : Bool := (mapGet {} d.strip.lanes n : LaneCtx).histValid

/-- A lane's chain goes on: the plane's next strip is not stored with the history reset. -/
def Dev.chainOpen (d : Dev) (n : Nat) : Bool :=
  let c : LaneCtx := mapGet {} d.strip.lanes n
  c.histValid && (match (d.plane c.job c.bar).strips.find? (fun s => s.no == c.strip) with
    | some s => s.history == 1
    | none => true)

/-- A chain of the bar goes on: its number of lanes stays as it is until the next chain starts (R150). -/
def Dev.barInChain (d : Dev) (b : Nat) : Bool :=
  (List.range 32).any (fun n => d.chainOpen n && (mapGet {} d.strip.lanes n : LaneCtx).bar == b)

/-- Lanes each bar is to have, for every placed job, in order of the jobs; a bar already listed keeps its first figure. -/
def Dev.wantLanes (d : Dev) : List (Nat × Nat) :=
  (d.job.jobs.filter (fun j => j.placed)).foldl
    (fun acc j => acc ++ ((d.ceilings j).1.filter (fun x => acc.all (fun y => y.1 ≠ x.1))).map (fun x => (x.1, x.2.2))) []

/-- The pending JOB_SWITCH that ends the job in progress on a bar: the lowest LINE, and of several on one line the highest SEQ,
which is applied last (R34, R35). -/
def Dev.switchRec (d : Dev) (b : Nat) : Option CommitRec :=
  ((d.job.commits.filter (fun p => p.bars.contains b && p.cp.kind == 5 && p.cp.job == (d.bf b).job)).map Pend.cp).foldl
    (fun acc c => match acc with
      | none => some c
      | some x => if c.line < x.line ∨ (c.line = x.line ∧ x.seq ≤ c.seq) then some c else some x) none

/-- The pending JOB_SWITCH of the job in progress on a bar: its line and the incoming job. -/
def Dev.switchOn (d : Dev) (b : Nat) : Option (Nat × Nat) := (d.switchRec b).map (fun c => (c.line, c.arg))

/-- Lanes that the planes of jobs awaiting a JOB_SWITCH could use, for the lanes left over (R142). -/
def Dev.wantAhead (d : Dev) : List (Nat × Nat) :=
  (List.range 8).filterMap (fun b =>
    match d.switchOn b with
    | some (_, inc) =>
      match d.findJob inc with
      | some k => (((d.ceilings k).1.find? (fun x => x.1 == b))).map (fun x => (b, x.2.2))
      | none => none
    | none => none)

/-- Deal lanes, lowest first, to the bars that have fewer than they are to have: lane and bar, and the lanes left over. -/
def dealLanes : List Nat → List (Nat × Nat) → List (Nat × Nat) × List Nat
  | [], _ => ([], [])
  | n :: ns, want =>
    match want.find? (fun w => 0 < w.2) with
    | none =>
      let r := dealLanes ns want
      (r.1, n :: r.2)
    | some w =>
      let r := dealLanes ns (want.map (fun x => if x.1 = w.1 then (x.1, x.2 - 1) else x))
      ((n, w.1) :: r.1, r.2)

/-- Share the lanes out again; a lane within a chain stays with it, and so do the lanes of a bar whose chain goes on (R142, R150).  The
lanes left over go to the jobs that wait for a JOB_SWITCH, by the same figures (R142; log entry 101). -/
def Dev.assignLanes (d : Dev) : Dev :=
  let bar : Nat → Nat := fun n => d.rdF (Reg.DFL_LANE n) 0 4
  let fixed : Nat → Bool := fun n => d.laneBusy n || (d.barInChain (bar n) && !bitOf d.strip.ahead n)
  let kept := d.dflLanes.filter fixed
  let idle := d.dflLanes.filter (fun n => !fixed n)
  let want := (d.wantLanes.filter (fun w => !d.barInChain w.1)).map (fun w => (w.1, w.2 - (kept.filter (fun n => bar n == w.1)).length))
  let r := dealLanes idle want
  let r2 := dealLanes r.2 d.wantAhead
  let d1 := (r.1 ++ r2.1).foldl (fun acc x => acc.wrF (Reg.DFL_LANE x.1) 0 4 x.2) d
  let d2 := r2.2.foldl (fun acc n => acc.wrF (Reg.DFL_LANE n) 0 4 0xF) d1
  { d2 with strip := { d2.strip with ahead := (r2.1.map (fun x => 2 ^ x.1)).sum } }

/-- RE8 takes a bar (R205). -/
def Dev.giveRe8 (d : Dev) (b : Nat) : Dev :=
  (d.wrF Reg.PLACE_RE_MAP (4 * b) 4 8).wr (Reg.RE_STATUS 8) (b + 0x20)

/-- Engines for the bars of a job: a bar without one takes RE8 while it is free (R137, R205). -/
def Dev.assignEngines (d : Dev) (j : Job) : Dev :=
  j.barList.foldl (fun acc b => if acc.hasEngine b || !acc.re8Free then acc else acc.giveRe8 b) d

/-- RE8 leaves a bar with the job that ends there (R151, R205): the bar's own engine takes it when it has not failed; otherwise RE8
stays while another placed job waits for the bar. -/
def Dev.dropRe8 (d : Dev) (b id : Nat) : Dev :=
  if d.rdF Reg.PLACE_RE_MAP (4 * b) 4 = 8 then
    let free : Nat → Dev := fun e =>
      (d.wrF Reg.PLACE_RE_MAP (4 * b) 4 e).wr (Reg.RE_STATUS 8) (0xF + d.rdF (Reg.RE_STATUS 8) 4 1 * 16)
    if d.bit (Reg.RE_STATUS b) 4 = false then free b
    else if d.job.jobs.any (fun k => k.id != id && k.placed && bitOf k.barMask b && !(k.onBar b).left) then d
    else free 0xF
  else d

/-- Record the placement engine's figures in a job. -/
def Dev.setCeil (d : Dev) (id : Nat) (c : List (Nat × Nat × Nat) × Nat) : Dev :=
  d.modJob id (fun j =>
    { j with rate := c.2, ceiling := toMmMin c.2 (dpiOf j.pitch),
             barRate := c.1.foldl (fun m x => mapSet 0 m x.1 x.2.1) ([] : NMap Nat) })

/-- CEILING_CHANGED for some jobs: the ceiling in mm/min of each of the eight bars from the job that governs it (0 where none of them
has the bar), the ceiling of each job in order of admission, and the mask of the causes (R149, R498). -/
def Dev.ceilEvent (d : Dev) (js : List Job) (cause : Nat) : Dev :=
  let bar : Nat → Nat := fun b =>
    match js.find? (fun j => bitOf j.barMask b && !(j.onBar b).left) with
    | some j => toMmMin (mapGet 0 j.barRate b) (dpiOf j.pitch)
    | none => 0
  d.event 1 .ceilingChanged (vals ((List.range 8).map bar ++ js.map Job.ceiling ++ [cause]))

/-- R137, second half: the placement engine takes one published job. -/
def Dev.place (d : Dev) (id : Nat) : Dev :=
  match d.findJob id with
  | none => d
  | some j =>
    if j.placed then d
    else
      let d0 := (d.assignEngines j).modJob id (fun k => { k with placed := true })
      let c := d0.ceilings j
      let d1 := ((d0.setCeil id c).assignLanes).showRates
      if toMmMin c.2 (dpiOf j.pitch) = j.ceiling then d1 else d1.ceilEvent (d1.findJob id).toList 0

/-- R149: one re-plan for a mask of causes; the figures of every job are recomputed, and one event reports them. -/
def Dev.replan (d : Dev) (cause : Nat) : Dev :=
  let d1 := ((d.job.jobs.map Job.id).foldl (fun acc i =>
    match acc.findJob i with
    | none => acc
    | some j => acc.setCeil i (acc.ceilings j)) d).assignLanes
  let d2 := (d1.showRates).bump Reg.PLACE_REPLAN_COUNT
  d2.ceilEvent d2.job.jobs cause

/-! ## Defect ranges (R268, R269) -/

/-- The 32-byte record of a range. -/
def rngBytes (r : Rng) : List Byte :=
  leBytes 4 r.job ++ leBytes 1 r.bar ++ leBytes 1 r.head ++ leBytes 1 r.cause ++ leBytes 1 0 ++ leBytes 8 r.first ++
    leBytes 8 r.last ++ leBytes 4 (satU 32 r.count) ++ leBytes 4 0

/-- Count a closed range in its job, live or ended. -/
def Dev.countDefect (d : Dev) (id : Nat) : Dev :=
  let f : Job → Job := fun j => if j.id = id then { j with defects := j.defects + 1 } else j
  if (d.findJob id).isSome then d.modJob id (fun j => { j with defects := j.defects + 1 })
  else { d with job := { d.job with ended := d.job.ended.map f } }

/-- Append DEFECT_RANGE for a closed range and count it. -/
def Dev.reportRange (d : Dev) (r : Rng) : Dev :=
  ((d.event 1 .defectRange (rngBytes r)).countDefect r.job).bump Reg.FIRE_DEFECT_COUNT

/-- Close the open ranges that a test selects. -/
def Dev.closeRanges (d : Dev) (p : Rng → Bool) : Dev :=
  let d1 := { d with fire := { d.fire with ranges := d.fire.ranges.filter (fun r => !p r) } }
  (d.fire.ranges.filter p).foldl (fun acc r => acc.reportRange r) d1

/-- A line is affected by a cause: its run is extended, or a range opens. -/
def Dev.markLine (d : Dev) (job b head cause n : Nat) : Dev :=
  let new : Rng := ⟨job, b, head, cause, n, n, 1, 0⟩
  let same : Rng → Bool := fun r => r.job == job && r.bar == b && r.head == head && r.cause == cause
  let ext : Rng → Rng := fun r => if same r then { r with last := n, count := r.count + 1, clean := 0 } else r
  if d.fire.ranges.any same then { d with fire := { d.fire with ranges := d.fire.ranges.map ext } }
  else { d with fire := { d.fire with ranges := d.fire.ranges ++ [new] } }

/-! ## Commit points (R29-R38) -/

/-- The bars on which a record acts: its bar, or every configured bar on which JOB is admitted (R29). -/
def Dev.commitBars (d : Dev) (c : CommitRec) : List Nat :=
  if c.bar = 0xFF then
    match d.findJob c.job with
    | some j => d.enBars.filter (fun b => bitOf j.barMask b && !(j.onBar b).left)
    | none => []
  else [c.bar]

/-- The lines of a job that a stage of the bar has begun, as the index after the highest; those of the job that a pending JOB_SWITCH
brings count from the line of the switch. -/
def Dev.begun (d : Dev) (job b : Nat) : Nat :=
  let f := (d.br b).front
  if (d.bf b).job = job then f
  else
    match d.switchOn b with
    | some (m, inc) => if inc = job then f - m else 0
    | none => 0

/-- H(b) for a job on a bar (R32): 64 beyond the highest of its lines that a stage has begun, 0 while none has. -/
def Dev.horizon (d : Dev) (job b : Nat) : Nat := if d.begun job b = 0 then 0 else d.begun job b - 1 + 64

/-- Pending records of a bar. -/
def Dev.pendOn (d : Dev) (b : Nat) : List Pend := d.job.commits.filter (fun p => p.bars.contains b)

/-- A pending record names the bank or set (R36): kind 1 Last table, 2 screen set, 3 nozzle map of a head. -/
def namesBank (c : CommitRec) (kind head bank : Nat) : Bool :=
  (kind == 1 && c.kind == 1 && c.arg % 2 == bank) || (kind == 2 && c.kind == 3 && c.arg % 2 == bank) ||
    (kind == 3 && c.kind == 4 && c.arg % 256 == head && c.arg / 256 % 2 == bank)

/-- The bank is locked by a pending commit point. -/
def Dev.bankPending (d : Dev) (b kind head bank : Nat) : Bool :=
  (d.pendOn b).any (fun p => namesBank p.cp kind head bank)

/-- The active bank of REb_ACTIVE. -/
def Dev.activeBank (d : Dev) (b kind head : Nat) : Nat :=
  d.rdF (Reg.RE_ACTIVE b) (if kind = 1 then 0 else if kind = 2 then 1 else 8 + head) 1

/-- Remove a bar from a pending record, and the record once no bar is left. -/
def Dev.dropPend (d : Dev) (seq b : Nat) : Dev :=
  let cut : Pend → Pend := fun p => if p.cp.seq = seq then { p with bars := p.bars.filter (fun x => x ≠ b) } else p
  let left := (d.job.commits.map cut).filter (fun p => !p.bars.isEmpty)
  { d with job := { d.job with commits := left } }

/-- A JOB_SWITCH that will not happen leaves its incoming job ADMITTED, unless another names it or it has begun. -/
def Dev.unschedule (d : Dev) (id : Nat) : Dev :=
  if d.job.commits.any (fun p => p.cp.kind == 5 && p.cp.arg == id) then d
  else d.modJob id (fun j => if j.phase = .scheduled ∧ j.run = false ∧ j.bars = [] then { j with phase := .admitted } else j)

/-- The job's link to one that a JOB_SWITCH was to bring ends with the record, unless another record brings it or it has begun
(R141). -/
def Dev.unlink (d : Dev) (out inc : Nat) : Dev :=
  let other := d.job.commits.any (fun p => p.cp.kind == 5 && p.cp.job == out && p.cp.arg == inc)
  let begun := (List.range 8).any (fun b => (d.bf b).job == inc)
  if other || begun then d else d.modJob out (fun j => { j with succs := j.succs.filter (fun x => x != inc) })

/-- R35, R37: a pending record of a bar expires with a reason (1 job end, 2 abort, 3 JOB_SWITCH). -/
def Dev.expire (d : Dev) (p : Pend) (b reason : Nat) : Dev :=
  let d1 := (d.dropPend p.cp.seq b).append 1 .commitExpired (commitBytes p.cp ++ vals [b, reason])
  if p.cp.kind = 5 then ((d1.unlink p.cp.job p.cp.arg).unschedule p.cp.arg).showRates
  else if p.cp.kind = 6 then
    let m := if bitOf d1.pair.master b then d1.pair.master - 2 ^ b else d1.pair.master
    let d2 : Dev := { d1 with pair := { d1.pair with master := m } }
    if d2.job.commits.any (fun x => x.cp.kind == 6) then d2 else d2.wrBit Reg.PAIR_STATUS 9 false
  else d1

/-- Expire every pending record of a job on a bar, in order of SEQ. -/
def Dev.expireJob (d : Dev) (job b reason : Nat) : Dev :=
  ((d.pendOn b).filter (fun p => p.cp.job == job)).foldl (fun acc p => acc.expire p b reason) d

/-! ## The end of a job (R130, R131) -/

/-- PLACE_BARb_FILL: lines held ahead of the line firing on the bar (R145). -/
def Dev.showFill (d : Dev) (b : Nat) : Dev :=
  let held := (d.strip.planes.filter (fun x => x.1 % 8 == b)).map (fun x =>
    match d.findJob (x.1 / 8) with
    | some j => x.2.nextLine - (j.onBar b).issued
    | none => 0)
  d.wr (Reg.PLACE_BAR_FILL b) (min held.sum 0xFFFFFFFF)

/-- Release what a job holds: its strips, windows, decoded lines, lanes and repeat store. -/
def Dev.releaseJob (d : Dev) (id : Nat) : Dev :=
  let lanes : NMap LaneCtx := d.strip.lanes.filter (fun x => x.2.job ≠ id)
  let gone := (d.strip.lanes.filter (fun x => x.2.job = id)).map Prod.fst
  let d1 := { d with strip := { d.strip with planes := d.strip.planes.filter (fun x => x.1 / 8 ≠ id),
                                             repeatUse := mapErase id d.strip.repeatUse, lanes := lanes } }
  (List.range 8).foldl (fun acc b => acc.showFill b) ((gone.foldl (fun acc n => acc.wr (Reg.DFL_LANE n) 0xF) d1).showRepeat)

/-- A change of a head's state. -/
def applyChg (m : Nat) (c : HeadChg) : Nat :=
  if bitOf m c.head = c.on then m else if c.on then m + 2 ^ c.head else m - 2 ^ c.head

/-- The state of a set of heads at line n: the state now and the changes to come, in order. -/
def headsAt (base : Nat) (chg : List HeadChg) (n : Nat) : Nat :=
  (chg.filter (fun c => decide (c.line ≤ n))).foldl applyChg base

/-- The bar no longer carries a job: its pipeline is empty.  Changes of heads that were to come on the job's lines have come; with no
line issued they count in the lines of the next job to print (R514). -/
def Dev.clearBar (d : Dev) (b : Nat) : Dev :=
  let f := d.bf b
  let r := d.br b
  let der := f.derateChg.foldl applyChg f.derate
  let bl := f.blankChg.foldl applyChg f.blank
  let f1 : BarFire := if f.next = 0 then f else { f with derate := der, blank := bl, derateChg := [], blankChg := [] }
  let d1 := d.setBf b { f1 with job := 0, next := 0, tick := none, period := none }
  let d2 := d1.setBr b { r with front := 0, handed := 0, mid := [], blanks := [], out := [], starvedTo := none, deadAt := [],
                                edReset := true,
                                kept := [] }
  let own := mapErase b d2.pair.own
  let theirs := mapErase b d2.pair.theirs
  let d2' : Dev := { d2 with pair := { d2.pair with own := own, theirs := theirs } }
  d2'.wrF (Reg.FIRE_BAR_STATUS b) 1 1 0

/-- A job that has left every bar is ENDED or ABORTED: what waits on it completes with JOB_ENDED (R114), and JOB_STATUS answers for it
until 256 later jobs have ended (R132). -/
def Dev.finishJob (d : Dev) (id : Nat) (ph : JobPhase) : Dev :=
  match d.findJob id with
  | none => d
  | some j =>
    let old : Job := { j with phase := ph, later := 0 }
    let ended := old :: (d.job.ended.map (fun k => { k with later := k.later + 1 })).filter (fun k => decide (k.later < 256))
    let live := d.job.jobs.filter (fun k => k.id ≠ id)
    let jdt := d.job.jdt.filter (fun e => e.job ≠ id)
    let d1 := { d with job := { d.job with jobs := live, ended := ended, jdt := jdt } }
    let d2 := d1.releaseJob id
    let mine : Out → Bool := fun o => numAt o.entry 8 4 == id
    let waits := d2.strip.waits.filter (fun w => !mine w.out)
    let cmp := d2.strip.cmpWait.filter (fun c => match c.out with | some o => c.use != 2 || !mine o | none => true)
    let cut := (d2.strip.waits.map StripWait.out).filter mine ++
      (d2.strip.cmpWait.filter (fun c => c.use == 2)).filterMap (fun c => c.out.filter mine)
    let d2' : Dev := ({ d2 with strip := { d2.strip with waits := waits, cmpWait := cmp } } : Dev).fillCmp
    let d3 := (cut.foldl (fun acc o => acc.complete o JOB_ENDED 0 []) d2').completeWhere
      (fun o => entOpcode o.entry == 0x0121 && mine o) JOB_ENDED (fun _ => 0)
    d3.assignLanes.showRates

/-- Bring the SKIPPING flag of a bar up to date. -/
def Dev.showSkipping (d : Dev) (b : Nat) : Dev :=
  d.wrBit (Reg.FIRE_BAR_STATUS b) 3 (d.fire.ranges.any (fun r => r.bar == b && r.cause == 3))

/-- The job leaves a bar for a reason: its ranges close, its records expire, the bar is empty, and RE8 leaves it. -/
def Dev.leaveBar (d : Dev) (id b reason : Nat) : Dev :=
  let d1 := (d.closeRanges (fun r => r.job == id && r.bar == b)).showSkipping b
  let d2 := d1.expireJob id b reason
  let d3 := d2.modJob id (fun j => { j with bars := mapMod {} j.bars b (fun x => { x with left := true }) })
  (if (d3.bf b).job = id then d3.clearBar b else d3).dropRe8 b id

/-- Every bar of the job has been left. -/
def Job.allLeft (j : Job) : Bool := j.barList.all (fun b => (j.onBar b).left)

/-- End a job that has left all its bars (R130). -/
def Dev.endIfDone (d : Dev) (id : Nat) : Dev :=
  match d.findJob id with
  | some j => if j.allLeft then d.finishJob id .ended else d
  | none => d

/-- R131: abort a job; firing ends at this line boundary on each of its bars. -/
def Dev.abortJob (d : Dev) (id : Nat) : Dev :=
  match d.findJob id with
  | none => d
  | some j =>
    (((j.barList.filter (fun b => !(j.onBar b).left)).foldl (fun acc b => acc.leaveBar id b 2) d).finishJob id .aborted)

/-- Identifiers of the scheduled and printing jobs. -/
def Dev.activeIds (d : Dev) : List Nat := (d.job.jobs.filter Job.active).map (fun j => j.id)

/-- Abort every scheduled or printing job. -/
def Dev.abortActive (d : Dev) : Dev := d.activeIds.foldl (fun acc i => acc.abortJob i) d

/-- The bar is handled as BAR_LOST for the jobs on it (R151): they print blank there from now on; `report` appends the
event. -/
def Dev.barLost (d : Dev) (b : Nat) (report : Bool) : Dev :=
  let hit : Job → Bool := fun j => bitOf j.barMask b && !(j.onBar b).left && !j.lostBars.contains b
  let lose : Job → Job := fun j => if hit j then { j with lostBars := j.lostBars ++ [b] } else j
  let d1 := { d with job := { d.job with jobs := d.job.jobs.map lose } }
  if report && d.job.jobs.any hit then d1.event 1 .barLost (vals [b]) else d1

end Sys2Proof.Machine
end

