-- ==== Sys2Proof/Machine/Arb.lean ====
section
/-!
DEFINITION. The fabric arbiter (R407-R413): ports, the decision of a grant opportunity, the slot table that placement
writes, and a port that stops being alive.
-/

namespace Sys2Proof.Machine

/-- A channel, and its replacement. -/
def Dev.chan (d : Dev) (c : Nat) : ChanSt := mapGet {} d.mem.chans c
def Dev.setChan (d : Dev) (c : Nat) (x : ChanSt) : Dev :=
  { d with mem := { d.mem with chans := mapSet {} d.mem.chans c x } }

/-- Registers of a port: alive, draining, RT, break point of 256 bytes, PRIO (R407). -/
def Dev.portAlive (d : Dev) (p : Nat) : Bool := d.bit Reg.ARB_ALIVE p
def Dev.portDraining (d : Dev) (p : Nat) : Bool := d.bit Reg.ARB_DRAINING p
def Dev.portRt (d : Dev) (p : Nat) : Bool := d.bit (Reg.ARB_PORT_CFG p) 3
def Dev.portBrk (d : Dev) (p : Nat) : Bool := d.bit (Reg.ARB_PORT_CFG p) 2
def Dev.portPrio (d : Dev) (p : Nat) : Nat := d.rdF (Reg.ARB_PORT_CFG p) 0 2

/-- The port may be granted. -/
def Dev.portOpen (d : Dev) (p : Nat) : Bool := d.portAlive p && !d.portDraining p

/-- Pending requests of a port at a channel. -/
def ChanSt.queue (x : ChanSt) (p : Nat) : List MemReq := mapGet [] x.pend p

/-- R411: alive falls: the holder ends with its burst, pending entries are discarded and counted. -/
def Dev.portDown (d : Dev) (p : Nat) : Dev :=
  if d.portAlive p then
    let n := ((List.range 4).map (fun c => ((d.chan c).queue p).length)).sum
    let d1 := (List.range 4).foldl
      (fun acc c =>
        let x := acc.chan c
        let hold := match x.holder with | some (q, r, k) => if q = p then none else some (q, r, k) | none => none
        acc.setChan c { x with pend := mapErase p x.pend, holder := hold }) d
    ((d1.wrBit Reg.ARB_ALIVE p false).bumpBy (Reg.ARB_PORT_DISCARD_COUNT p) n).event 1 .arbPortMasked (vals [p])
  else d

/-- The port is alive again; ports 29-31 never are (R407). -/
def Dev.portUp (d : Dev) (p : Nat) : Dev := if p < 29 then d.wrBit Reg.ARB_ALIVE p true else d

/-! ## The decision (R408) -/

/-- The owner of the current slot, when rule 1 serves it. -/
def Dev.slotOwner (d : Dev) (x : ChanSt) : Option Nat :=
  let e := byteAt x.table x.slot
  let p := e % 32
  if bitOf e 7 && d.portRt p && d.portOpen p && !(x.queue p).isEmpty then some p else none

/-- The port rule 2 serves: the highest level with a requesting port, and in it the next one after the last granted. -/
def Dev.prioOwner (d : Dev) (x : ChanSt) : Option Nat :=
  let ready := (List.range 32).filter (fun p => d.portOpen p && !(x.queue p).isEmpty)
  match (ready.map d.portPrio).max? with
  | none => none
  | some lv =>
    let last := mapGet 31 x.lastGrant lv
    ((List.range 32).map (fun i => (last + 1 + i) % 32)).find? (fun p => ready.contains p && d.portPrio p == lv)

/-- The arbiter copies the shadow table at its wrap (R412). -/
def Dev.swapAtWrap (d : Dev) (c : Nat) : Dev :=
  let x := d.chan c
  if x.swapWait ∧ x.slot = 0 then
    let tbl := (List.range 16).flatMap (fun i => leBytes 4 (d.rd (Reg.ARB_SHADOW i)))
    let d1 := (d.setChan c { x with swapWait := false, table := tbl }).wrWords (Reg.ARB_ACTIVE 0) (bytesWords tbl)
    if (List.range 4).any (fun k => (d1.chan k).swapWait) then d1
    else ((d1.wrBit Reg.ARB_STATUS 0 false).wrBit Reg.ARB_CTRL 0 false).bump Reg.ARB_SWAP_COUNT
  else d

/-- A request to swap; a second one while one is pending makes no further swap (R412). -/
def Dev.swapTables (d : Dev) : Dev :=
  if d.bit Reg.ARB_STATUS 0 then d
  else
    let d1 := (d.wrBit Reg.ARB_STATUS 0 true).wrBit Reg.ARB_CTRL 0 true
    (List.range 4).foldl (fun acc c => acc.setChan c { acc.chan c with swapWait := true }) d1

/-! ## The slot table of placement (R413) -/

/-- Bytes per second that the decompression lanes read for the scheduled and printing jobs. -/
def Dev.dflDemand (d : Dev) : Nat :=
  ((d.job.jobs.filter Job.active).map (fun j =>
    ((j.barList.filter (fun b => !j.lostBars.contains b)).map (fun b => bBytes (d.peak j b) * j.rate)).sum)).sum

/-- Slots of each alive RT port before the table is made to fit: port and count. -/
def Dev.slotWants (d : Dev) : List (Nat × Nat) :=
  let dfl := ((List.range 4).filter d.portAlive).length
  let s := if dfl = 0 ∨ d.channels = 0 then 1 else max 1 (cdiv (64 * d.dflDemand) (d.channels * dfl * 17920000000))
  ((List.range 32).filter (fun p => d.portRt p && d.portAlive p)).map (fun p => (p, if p < 4 then s else 1))

/-- Take one slot at a time from the decompression port with most, until the table fits. -/
def fitSlots : Nat → List (Nat × Nat) → List (Nat × Nat)
  | 0, ws => ws
  | n + 1, ws =>
    if (ws.map Prod.snd).sum ≤ 64 then ws
    else
      let dfl := ws.filter (fun w => w.1 < 4)
      match (dfl.map Prod.snd).max? with
      | none => ws
      | some m =>
        match dfl.find? (fun w => w.2 == m) with
        | none => ws
        | some w => fitSlots n (ws.map (fun x => if x.1 = w.1 then (x.1, x.2 - 1) else x))

/-- The first free position at or after one, wrapping. -/
def freePos (t : NMap Nat) (i : Nat) : Option Nat :=
  ((List.range 64).map (fun k => (i + k) % 64)).find? (fun k => mapGet 0 t k == 0)

/-- Place the slots of one port. -/
def placeSlots (t : NMap Nat) (w : Nat × Nat) : NMap Nat :=
  (List.range w.2).foldl
    (fun acc i => match freePos acc (64 * i / w.2) with | some k => mapSet 0 acc k (w.1 + 128) | none => acc) t

/-- Placement writes the shadow and swaps, once SWAP_PENDING is 0. -/
def Dev.planSlots (d : Dev) : Dev :=
  if d.bit Reg.ARB_STATUS 0 then { d with mem := { d.mem with planDue := true } }
  else
    let ws := d.slotWants
    let t := (fitSlots (ws.map Prod.snd).sum ws).foldl placeSlots []
    let bs := (List.range 64).map (fun i => BitVec.ofNat 8 (mapGet 0 t i))
    let d1 : Dev := { d with mem := { d.mem with planDue := false } }
    (d1.wrWords (Reg.ARB_SHADOW 0) (bytesWords bs)).swapTables

/-- A plan that waited is written once the swap is done. -/
def Dev.duePlan (d : Dev) : Dev := if d.mem.planDue && !d.bit Reg.ARB_STATUS 0 then d.planSlots else d

/-- One decision: the swap at slot 0, the port granted, the slot advanced. -/
def Dev.arbDecide (d : Dev) (c : Nat) : Dev × Option Nat :=
  let d1 := (d.swapAtWrap c).duePlan
  let x := d1.chan c
  let who := match d1.slotOwner x with | some p => some p | none => d1.prioOwner x
  let x1 : ChanSt := { x with slot := (x.slot + 1) % 64 }
  match who with
  | none => (d1.setChan c x1, none)
  | some p =>
    let hold := if d1.portBrk p then (x.queue p).head?.map (fun r => (p, r.addr / 256, 3)) else none
    ((d1.setChan c { x1 with holder := hold, lastGrant := mapSet 31 x.lastGrant (d1.portPrio p) p }).bump
      (Reg.ARB_PORT_GRANT_COUNT p), some p)

/-- The port that places the next burst: the holder while its run lasts, else the one the arbiter decides on. -/
def Dev.nextPort (d : Dev) (c : Nat) : Dev × Option Nat :=
  let x := d.chan c
  match x.holder with
  | some (p, run, n + 1) =>
    if (match x.queue p with | r :: _ => r.addr / 256 == run | [] => false) then
      (d.setChan c { x with holder := if n = 0 then none else some (p, run, n) }, some p)
    else (d.setChan c { x with holder := none }).arbDecide c
  | _ => d.arbDecide c

end Sys2Proof.Machine
end

