-- ==== Sys2Proof/Machine/Rs.lean ====
section
/-!
DEFINITION. The check code of the DRAM (R398-R400): RS(40,32) over GF(2^16), its encoder, its decoder for errors in at most
four symbols, and the erasure decoder of a marked device.  A word is its 40 symbols in ascending order; symbol s is the
coefficient of x^(39 - s).
-/

namespace Sys2Proof.Machine

/-- Double an element of GF(2^16), field polynomial x^16 + x^12 + x^3 + x + 1 (R398). -/
def fDouble (a : Nat) : Nat := if a < 32768 then 2 * a else Nat.xor (2 * a) 0x1100B

/-- Product over the low `n` bits of the second factor. -/
def fMulN : Nat → Nat → Nat → Nat
  | 0, _, _ => 0
  | n + 1, a, b => Nat.xor (if b % 2 = 1 then a else 0) (fMulN n (fDouble a) (b / 2))

/-- Product in GF(2^16). -/
def fMul (a b : Nat) : Nat := fMulN 16 a b

/-- The product of the successive squares of an element. -/
def fSquares : Nat → Nat → Nat
  | 0, _ => 1
  | n + 1, a => let s := fMul a a; fMul s (fSquares n s)

/-- The inverse of a non-zero element: its power 2^16 - 2. -/
def fInv (a : Nat) : Nat := fSquares 15 a

/-- The power n of the primitive element alpha = x. -/
def fAlpha : Nat → Nat
  | 0 => 1
  | n + 1 => fDouble (fAlpha n)

/-- Value of a polynomial, lowest coefficient first. -/
def pEval (p : List Nat) (x : Nat) : Nat := p.foldr (fun c acc => Nat.xor c (fMul x acc)) 0

/-- Sum of two polynomials. -/
def pAdd : List Nat → List Nat → List Nat
  | [], q => q
  | p, [] => p
  | a :: p, b :: q => Nat.xor a b :: pAdd p q

/-- A polynomial times a constant. -/
def pScale (c : Nat) (p : List Nat) : List Nat := p.map (fMul c)

/-- Product of two polynomials. -/
def pMul : List Nat → List Nat → List Nat
  | [], _ => []
  | a :: p, q => pAdd (pScale a q) (0 :: pMul p q)

/-- The generator g(x) = (x - alpha^0) ... (x - alpha^7), highest coefficient first, without its leading 1. -/
def rsGen : List Nat :=
  (((List.range 8).foldl (fun g i => pMul [fAlpha i, 1] g) [1]).reverse).drop 1

/-- One step of the division by g(x): the remainder's eight coefficients, highest first, and a data symbol. -/
def rsStep (r : List Nat) (s : Nat) : List Nat :=
  let f := Nat.xor (r.headD 0) s
  List.zipWith Nat.xor (r.drop 1 ++ [0]) (pScale f rsGen)

/-- Check symbols 32-39 of 32 data symbols. -/
def rsCheck (ds : List Nat) : List Nat := ds.foldl rsStep (List.replicate 8 0)

/-- The codeword of 64 data bytes: data symbol s holds bytes 2s and 2s + 1 (R398). -/
def rsEncode (bs : List Byte) : List Nat :=
  let ds := (List.range 32).map (fun s => byteAt bs (2 * s) + 256 * byteAt bs (2 * s + 1))
  ds ++ rsCheck ds

/-- The 64 data bytes of a word. -/
def rsData (w : List Nat) : List Byte := (w.take 32).flatMap (leBytes 2)

/-- Syndrome j of a word. -/
def rsSyn (w : List Nat) (j : Nat) : Nat := pEval w.reverse (fAlpha j)

/-- The eight syndromes. -/
def rsSyns (w : List Nat) : List Nat := (List.range 8).map (rsSyn w)

/-- The locator of symbol s. -/
def rsLoc (s : Nat) : Nat := fAlpha (39 - s)

/-- The state of the search for the shortest recurrence of the syndromes. -/
structure BmSt where
  c : List Nat
  b : List Nat
  len : Nat
  gap : Nat
  last : Nat

/-- One syndrome of the search (Berlekamp and Massey). -/
def bmStep (ss : List Nat) (st : BmSt) (n : Nat) : BmSt :=
  let d := (List.range (st.len + 1)).foldl (fun acc i => Nat.xor acc (fMul (st.c.getD i 0) (ss.getD (n - i) 0))) 0
  if d = 0 then { st with gap := st.gap + 1 }
  else
    let c' := pAdd st.c (List.replicate st.gap 0 ++ pScale (fMul d (fInv st.last)) st.b)
    if 2 * st.len ≤ n then ⟨c', st.c, n + 1 - st.len, 1, d⟩ else { st with c := c', gap := st.gap + 1 }

/-- The error value at a symbol, given the locator polynomial and the syndromes (Forney). -/
def rsValue (lam ss : List Nat) (s : Nat) : Nat :=
  let x := rsLoc s
  let y := fInv x
  let om := (pMul ss lam).take 8
  let der := (List.range lam.length).map (fun i => if i % 2 = 0 then lam.getD (i + 1) 0 else 0)
  fMul x (fMul (pEval om y) (fInv (pEval der y)))

/-- A word with the errors at given symbols removed. -/
def rsFix (lam ss w : List Nat) (at_ : List Nat) : List Nat :=
  (List.range 40).map (fun s => if at_.contains s then Nat.xor (w.getD s 0) (rsValue lam ss s) else w.getD s 0)

/-- R399: decode a word: the corrected word and the symbols in error, or none when no codeword lies within four symbols. -/
def rsDecode (w : List Nat) : Option (List Nat × List Nat) :=
  let ss := rsSyns w
  if ss.all (fun s => s == 0) then some (w, [])
  else
    let st := (List.range 8).foldl (bmStep ss) ⟨[1], [1], 0, 1, 1⟩
    let roots := (List.range 40).filter (fun s => pEval st.c (fInv (rsLoc s)) == 0)
    if st.len ≤ 4 ∧ roots.length = st.len then
      let w' := rsFix st.c ss w roots
      if (rsSyns w').all (fun s => s == 0) then some (w', roots) else none
    else none

/-- R400: decode with the eight symbols of a device as erasures: any pattern in them is corrected, and an error in any
other symbol is neither corrected nor detected. -/
def rsErase (dev : Nat) (w : List Nat) : List Nat :=
  let at_ := (List.range 8).map (fun j => 8 * dev + j)
  let lam := at_.foldl (fun p s => pMul [1, rsLoc s] p) [1]
  rsFix lam (rsSyns w) w at_

/-- The check symbols of a poisoned line (R401). -/
def rsPoison (w : List Nat) : List Nat := w.take 32 ++ (w.drop 32).map (fun s => Nat.xor s 0x5A5A)

end Sys2Proof.Machine
end

