-- ==== Sys2Proof/Machine/Context.lean ====
section
/-!
DEFINITION. The context image of a decompression lane (R171, R172): its 36,864 bytes at a strip boundary, and the checks that a
restored image passes.
-/

namespace Sys2Proof.Machine

/-- The history ring: its oldest byte lies at WIN_POS once the ring is full.  Slots that no byte has reached hold 0 (log entry 70). -/
def windowRing (hist : List Byte) (pos : Nat) : List Byte :=
  let old := List.replicate (32768 - hist.length) (0 : Byte) ++ hist
  old.drop (32768 - pos) ++ old.take (32768 - pos)

/-- The last `fill` decoded bytes of a ring, newest last. -/
def ringHist (ring : List Byte) (pos fill : Nat) : List Byte :=
  (ring.drop pos ++ ring.take pos).drop (32768 - fill)

/-- An image from its IMAGE_CRC: STATE 0, BETWEEN_STRIPS, in which every field of a strip in progress is 0. -/
def imageWith (c : LaneCtx) (crc : Nat) : List Byte :=
  leBytes 4 0x58544344 ++ leBytes 1 1 ++ leBytes 1 0 ++ leBytes 1 (b2n c.histValid * 8) ++ leBytes 1 0 ++ leBytes 4 c.job ++
    leBytes 1 c.bar ++ leBytes 1 c.pre ++ leBytes 2 0 ++ leBytes 4 c.strip ++ leBytes 4 0 ++ leBytes 8 0 ++ leBytes 2 0 ++
    leBytes 2 c.hist.length ++ leBytes 2 c.winPos ++ List.replicate 18 0 ++ leBytes 4 crc ++ leBytes 4 0 ++
    List.replicate 4032 0 ++ windowRing c.hist c.winPos

/-- R171: the image of a lane at a strip boundary. -/
def imageOf (c : LaneCtx) : List Byte := imageWith c (crc32c (imageWith c 0))

/-- Reserved bytes and bits of an image are clear, and its fields lie in their ranges (R171). -/
def imageClean (bs : List Byte) : Bool :=
  decide (byteAt bs 6 < 16) && byteAt bs 7 == 0 && numAt bs 14 2 == 0 && byteAt bs 33 == 0 && numAt bs 60 4 == 0 &&
    decide (byteAt bs 32 ≤ 63) && decide (numAt bs 34 2 ≤ 32768) && decide (numAt bs 36 2 ≤ 32767) &&
    (((bs.drop 0x193).take (0x1000 - 0x193)).all (fun b => b == 0))

/-- A STATE 0 image holds 0 in every field of a strip in progress, and a window only with HISTORY_VALID (R171). -/
def imageIdle (bs : List Byte) : Bool :=
  byteAt bs 5 == 0 && numAt bs 20 14 == 0 && numAt bs 38 18 == 0 && (((bs.drop 0x40).take 0x153).all (fun b => b == 0)) &&
    (bitOf (byteAt bs 6) 3 || (numAt bs 34 2 == 0 && numAt bs 36 2 == 0))

/-- R172: an image is restored only when MAGIC, VERSION and IMAGE_CRC check and no reserved value is set.  Images are saved at strip
boundaries only (R150, R438), so one of another STATE is refused as well (log entry 70). -/
def readImage (bs : List Byte) : Option LaneCtx :=
  if bs.length = 36864 ∧ numAt bs 0 4 = 0x58544344 ∧ byteAt bs 4 = 1 ∧ imageClean bs ∧ imageIdle bs ∧
      numAt bs 56 4 = crc32c (putNum bs 56 4 0) then
    let valid := bitOf (byteAt bs 6) 3
    some { job := numAt bs 8 4, bar := byteAt bs 12, strip := numAt bs 16 4, pre := byteAt bs 13, histValid := valid,
           hist := ringHist (bs.drop 0x1000) (numAt bs 36 2) (numAt bs 34 2), winPos := numAt bs 36 2, broken := !valid }
  else none

end Sys2Proof.Machine
end

