-- ==== Sys2Proof/Machine/Inflate.lean ====
section
/-!
DEFINITION. The DEFLATE decoder of the decompression lanes (R162-R164, R167, R168): raw RFC 1951 streams, the errors of the
manual in the order they are met, and the pre-transforms (R160, R161).
-/

namespace Sys2Proof.Machine

/-- The decoder's position: bits not yet taken, bits taken, bytes with the newest first (the chain's history below the
strip's own), and the strip's decoded bytes. -/
structure Inf where
  bits : List Bool
  used : Nat
  rev : List Byte
  n : Nat
  deriving DecidableEq, Repr

/-- A decoding step: a fault's detail code (DFL_LAST_ERR.DETAIL) with the position it left, or a value. -/
abbrev InfM (α : Type) := Except (Nat × Inf) α

/-- The bits of a byte, least significant first. -/
def byteBits (b : Byte) : List Bool := (List.range 8).map (fun i => bitOf b.toNat i)

/-- Take a number of bits, least significant first; the payload's end is TRUNCATED. -/
def takeBits : Nat → Inf → InfM (Nat × Inf)
  | 0, s => .ok (0, s)
  | k + 1, s =>
    match s.bits with
    | [] => .error (6, s)
    | b :: bs =>
      match takeBits k { s with bits := bs, used := s.used + 1 } with
      | .ok (v, s') => .ok (b2n b + 2 * v, s')
      | .error e => .error e

/-- One decoded byte; beyond the bound it is STRIP_OVERRUN (R167). -/
def putByte (bound : Nat) (b : Byte) (s : Inf) : InfM Inf :=
  if bound ≤ s.n then .error (9, s) else .ok { s with rev := b :: s.rev, n := s.n + 1 }

/-- Number of symbols with a code length. -/
def countLen (lens : List Nat) (l : Nat) : Nat := (lens.filter (fun x => x == l)).length

/-- First code of each length (RFC 1951, 3.2.2). -/
def firstCode (lens : List Nat) : Nat → Nat
  | 0 => 0
  | l + 1 => (firstCode lens l + (if l = 0 then 0 else countLen lens l)) * 2

/-- The codes of a list of code lengths: length, code, symbol. -/
def codeTable (lens : List Nat) : List (Nat × Nat × Nat) :=
  ((List.range lens.length).filter (fun s => lens.getD s 0 ≠ 0)).map
    (fun s => (lens.getD s 0, firstCode lens (lens.getD s 0) + countLen (lens.take s) (lens.getD s 0), s))

/-- Longest code length. -/
def maxLen (lens : List Nat) : Nat := lens.foldl max 0

/-- Decode one symbol: at most `fuel` more bits; a pattern that no symbol has is BAD_SYMBOL. -/
def huffSym (tab : List (Nat × Nat × Nat)) : Nat → Nat → Nat → Inf → InfM (Nat × Inf)
  | 0, _, _, s => .error (4, s)
  | f + 1, len, code, s =>
    match s.bits with
    | [] => .error (6, s)
    | b :: bs =>
      let s' : Inf := { s with bits := bs, used := s.used + 1 }
      let c := code * 2 + b2n b
      match tab.find? (fun t => t.1 == len + 1 && t.2.1 == c) with
      | some t => .ok (t.2.2, s')
      | none => huffSym tab f (len + 1) c s'

/-- A code: its table and its longest length. -/
structure Huff where
  tab : List (Nat × Nat × Nat)
  top : Nat
  deriving DecidableEq, Repr

def Huff.of (lens : List Nat) : Huff := ⟨codeTable lens, maxLen lens⟩
def Huff.sym (h : Huff) (s : Inf) : InfM (Nat × Inf) := huffSym h.tab h.top 0 0 s

/-- Code space used by a list of lengths, in units of 2^-15. -/
def codeSpace (lens : List Nat) : Nat := ((lens.filter (fun l => l ≠ 0)).map (fun l => 2 ^ (15 - l))).sum

/-- Length symbols 257-285: base and extra bits. -/
def lenBase : List (Nat × Nat) :=
  [(3, 0), (4, 0), (5, 0), (6, 0), (7, 0), (8, 0), (9, 0), (10, 0), (11, 1), (13, 1), (15, 1), (17, 1), (19, 2), (23, 2),
   (27, 2)] ++ [(31, 2), (35, 3), (43, 3), (51, 3), (59, 3), (67, 4), (83, 4), (99, 4), (115, 4), (131, 5), (163, 5),
   (195, 5), (227, 5), (258, 0)]

/-- Distance symbols 0-29: base and extra bits. -/
def distBase : List (Nat × Nat) :=
  [(1, 0), (2, 0), (3, 0), (4, 0), (5, 1), (7, 1), (9, 2), (13, 2), (17, 3), (25, 3), (33, 4), (49, 4), (65, 5), (97, 5),
   (129, 6)] ++ [(193, 6), (257, 7), (385, 7), (513, 8), (769, 8), (1025, 9), (1537, 9), (2049, 10), (3073, 10),
   (4097, 11), (6145, 11), (8193, 12), (12289, 12), (16385, 13), (24577, 13)]

/-- Copy a match. -/
def copyMatch (bound dist : Nat) : Nat → Inf → InfM Inf
  | 0, s => .ok s
  | k + 1, s =>
    match putByte bound (s.rev.getD (dist - 1) 0) s with
    | .ok s' => copyMatch bound dist k s'
    | .error e => .error e

/-- A length symbol: its length, the distance, the copy. -/
def matchStep (bound : Nat) (dist : Huff) (sym : Nat) (s : Inf) : InfM Inf := do
  if 285 < sym ∨ dist.top = 0 then .error (4, s)
  else
    let lb := lenBase.getD (sym - 257) (3, 0)
    let (x, s1) ← takeBits lb.2 s
    let (ds, s2) ← dist.sym s1
    if 29 < ds then .error (4, s2)
    else
      let db := distBase.getD ds (1, 0)
      let (y, s3) ← takeBits db.2 s2
      if (s3.rev.drop (db.1 + y - 1)).isEmpty then .error (5, s3) else copyMatch bound (db.1 + y) (lb.1 + x) s3

/-- The symbols of a compressed block up to its end-of-block code. -/
def blockData (bound : Nat) (lit dist : Huff) : Nat → Inf → InfM Inf
  | 0, s => .error (6, s)
  | f + 1, s =>
    match lit.sym s with
    | .error e => .error e
    | .ok (sym, s1) =>
      if sym = 256 then .ok s1
      else
        match (if sym < 256 then putByte bound (BitVec.ofNat 8 sym) s1 else matchStep bound dist sym s1) with
        | .error e => .error e
        | .ok s2 => blockData bound lit dist f s2

/-- Copy the bytes of a stored block. -/
def storedData (bound : Nat) : Nat → Inf → InfM Inf
  | 0, s => .ok s
  | k + 1, s =>
    match takeBits 8 s with
    | .error e => .error e
    | .ok (b, s1) =>
      match putByte bound (BitVec.ofNat 8 b) s1 with
      | .error e => .error e
      | .ok s2 => storedData bound k s2

/-- A stored block. -/
def storedBlock (bound : Nat) (s : Inf) : InfM Inf := do
  let (_, s1) ← takeBits ((8 - s.used % 8) % 8) s
  let (len, s2) ← takeBits 16 s1
  let (nlen, s3) ← takeBits 16 s2
  if len + nlen ≠ 0xFFFF then .error (2, s3) else storedData bound len s3

/-- Order in which the code-length code lengths are sent. -/
def clenOrder : List Nat := [16, 17, 18, 0, 8, 7, 9, 6, 10, 5, 11, 4, 12, 3, 13, 2, 14, 1, 15]

/-- Read fields of three bits. -/
def readThrees : Nat → Inf → InfM (List Nat × Inf)
  | 0, s => .ok ([], s)
  | k + 1, s =>
    match takeBits 3 s with
    | .error e => .error e
    | .ok (v, s1) =>
      match readThrees k s1 with
      | .error e => .error e
      | .ok (vs, s2) => .ok (v :: vs, s2)

/-- Read `total` code lengths, newest first in the accumulator. -/
def readLens (clen : Huff) (total : Nat) : Nat → List Nat → Inf → InfM (List Nat × Inf)
  | 0, acc, s => if acc.length = total then .ok (acc.reverse, s) else .error (3, s)
  | f + 1, acc, s =>
    if acc.length = total then .ok (acc.reverse, s)
    else
      match clen.sym s with
      | .error e => .error e
      | .ok (sym, s1) =>
        if sym < 16 then readLens clen total f (sym :: acc) s1
        else if sym = 16 ∧ acc = [] then .error (3, s1)
        else
          let eb := if sym = 16 then 2 else if sym = 17 then 3 else 7
          let base := if sym = 18 then 11 else 3
          match takeBits eb s1 with
          | .error e => .error e
          | .ok (x, s2) =>
            let v := if sym = 16 then acc.headD 0 else 0
            if total < acc.length + base + x then .error (3, s2)
            else readLens clen total f (List.replicate (base + x) v ++ acc) s2

/-- A dynamic block: its header, its codes, its data (R162). -/
def dynBlock (bound : Nat) (s : Inf) : InfM Inf := do
  let (a, s1) ← takeBits 5 s
  let (b, s2) ← takeBits 5 s1
  let (c, s3) ← takeBits 4 s2
  if 286 < a + 257 then .error (3, s3)
  else
    let (ls, s4) ← readThrees (c + 4) s3
    let clens := (List.range 19).map (fun i =>
      match ((List.range ls.length).filter (fun j => clenOrder.getD j 0 == i)).head? with
      | some j => ls.getD j 0
      | none => 0)
    if codeSpace clens ≠ 2 ^ 15 then .error (3, s4)
    else
      let (lens, s5) ← readLens (Huff.of clens) (a + 257 + (b + 1)) (a + 257 + (b + 1)) [] s4
      let lit := lens.take (a + 257)
      let dist := lens.drop (a + 257)
      let one := (dist.filter (fun l => l ≠ 0)) == [1]
      if codeSpace lit ≠ 2 ^ 15 ∨ (codeSpace dist ≠ 2 ^ 15 ∧ codeSpace dist ≠ 0 ∧ one = false) then .error (3, s5)
      else blockData bound (Huff.of lit) (Huff.of dist) (s5.bits.length + 1) s5

/-- The fixed codes. -/
def fixedLit : List Nat :=
  List.replicate 144 8 ++ List.replicate 112 9 ++ List.replicate 24 7 ++ List.replicate 8 8
def fixedDist : List Nat := List.replicate 32 5

/-- The blocks of a stream up to the end of the BFINAL block; `dyn` accepts dynamic blocks. -/
def inflateBlocks (dyn : Bool) (bound : Nat) : Nat → Inf → InfM Inf
  | 0, s => .error (6, s)
  | f + 1, s =>
    match takeBits 1 s with
    | .error e => .error e
    | .ok (fin, s1) =>
      match takeBits 2 s1 with
      | .error e => .error e
      | .ok (ty, s2) =>
        let r : InfM Inf :=
          if ty = 0 then storedBlock bound s2
          else if ty = 1 then blockData bound (Huff.of fixedLit) (Huff.of fixedDist) (s2.bits.length + 1) s2
          else if ty = 2 then (if dyn then dynBlock bound s2 else .error (8, s2))
          else .error (1, s2)
        match r with
        | .error e => .error e
        | .ok s3 => if fin = 1 then .ok s3 else inflateBlocks dyn bound f s3

/-- What decoding a strip yields: its decoded bytes and the detail code of its fault, 0 none. -/
structure Decoded where
  out : List Byte
  fault : Nat
  deriving DecidableEq, Repr

/-- Decode a strip's payload (R162-R168) with the chain's history (oldest first), its bound, whether dynamic blocks are
accepted, the trailer's CRC if it has one, and the payload offset at which a read is poisoned. -/
def inflate (dyn : Bool) (bound : Nat) (payload hist : List Byte) (crc poison : Option Nat) : Decoded :=
  let usable := match poison with | some p => payload.take p | none => payload
  let s0 : Inf := { bits := usable.flatMap byteBits, used := 0, rev := hist.reverse, n := 0 }
  match inflateBlocks dyn bound (s0.bits.length + 1) s0 with
  | .error (f, s) =>
    let hit := f == 6 && (match poison with | some p => decide (p < payload.length) | none => false)
    ⟨(s.rev.take s.n).reverse, if hit then 12 else f⟩
  | .ok s =>
    let out := (s.rev.take s.n).reverse
    if s.n < bound then ⟨out, 10⟩
    else if (s.used + 7) / 8 < payload.length then ⟨out, 7⟩
    else
      match crc with
      | some c => if crc32c out = c then ⟨out, 0⟩ else ⟨out, 11⟩
      | none => ⟨out, 0⟩

/-! ## Pre-transforms (R160, R161) -/

/-- Bytewise exclusive or. -/
def xorBytes (a b : List Byte) : List Byte := List.zipWith (fun x y => x ^^^ y) a b

/-- Four 2-bit codes as a byte. -/
def packFour (a b c e : Nat) : Byte := BitVec.ofNat 8 (a + 4 * b + 16 * c + 64 * e)

/-- The code of column k of the 8 whose low bits are `lo` and high bits `hi`. -/
def splitCode (lo hi : Byte) (k : Nat) : Nat := fld lo.toNat k 1 + 2 * fld hi.toNat k 1

/-- Inverse of the P2 plane split: low bits, then high bits. -/
def unsplitP2 (s : List Byte) : List Byte :=
  (List.zipWith (fun lo hi =>
    [packFour (splitCode lo hi 0) (splitCode lo hi 1) (splitCode lo hi 2) (splitCode lo hi 3),
     packFour (splitCode lo hi 4) (splitCode lo hi 5) (splitCode lo hi 6) (splitCode lo hi 7)])
    (s.take (s.length / 2)) (s.drop (s.length / 2))).flatten

/-- The bytes of a P2 line two by two: low bits and high bits of 8 columns. -/
def splitPairs : List Byte → List (Byte × Byte)
  | a :: b :: r =>
    let c : Nat → Nat := fun k => if k < 4 then fld a.toNat (2 * k) 2 else fld b.toNat (2 * (k - 4)) 2
    let lo := ((List.range 8).map (fun k => c k % 2 * 2 ^ k)).sum
    let hi := ((List.range 8).map (fun k => c k / 2 * 2 ^ k)).sum
    (BitVec.ofNat 8 lo, BitVec.ofNat 8 hi) :: splitPairs r
  | _ => []

/-- The plane split S of a P2 line (R160). -/
def splitP2 (l : List Byte) : List Byte := (splitPairs l).map Prod.fst ++ (splitPairs l).map Prod.snd

/-- Cut bytes into whole lines of n bytes; a partial line is left out. -/
def wholeLines (n : Nat) : Nat → List Byte → List (List Byte)
  | 0, _ => []
  | k + 1, bs => if n ≤ bs.length ∧ 0 < n then bs.take n :: wholeLines n k (bs.drop n) else []

/-- R161: invert the pre-transform over the lines of a strip. -/
def inverseLines (mode pre : Nat) : List Byte → List (List Byte) → List (List Byte)
  | _, [] => []
  | prev, t :: ts =>
    if pre = 1 then
      let s := xorBytes t prev
      (if mode = 1 then unsplitP2 s else s) :: inverseLines mode pre s ts
    else if pre = 2 then
      let o := List.zipWith (fun x y => x + y) t prev
      o :: inverseLines mode pre o ts
    else t :: inverseLines mode pre prev ts

/-- R160: the pre-transform over the lines of a strip. -/
def forwardLines (mode pre : Nat) : List Byte → List (List Byte) → List (List Byte)
  | _, [] => []
  | prev, l :: ls =>
    if pre = 1 then
      let s := if mode = 1 then splitP2 l else l
      xorBytes s prev :: forwardLines mode pre s ls
    else if pre = 2 then List.zipWith (fun x y => x - y) l prev :: forwardLines mode pre l ls
    else l :: forwardLines mode pre prev ls

end Sys2Proof.Machine
end

