-- ==== Sys2Proof/Machine/Deflate.lean ====
section
/-!
DEFINITION. The DEFLATE encoder of the compression lanes (R174-R176): its window, its blocks of 65,535 input bytes, the choice among
stored, fixed and dynamic blocks, and the bound on its output.  What matches it finds and how it codes a dynamic block the spec leaves
open: log entries 9 and 42.
-/

namespace Sys2Proof.Machine

/-! ## Matches -/

/-- A match of `len` bytes copied from `dist` bytes back, on bytes with the newest first. -/
def lzCopy (dist : Nat) : Nat → List Byte → List Byte
  | 0, rev => rev
  | k + 1, rev => lzCopy dist k (rev.getD (dist - 1) 0 :: rev)

/-- The bytes that a block's literals (0, byte) and matches (length, distance) stand for, newest first, on top of those before it; none
where a match is no match of the 32,768-byte window (R174). -/
def lzExpand : List Byte → List (Nat × Nat) → Option (List Byte)
  | rev, [] => some rev
  | rev, (len, v) :: ts =>
    if len = 0 then lzExpand (BitVec.ofNat 8 v :: rev) ts
    else if 3 ≤ len ∧ len ≤ 258 ∧ 1 ≤ v ∧ v ≤ 32768 ∧ v ≤ rev.length then lzExpand (lzCopy v len rev) ts
    else none

/-- A block all of literals. -/
def lzLiterals (block : List Byte) : List (Nat × Nat) := block.map (fun b => (0, b.toNat))

/-- The literals and matches of a block: those the encoder's search finds, which stand for exactly the block. -/
def lzBlock (verify : Bool) (rev block : List Byte) : List (Nat × Nat) :=
  let ts := Config.lzParse verify (rev.take 32768).reverse block
  if lzExpand rev ts = some (block.reverse ++ rev) then ts else lzLiterals block

/-! ## Blocks as bits, in the order of the stream -/

/-- `n` bits of a number, least significant first. -/
def lsbBits (n v : Nat) : List Bool := (List.range n).map (fun i => bitOf v i)

/-- The code of a symbol, most significant bit first. -/
def codeBits (tab : List (Nat × Nat × Nat)) (sym : Nat) : List Bool :=
  match tab.find? (fun t => t.2.2 == sym) with
  | some t => (lsbBits t.1 t.2.1).reverse
  | none => []

/-- The last row of a base table whose base is at most `v`: its index, its extra bits and the value they carry. -/
def baseOf (rows : List (Nat × Nat)) (v : Nat) : Nat × Nat × Nat :=
  let i := (rows.takeWhile (fun r => decide (r.1 ≤ v))).length - 1
  let r := rows.getD i (0, 0)
  (i, r.2, v - r.1)

/-- The bits of a literal or a match under two codes. -/
def tokBits (lit dist : List (Nat × Nat × Nat)) (t : Nat × Nat) : List Bool :=
  if t.1 = 0 then codeBits lit t.2
  else
    let l := baseOf lenBase t.1
    let d := baseOf distBase t.2
    codeBits lit (257 + l.1) ++ lsbBits l.2.1 l.2.2 ++ codeBits dist d.1 ++ lsbBits d.2.1 d.2.2

/-- A fixed-code block. -/
def fixedBits (last : Bool) (ts : List (Nat × Nat)) : List Bool :=
  let lit := codeTable fixedLit
  [last, true, false] ++ ts.flatMap (tokBits lit (codeTable fixedDist)) ++ codeBits lit 256

/-- A stored block that begins at a bit position. -/
def storedBits (last : Bool) (pos : Nat) (block : List Byte) : List Bool :=
  [last, false, false] ++ List.replicate ((8 - (pos + 3) % 8) % 8) false ++ lsbBits 16 block.length ++
    lsbBits 16 (0xFFFF - block.length) ++ block.flatMap byteBits

/-- A block by the table setting (R175): 0 fixed codes, 1 dynamic codes, 2 whichever is shortest; a stored block where the coded one would
be longer. -/
def blockBits (tables : Nat) (last : Bool) (pos : Nat) (block : List Byte) (ts : List (Nat × Nat)) : List Bool :=
  let fixed := fixedBits last ts
  let dyn := Config.dynBlock last ts
  let stored := storedBits last pos block
  let coded := if tables = 0 then fixed else if tables = 1 then dyn else if fixed.length ≤ dyn.length then fixed else dyn
  if stored.length < coded.length then stored else coded

/-! ## The stream -/

/-- The blocks of an input: 65,535 bytes each but for the last; an empty input is one empty block. -/
def cutBlocks : Nat → List Byte → List (List Byte)
  | 0, bs => [bs]
  | n + 1, bs => if bs.length ≤ 65535 then [bs] else bs.take 65535 :: cutBlocks n (bs.drop 65535)

/-- The bits of a list of blocks, each made by `f` from whether it is the last, its bit position, the bytes before it and its own. -/
def streamBits (f : Bool → Nat → List Byte → List Byte → List Bool) : Nat → List Byte → List (List Byte) → List Bool
  | _, _, [] => []
  | pos, rev, b :: bs =>
    let x := f bs.isEmpty pos rev b
    x ++ streamBits f (pos + x.length) (b.reverse ++ rev) bs

/-- Bits packed into bytes, the first in bit 0; the last byte is filled with zeros. -/
def packBits : Nat → List Bool → List Byte
  | 0, _ => []
  | n + 1, xs =>
    if xs = [] then []
    else BitVec.ofNat 8 (((List.range 8).map (fun i => b2n (xs.getD i false) * 2 ^ i)).sum) :: packBits n (xs.drop 8)

/-- A stream as bytes. -/
def streamBytes (f : Bool → Nat → List Byte → List Byte → List Bool) (input : List Byte) : List Byte :=
  let xs := streamBits f 0 [] (cutBlocks (input.length / 65535) input)
  packBits (xs.length / 8 + 1) xs

/-- The stream of stored blocks only. -/
def storedStream (input : List Byte) : List Byte := streamBytes (fun last pos _ b => storedBits last pos b) input

/-- The stream as the encoder's choices give it. -/
def codedStream (input : List Byte) (tables : Nat) (verify : Bool) : List Byte :=
  streamBytes (fun last pos rev b => blockBits tables last pos b (lzBlock verify rev b)) input

/-- The compressor's output: a DEFLATE stream of the input, no longer than R176 allows, whatever the open choices are. -/
def deflate (input : List Byte) (tables : Nat) (verify : Bool) : List Byte :=
  let out := codedStream input tables verify
  if inflate true input.length out [] none none = ⟨input, 0⟩ ∧ out.length ≤ input.length + 5 * max 1 (cdiv input.length 65535) then out
  else storedStream input

end Sys2Proof.Machine
end

