-- ==== Sys2Proof/Machine/Queue.lean ====
section
/-!
DEFINITION. The host link and the command queues (R86-R105): enabling and disabling a pair, doorbells, fetching, starting
a command, interrupts, link reset and link up.
-/

namespace Sys2Proof.Machine

/-- The outcome of a meaning that acts on the device alone: a halted module does nothing. -/
def State.withDev (s : State) (d : Dev) : Host.Outcome State Fault Refusal :=
  .next { s with dev := if s.dev.halted then s.dev else d }

/-- The outcome of a meaning whose part works in every power state. -/
def State.always (s : State) (d : Dev) : Host.Outcome State Fault Refusal := .next { s with dev := d }

/-- The outcome of a host write: DOZE ends first (R470); in RECOVERY only the SYS, HOSTQ, HEEL and NVM blocks answer (R74). -/
def State.onWrite (s : State) (f : Dev → Dev) : Host.Outcome State Fault Refusal :=
  s.withDev (if s.dev.inRecovery then s.dev else f s.dev.dozeExit)

/-! ## Starting commands (R97, R98, R103) -/

/-- No MBOX command of the plane is still to post its result (R103). -/
def Dev.mboxFree (d : Dev) (plane : Nat) : Bool :=
  d.allOuts.all (fun o => !(bitOf (entFlags o.entry) 0 && d.qPlane o.q == plane))

/-- The entry at the front of the pair may start: a CQ slot is free, FENCE and MBOX do not hold it back. -/
def Dev.mayStart (d : Dev) (q : Nat) (e : List Byte) : Bool :=
  decide (0 < d.cqFree q) && (!bitOf (entFlags e) 1 || (d.qOuts q).isEmpty) &&
    (!d.mboxOn e || d.mboxFree (d.qPlane q))

/-- Start the entry at the front of pair q: the SQ head advances, and an MBOX command clears VALID (R98, R103). -/
def Dev.startFront (d : Dev) (q : Nat) : Option (Out × Dev) :=
  match (d.qs q).fetched with
  | [] => none
  | e :: rest =>
    if d.mayStart q e then
      let h := (d.rdF (Reg.HOSTQ_Q_SQ_HEAD q) 0 16 + 1) % d.sqSize q
      let d1 := (d.setQs q { d.qs q with fetched := rest }).wrF (Reg.HOSTQ_Q_SQ_HEAD q) 0 16 h
      let d2 := if d1.mboxOn e then d1.wrBit (Reg.HOSTQ_MBOX_STAT (d.qPlane q)) 16 false else d1
      some ({ q := q, entry := e, sqHead := h, post := true }, d2)
    else none

/-- Complete the entries at the front that a plane restart ended (R95), and those whose opcode names no command (R109). -/
def Dev.drainUnknown (q : Nat) : Nat → Dev → Dev
  | 0, d => d
  | n + 1, d =>
    match (d.qs q).fetched with
    | [] => d
    | e :: _ =>
      let cut := (d.qs q).cut
      if cut = 0 ∧ (cmdInfo (entOpcode e)).isSome then d
      else
        match d.startFront q with
        | none => d
        | some (o, d1) =>
          let d2 := d1.setQs q { d1.qs q with cut := cut - 1 }
          Dev.drainUnknown q n (d2.complete o (if cut = 0 then INVALID_OPCODE else PLANE_RESTARTED) 0 [])

/-- Complete every entry at the front that runs no command. -/
def Dev.drain (d : Dev) (q : Nat) : Dev := Dev.drainUnknown q (d.qs q).fetched.length d

/-- The front entry of pair q is the named command. -/
def Dev.frontIs (d : Dev) (q opc : Nat) : Bool :=
  match (d.qs q).fetched with
  | [] => false
  | e :: _ => entOpcode e == opc && (d.qs q).cut == 0

/-- Start the named command if it stands at the front of pair q and may start: the checks of R110 steps 1 to 5 complete
it, or `body` runs it.  Otherwise nothing starts. -/
def Dev.runCmd (d : Dev) (q opc : Nat) (body : Dev → Out → Dev) : Dev :=
  if d.frontIs q opc then
    match d.startFront q with
    | none => d
    | some (o, d1) =>
      match d1.cmdCheck q o.entry with
      | some st => (d1.complete o st 0 []).drain q
      | none => (body d1 o).drain q
  else d

/-! ## Enabling and disabling (R93, R94) -/

/-- The vector range of a plane (R101). -/
def vectorOk (plane v : Nat) : Bool :=
  if plane = 0 then decide (v ≤ 15) else if plane = 1 then decide (16 ≤ v ∧ v ≤ 39) else decide (40 ≤ v ∧ v ≤ 63)

/-- The set-up of pair q is acceptable (R93). -/
def Dev.pairOk (d : Dev) (q : Nat) : Bool :=
  let inBar2 := d.bit (Reg.HOSTQ_Q_CTRL q) 3
  (inBar2 || d.rdF (Reg.HOSTQ_Q_SQ_BASE_LO q) 0 12 == 0) && d.rdF (Reg.HOSTQ_Q_CQ_BASE_LO q) 0 12 == 0 &&
    (!inBar2 || decide (d.rdF (Reg.HOSTQ_Q_SIZE q) 0 4 ≤ 7)) &&
    vectorOk (d.qPlane q) (d.rdF (Reg.HOSTQ_Q_CTRL q) 4 6) &&
    (d.feat 1 || (decide (q ≤ 2) && d.qPlane q == q))

/-- Write the fields of HOSTQ_Qq_CTRL other than ENABLE; the reserved PLANE value leaves PLANE as it was and is logged
(R12). -/
def Dev.writeCtrl (d : Dev) (q v : Nat) : Dev :=
  let a := Reg.HOSTQ_Q_CTRL q
  let p := if fld v 1 2 = 3 then d.qPlane q else fld v 1 2
  let d1 := d.wr a (d.rdF a 0 1 + p * 2 + fld v 3 1 * 8 + fld v 4 6 * 16 + fld v 10 1 * 1024)
  if fld v 1 2 = 3 then d1.writeIgnored a v else d1

/-- A write with ENABLE = 1 (R93): the check, and an accepted enable starts the pair empty with phase 1. -/
def Dev.opQueueEnable (d : Dev) (q v : Nat) : Dev :=
  let a := Reg.HOSTQ_Q_CTRL q
  if d.qEnabled q ∨ d.bit (Reg.HOSTQ_Q_STATUS q) 0 then d.wrBit a 10 (bitOf v 10)
  else
    let d1 := d.writeCtrl q v
    if d1.pairOk q then
      let d2 := (d1.wrBit a 0 true).wr (Reg.HOSTQ_Q_STATUS q) 1
      let d3 := ((d2.wr (Reg.HOSTQ_Q_SQ_HEAD q) 0).wr (Reg.HOSTQ_Q_SQ_TAIL q) 0).wr (Reg.HOSTQ_Q_CQ_HEAD q) 0
      (d3.wr (Reg.HOSTQ_Q_CQ_TAIL q) 0x10000).setQs q {}
    else d1.wrBit (Reg.HOSTQ_Q_STATUS q) 2 true

/-- Clear ACTIVE of a disabled pair once nothing fetched is left to complete (R94). -/
def Dev.clearActive (d : Dev) (q : Nat) : Dev :=
  if !d.qEnabled q && (d.qs q).fetched.isEmpty && (d.qOuts q).isEmpty then d.wrBit (Reg.HOSTQ_Q_STATUS q) 0 false else d

/-- A write with ENABLE = 0 (R94): fetching stops; on a pair that is neither enabled nor active it sets the fields. -/
def Dev.opQueueDisable (d : Dev) (q v : Nat) : Dev :=
  let a := Reg.HOSTQ_Q_CTRL q
  if d.qEnabled q ∨ d.bit (Reg.HOSTQ_Q_STATUS q) 0 then ((d.wrBit a 0 false).wrBit a 10 (bitOf v 10)).clearActive q
  else d.writeCtrl q v

/-! ## Doorbells and fetching (R97-R99) -/

/-- R99: stop the pair with the status bit, log, and signal the plane's event vector. -/
def Dev.queueError (d : Dev) (q statusBit : Nat) : Dev :=
  ((d.wrBit (Reg.HOSTQ_Q_STATUS q) statusBit true).append (d.qPlane q) .queueError (vals [q, statusBit])).vector
    (eventVector (d.qPlane q))

/-- SQ tail doorbell. -/
def Dev.opSqTail (d : Dev) (q v : Nat) : Dev :=
  if d.qFetching q then
    let n := d.sqSize q
    let new := v % 0x10000
    let old := d.rdF (Reg.HOSTQ_Q_SQ_TAIL q) 0 16
    let head := d.rdF (Reg.HOSTQ_Q_SQ_HEAD q) 0 16
    if new < n ∧ (new + n - old) % n ≤ (head + n - 1 + n - old) % n then d.wrF (Reg.HOSTQ_Q_SQ_TAIL q) 0 16 new
    else d.queueError q 1
  else d

/-- A CQ head doorbell acts on the pair: it is enabled, or still active with commands fetched before it was disabled or stopped, whose
completion entries need the CQ slots that the host frees (R94, R98, R99). -/
def Dev.cqServed (d : Dev) (q : Nat) : Bool := d.qFetching q || d.bit (Reg.HOSTQ_Q_STATUS q) 0

/-- CQ head doorbell. -/
def Dev.opCqHead (d : Dev) (q v : Nat) : Dev :=
  if d.cqServed q then
    let n := d.cqSize q
    let new := v % 0x10000
    let old := d.rdF (Reg.HOSTQ_Q_CQ_HEAD q) 0 16
    let tail := d.rdF (Reg.HOSTQ_Q_CQ_TAIL q) 0 16
    if new < n ∧ (new + n - old) % n ≤ (tail + n - old) % n then ((d.wrF (Reg.HOSTQ_Q_CQ_HEAD q) 0 16 new).drain q).clearActive q
    else d.queueError q 1
  else d

/-- Entries between the last one fetched and the SQ tail. -/
def Dev.sqWaiting (d : Dev) (q : Nat) : Nat :=
  let n := d.sqSize q
  let at_ := (d.rdF (Reg.HOSTQ_Q_SQ_HEAD q) 0 16 + (d.qs q).fetched.length) % n
  (d.rdF (Reg.HOSTQ_Q_SQ_TAIL q) 0 16 + n - at_) % n

/-- The entry in slot `i` of a device-resident SQ (R91). -/
def Dev.bar2Entry (d : Dev) (q i : Nat) : List Byte := mapRead 0 d.host.bar2 (0x10000 + 0x2000 * q + 64 * i) 64

/-- A fetch completes: its entries, at most those the doorbell made available, join the fetched ones. -/
def Dev.opSqFetch (d : Dev) (q : Nat) (r : FetchRes) : Dev :=
  if d.qFetching q then
    match r with
    | .error => (d.queueError q 3).bump Reg.HOSTQ_UE_COUNT
    | .entries es0 =>
      let es := es0.map (padTo 64)
      let k := min es.length (d.sqWaiting q)
      let at_ := d.rdF (Reg.HOSTQ_Q_SQ_HEAD q) 0 16 + (d.qs q).fetched.length
      let got :=
        if d.bit (Reg.HOSTQ_Q_CTRL q) 3 then (List.range k).map (fun i => d.bar2Entry q ((at_ + i) % d.sqSize q))
        else es.take k
      (d.setQs q { d.qs q with fetched := (d.qs q).fetched ++ got }).drain q
  else d

/-! ## Link reset and link up (R87, R89) -/

/-- The MSI-X table and pending bits as a reset of the function leaves them: every vector masked. -/
def Dev.resetMsix (d : Dev) : Dev :=
  ((List.range 64).foldl
    (fun acc v => acc.wrWords (Reg.HOSTQ_MSIX_TABLE (4 * v)) [0, 0, 0, 1]) d).wrWords (Reg.HOSTQ_MSIX_PBA 0) [0, 0]

/-- Disable every pair and drop what was fetched and not started. -/
def Dev.disableAll (d : Dev) : Dev :=
  (List.range 16).foldl
    (fun acc q => ((acc.wrBit (Reg.HOSTQ_Q_CTRL q) 0 false).setQs q {}).clearActive q) d

/-- The submissions whose data is in transfer: of each plane the first that waits, whose turn has come, while its bytes still have to
be read (log entry 96); those behind it, and raw strips that have been read, have no DMA in flight. -/
def inTransfer (ws : List StripWait) : List StripWait :=
  (ws.foldl (fun (acc : List (Nat × Nat) × List StripWait) w =>
    if acc.1.contains (w.job, w.bar) then acc
    else ((w.job, w.bar) :: acc.1, if w.done.isNone then acc.2 ++ [w] else acc.2)) ([], [])).2

/-- R89: a host link reset.  The data DMA in flight ends; every other command that has started runs on and posts no completion
entry. -/
def Dev.opHostLinkReset (d : Dev) (lost : Bool) : Dev :=
  let stop : Out → Out := fun o => { o with post := false }
  let stopW : PairWait → PairWait := fun w => { w with out := stop w.out }
  let moving := inTransfer d.strip.waits
  let cut := (moving.map StripWait.out).map stop
  let waits := (d.strip.waits.filter (fun w => !moving.contains w)).map (fun w => { w with out := stop w.out })
  let streams := d.strip.cmpWait.map (fun c => { c with out := c.out.map stop })
  let d0 : Dev := { d with host := { d.host with outs := d.host.outs.map stop },
                           strip := { d.strip with waits := waits, cmpWait := streams },
                           pair := { d.pair with waits := d.pair.waits.map stopW, startWait := d.pair.startWait.map stop } }
  let d1 := (cut.foldl (fun acc o => acc.complete o DMA_ABORTED 0 []) d0).disableAll.resetMsix
  let d2 := if lost then d1.wr Reg.HOSTQ_STATUS 0x100 else d1.wrBit Reg.HOSTQ_STATUS 8 true
  (d2.append 0 .hostLinkReset []).bump Reg.HOSTQ_FLR_COUNT

/-- R87: the link trains up; WAKE# is released (R478). -/
def Dev.opHostLinkUp (d : Dev) (width speed : Nat) : Dev :=
  let d0 := d.wakeRelease
  let d1 := d0.wr Reg.HOSTQ_STATUS (1 + width * 2 + speed * 32 + d.rdF Reg.HOSTQ_STATUS 8 1 * 256)
  if width < 8 ∨ speed < 5 then d1.append 0 .linkDegraded (vals [width, speed]) else d1

/-! ## Meanings -/

/-- SQ_TAIL_DOORBELL (R97, R99). -/
def execSqTailDoorbell (q : Fin 16) (value : Word) (s : State) : Host.Outcome State Fault Refusal :=
  s.withDev (s.dev.dozeExit.opSqTail q value.toNat)

/-- CQ_HEAD_DOORBELL (R98, R99). -/
def execCqHeadDoorbell (q : Fin 16) (value : Word) (s : State) : Host.Outcome State Fault Refusal :=
  s.withDev (s.dev.dozeExit.opCqHead q value.toNat)

/-- SQ_FETCH (R97). -/
def execSqFetch (q : Fin 16) (res : FetchRes) (s : State) : Host.Outcome State Fault Refusal :=
  s.withDev (s.dev.opSqFetch q res)

/-- QUEUE_ENABLE (R93). -/
def execQueueEnable (q : Fin 16) (value : Word) (s : State) : Host.Outcome State Fault Refusal :=
  s.withDev (s.dev.dozeExit.opQueueEnable q value.toNat)

/-- QUEUE_DISABLE (R94). -/
def execQueueDisable (q : Fin 16) (value : Word) (s : State) : Host.Outcome State Fault Refusal :=
  s.withDev (s.dev.dozeExit.opQueueDisable q value.toNat)

/-- QUEUE_DRAINED (R94). -/
def execQueueDrained (q : Fin 16) (s : State) : Host.Outcome State Fault Refusal :=
  s.withDev (s.dev.clearActive q)

/-- INTERRUPT_AGG_TIMEOUT (R102). -/
def execInterruptAggTimeout (q : Fin 16) (s : State) : Host.Outcome State Fault Refusal :=
  s.withDev
    (if s.dev.bit (Reg.HOSTQ_Q_CTRL q) 10 && decide (0 < (s.dev.qs q).unsent) then s.dev.completionVector q else s.dev)

/-- HOST_LINK_RESET (R89). -/
def execHostLinkReset (dataLinkLost : Bool) (s : State) : Host.Outcome State Fault Refusal :=
  s.withDev (s.dev.opHostLinkReset dataLinkLost)

/-- HOST_LINK_UP (R87): x1, x2, x4 or x8 lanes, at 2.5, 5.0, 8.0, 16.0 or 32.0 GT/s. -/
def execHostLinkUp (width : Fin 4) (speed : Fin 5) (s : State) : Host.Outcome State Fault Refusal :=
  s.withDev (s.dev.opHostLinkUp (2 ^ width.val) (speed + 1))

end Sys2Proof.Machine
end

