-- ==== Sys2Proof/Machine/Outputs.lean ====
section
/-!
DEFINITION. When the field outputs are driven, and the levels their pins take when that changes (R48, R51, R75, R236, R239,
R258, R392).
-/

namespace Sys2Proof.Machine

/-- The field outputs are driven: SERVICE, and DRIVING where the wiring is shared (R51, R75, R236). -/
def Dev.fieldDriven (d : Dev) : Bool := d.inService && d.driving

/-- The outputs have left their unpowered state (R53, R74, R469): mains present, awake, and start-up has reached HOLD. -/
def Dev.live (d : Dev) : Bool :=
  !d.pwr.failing && decide (d.rdF Reg.PWR_STATUS 0 3 < 3) && (d.rdF Reg.SYS_STATUS 0 4 == 1 || d.rdF Reg.SYS_STATUS 0 4 == 2)

/-- The level of an output that its own rules do not drive: `rest` in a HOLD that drives it, and else high impedance, `hz` (R51, R53). -/
def Dev.restLevel (d : Dev) (rest hz : Nat) : Nat := if d.live && d.driving then rest else hz

/-- Compare output k is enabled. -/
def Dev.cmpEn (d : Dev) (k : Nat) : Bool := d.cfB (Reg.POS_CMP_CFG k) 0

/-- Show whether the compare pins are driven, and the level they take (R236): 0 or 1, 2 for high impedance.  In SERVICE the rules
give an output that is not enabled no level. -/
def Dev.cmpDrive (d : Dev) : Dev :=
  (List.range 8).foldl
    (fun acc k =>
      let acc1 := acc.wrBit (Reg.POS_CMP_STATUS k) 1 (acc.cmpEn k && acc.fieldDriven)
      if acc.fieldDriven then
        (if acc.cmpEn k then acc1.send (.pin "CMP" k (acc.rdF (Reg.POS_CMP_STATUS k) 0 1)) else acc1)
      else acc1.send (.pin "CMP" k (acc.restLevel 0 2))) d

def Dev.emuSt (d : Dev) (e : Nat) : EmuSt := mapGet {} d.pos.emu e
def Dev.setEmu (d : Dev) (e : Nat) (x : EmuSt) : Dev := { d with pos := { d.pos with emu := mapSet {} d.pos.emu e x } }
def Dev.emuEn (d : Dev) (e : Nat) : Bool := d.cfB (Reg.POS_EMU_CFG e) 0

/-- The pins of an emulation output at its emitted count: A + 2 B + 4 Z (R239). -/
def Dev.emuPins (d : Dev) (e : Nat) : Nat :=
  let n := (d.emuSt e).emitted
  let q := (n % 4).toNat
  let a := b2n (q == 1 || q == 2)
  let b := b2n (q == 2 || q == 3)
  let z := d.cf (Reg.POS_EMU_Z_PERIOD e)
  let zz := b2n (z != 0 && n % (z : Int) == 0)
  (if d.cfB (Reg.POS_EMU_CFG e) 4 then b + 2 * a else a + 2 * b) + 4 * zz

/-- Show whether the emulation pins are driven, and their levels: static 0 in HOLD, 8 for high impedance (R51, R75, R240). -/
def Dev.emuDrive (d : Dev) : Dev :=
  (List.range 2).foldl
    (fun acc e =>
      let acc1 := acc.wrBit (Reg.POS_EMU_STATUS e) 0 (acc.emuEn e && acc.fieldDriven)
      if acc.fieldDriven then (if acc.emuEn e then acc1.send (.pin "EMU" e (acc.emuPins e)) else acc1)
      else acc1.send (.pin "EMU" e (acc.restLevel 0 8))) d

/-- Show OWED and CATCHING_UP. -/
def Dev.showOwed (d : Dev) (e : Nat) : Dev :=
  let o := d.rdS64 (Reg.POS_EMU_TARGET_LO e) - (d.emuSt e).emitted
  (d.wrS (Reg.POS_EMU_OWED e) (satS 32 o)).wrBit (Reg.POS_EMU_STATUS e) 1 (o != 0)

/-- A module that becomes STANDBY: its emitted counts equal its targets (R240). -/
def Dev.emuAlign (d : Dev) : Dev :=
  (List.range 2).foldl
    (fun acc e => (acc.setEmu e { acc.emuSt e with emitted := acc.rdS64 (Reg.POS_EMU_TARGET_LO e) }).showOwed e) d

/-- SSI_CLK of both serial channels (R51, R216): a channel that is in use is clocked, or heard where SERVICE leaves its clock at high
impedance; between sequences, and in a HOLD that drives it, the clock rests at 1; 2 is high impedance. -/
def Dev.ssiDrive (d : Dev) : Dev :=
  (List.range 2).foldl
    (fun acc c =>
      let en := acc.cfB (Reg.POS_SSI_CFG c) 0
      let acc1 := (acc.wrBit (Reg.POS_SSI_STATUS c) 4 (en && acc.fieldDriven)).wrBit (Reg.POS_SSI_STATUS c) 5
        (en && acc.inService && !acc.driving)
      acc1.send (.pin "SSI_CLK" c (acc.restLevel 1 2))) d

/-- Drive the SPEED_LIMIT output: on while released, in a module that drives its outputs and is no STANDBY (R51, R258). -/
def Dev.speedPin (d : Dev) : Dev :=
  d.send (.pin "SPEED_LIMIT" 0 (b2n (!d.bit Reg.FIRE_STATUS 0 && d.fieldDriven && d.role != 2)))

/-- PPS_OUT falls. -/
def Dev.opPpsFall (d : Dev) : Dev :=
  if d.time.ppsHigh then ({ d with time := { d.time with ppsHigh := false } } : Dev).send (.pin "PPS_OUT" 0 0) else d

/-- PPS_OUT outside its pulses: 0 where it is driven, else high impedance; a pulse under way ends (R51, R392). -/
def Dev.ppsDrive (d : Dev) : Dev :=
  if d.fieldDriven then d.send (.pin "PPS_OUT" 0 (b2n d.time.ppsHigh))
  else ({ d with time := { d.time with ppsHigh := false } } : Dev).send (.pin "PPS_OUT" 0 (d.restLevel 0 2))

/-- Every field output follows a change of role, of state or of DRIVING. -/
def Dev.outputs (d : Dev) : Dev := ((((d.cmpDrive).emuDrive).ssiDrive).ppsDrive).speedPin

/-! ## Supplies and sideband (R43, R51-R53, R469, R478) -/

/-- ESTOP1_SRC, ESTOP2_SRC and KEY_SRC (0 to 2) go on or off. -/
def Dev.srcPin (d : Dev) (k : Nat) (on : Bool) : Dev :=
  if k < 2 then d.send (.pin "ESTOP_SRC" (k + 1) (b2n on)) else d.send (.pin "KEY_SRC" 0 (b2n on))

/-- The three sources together. -/
def Dev.sources (d : Dev) (on : Bool) : Dev := ((d.srcPin 0 on).srcPin 1 on).srcPin 2 on

/-- CLKREQ# is pulled low or released: low from step 4 of a start-up and from the start of the PCIe lanes at a wake, released with
the other outputs. -/
def Dev.clkReq (d : Dev) (low : Bool) : Dev :=
  if d.pwr.clkReq == low then d
  else ({ d with pwr := { d.pwr with clkReq := low } } : Dev).send (.sideband "CLKREQ#" (b2n (!low)))

/-- The outputs that come alive with HOLD, at the end of a start-up or of a wake. -/
def Dev.holdOutputs (d : Dev) : Dev := d.outputs.sources true

/-! ## Front indicators (R62) -/

/-- What an indicator shows. -/
inductive Lamp where
  | off | green | greenFlashing | amber | red | blue
  deriving DecidableEq, Repr

def Dev.lampPwr (d : Dev) : Lamp := if d.pwr.failing then .greenFlashing else .green

def Dev.lampRole (d : Dev) : Lamp :=
  if d.role == 2 then .amber else if d.bit Reg.PAIR_STATUS 8 && d.pwr.j2 then .green else .off

/-- FAULT is lit while FAULT records are outstanding (R499); STARTUP_FAIL at step 4 is one (R74). -/
def Dev.lampFault (d : Dev) : Lamp := if d.rdF Reg.HLTH_STATUS 0 8 != 0 then .red else .off

def Dev.lampRemove (d : Dev) : Lamp := if d.pwr.ejected && !d.pwr.failing then .blue else .off

end Sys2Proof.Machine
end

