-- ==== Sys2Proof/Machine/Roles.lean ====
section
/-!
DEFINITION. Role and step state changes of the redundant pair that other chapters cause (R415-R418, R429, R431, R437):
resignation, falling out of step, starting a resynchronisation, print-affecting faults.
-/

namespace Sys2Proof.Machine

/-- A STANDBY reports every camera down and keeps its frame numbers; open frames are lost (R335, R352). -/
def Dev.camsAway (d : Dev) : Dev :=
  let away : CamSt → CamSt := fun x => { x with trigs := [], bound := x.nextTrig, armed := false, fresh := false, queue := [],
                                                frame := none, prev := none }
  ({ d with cam := d.cam.map (fun x => (x.1, away x.2)) } : Dev).wrF Reg.CXP_STATUS 0 4 0

/-- Change the role and step state: the matched run starts again (R427), and PAIR_LAST_CAUSE shows the role cause. -/
def Dev.setRole (d0 : Dev) (role step cause : Nat) : Dev :=
  let d := if role = 2 then (d0.camsAway).emuAlign else d0
  let d1 := ((d.wrF Reg.PAIR_STATUS 0 2 role).wrF Reg.PAIR_STATUS 2 2 step).wrF Reg.PAIR_LAST_CAUSE 0 4 cause
  let d2 : Dev := { d1 with pair := { d1.pair with runs := [], mismatch := none } }
  d2.wr64 Reg.PAIR_MATCH_RUN_LO 0

/-- Release ROLE and the shared field outputs: high impedance (R416, R431). -/
def Dev.release (d : Dev) : Dev :=
  if d.bit Reg.PAIR_STATUS 8 then ((d.wrBit Reg.PAIR_STATUS 8 false).send (.pin "ROLE" 0 2)).outputs else d

/-- Drive ROLE and the field outputs (R433); ROLE stays at high impedance until the PRESENT pins have settled (R63). -/
def Dev.drive (d : Dev) : Dev :=
  if d.bit Reg.PAIR_STATUS 8 then d else ((d.wrBit Reg.PAIR_STATUS 8 true).send (.pin "ROLE" 0 (if d.pwr.j2 then 1 else 2))).outputs

/-- R437: a resynchronisation starts: SYNCING, no tokens, SYNC_REQ 1. -/
def Dev.startResync (d : Dev) : Dev :=
  let d1 : Dev := { d with pair := { d.pair with resync := [], joined := 0, stateIn := [], await := [], runs := [] } }
  ((d1.wrF Reg.PAIR_STATUS 2 2 2).wr64 Reg.PAIR_MATCH_RUN_LO 0).shank 0xC (leBytes 8 1)

/-- A state item of the resynchronisation goes to the compression lanes (R173, R438). -/
def Dev.queueItem (d : Dev) (item bar : Nat) (input : List Byte) : Dev :=
  d.addStream { use := 1, input := input, verify := d.cfB Reg.DFL_CMP_CTRL 3, item := item, bar := bar }

/-- Numbers of a state item, 8 bytes each; the layout of the items is the model's own. -/
def encInts (xs : List Int) : List Byte := xs.flatMap (fun x => leBytes 8 (uns 64 x))

/-- Numbered rows of a state item. -/
def encRows (m : NMap (List Int)) : List Int :=
  (m.length : Int) :: m.flatMap (fun r => (r.1 : Int) :: (r.2.length : Int) :: r.2)

/-- In the ACTIVE: item 6, 7 or 8 of bar b is due for line l of its job: it is sent once. -/
def Dev.itemDue (d : Dev) (b item l : Nat) : Bool :=
  match mapGet none d.pair.syncOut b with
  | some (lb, m) => d.role == 1 && lb == l && bitOf m (item - 6)
  | none => false

/-- In the ACTIVE: send item 6, 7 or 8 of bar b. -/
def Dev.sendItem (d : Dev) (b item : Nat) (input : List Byte) : Dev :=
  let f : Option (Nat × Nat) → Option (Nat × Nat) := fun x =>
    match x with
    | some (lb, m) => if m = 2 ^ (item - 6) then none else some (lb, putFld m (item - 6) 1 0)
    | none => none
  let d1 : Dev := { d with pair := { d.pair with syncOut := mapMod none d.pair.syncOut b f } }
  d1.queueItem item b input

/-- In a SYNCING STANDBY: item 7 or 8 of bar b has not come yet. -/
def Dev.awaits (d : Dev) (b item : Nat) : Bool := d.role == 2 && d.stepState == 2 && bitOf (mapGet 0 d.pair.await b) (item - 6)

/-- A STANDBY becomes OUT_OF_STEP for a cause; with AUTO_RESYNC it resynchronises (R437). -/
def Dev.outOfStep (d : Dev) (cause : Nat) : Dev :=
  if d.role = 2 ∧ d.stepState ≠ 1 then
    let d1 := ((d.wrF Reg.PAIR_STATUS 2 2 1).wrF Reg.PAIR_LAST_CAUSE 4 4 cause).wrBit Reg.PAIR_STATUS 10 false
    let d2 := d1.event 2 .pairOutOfStep (vals [d.rd Reg.PAIR_EPOCH, cause])
    if d2.cfB Reg.PAIR_CFG 3 then d2.startResync else d2
  else d

/-- R431: the ACTIVE resigns for a cause (1 COMMAND, 2 FAULT, 3 MISMATCH, 4 HOLD_ENTRY) and becomes STANDBY with a
step state. -/
def Dev.resign (d : Dev) (cause step : Nat) : Dev :=
  if d.role = 1 then
    let d1 := d.release
    let body := leBytes 8 cause ++ (List.range 8).flatMap (fun b => leBytes 8 (d.bf b).next)
    let d2 := (d1.shank 0xA body).wrF Reg.PAIR_LAST_CAUSE 8 4 cause
    (d2.setRole 2 step 6).event 2 .pairResign (vals [d.rd Reg.PAIR_EPOCH, cause])
  else d

/-- R429: a print-affecting fault appended for a bar at a line. -/
def Dev.printFault (d : Dev) (b line : Nat) : Dev :=
  let at_ := mapSet 0 d.pair.faultAt b ((d.bf b).issuedEver + 1)
  let d1 : Dev := { d with pair := { d.pair with faults := ((b, line) :: d.pair.faults).take 64, faultAt := at_ } }
  if d1.role = 1 && d1.partnerInStep then d1.resign 2 1
  else if d1.role = 2 then d1.outOfStep 7
  else d1

/-- R267, R421: a decision of the ACTIVE goes to the STANDBY. -/
def Dev.decision (d : Dev) (line b head dkind cause count : Nat) : Dev :=
  if d.role = 1 then
    d.shank 4 (leBytes 8 line ++ leBytes 1 b ++ leBytes 1 head ++ leBytes 1 dkind ++ leBytes 1 cause ++ leBytes 4 count)
  else d

/-- The module sends MASTER on a bar: always without pair operation; otherwise as ACTIVE, or on the bars that a planned
takeover has given it (R280, R435). -/
def Dev.masterOn (d : Dev) (b : Nat) : Bool := !d.pairOn || ((d.role == 1) != bitOf d.pair.master b)

/-- The epoch a bar's frames carry (R280, R435). -/
def Dev.epochOn (d : Dev) (b : Nat) : Nat :=
  if d.pairOn = false then 0
  else if d.role = 2 ∧ bitOf d.pair.master b then d.rd Reg.PAIR_EPOCH + 1 else d.rd Reg.PAIR_EPOCH

/-- The bar of a resynchronising STANDBY has not joined yet (R439). -/
def Dev.syncing (d : Dev) (b : Nat) : Bool := d.role == 2 && d.stepState == 2 && !bitOf d.pair.joined b

/-- A STANDBY whose own checks refused what the ACTIVE accepted goes OUT_OF_STEP (R424). -/
def Dev.settlePair (d : Dev) : Dev :=
  if d.pair.refusedOwn then
    let d1 : Dev := { d with pair := { d.pair with refusedOwn := false } }
    d1.outOfStep 4
  else d

end Sys2Proof.Machine
end

