-- ==== Sys2Proof/Machine/Match.lean ====
section
/-!
DEFINITION. Matched commands of the redundant pair (R424): KEY, DIGEST, and how a matched command starts on each role.
-/

namespace Sys2Proof.Machine

/-- The counter of R424 that a command's KEY uses: its opcode, and for TABLE_LOAD also its bar, head and bank. -/
def countKey (e : List Byte) : Nat :=
  if entOpcode e = 0x0210 then 0x0210 + (byteAt e 9 + byteAt e 10 * 0x100 + byteAt e 11 * 0x10000) * 0x10000
  else entOpcode e

/-- KEY of a matched command whose ordinal since formation is `n` (R424). -/
def matchKey (e : List Byte) (n : Nat) : Nat :=
  let op := entOpcode e
  if op = 0x0210 then
    op + (byteAt e 8 + byteAt e 9 * 0x100) * 0x10000 +
      (byteAt e 10 + byteAt e 11 * 0x100 + n % 0x10000 * 0x10000) * 0x100000000
  else if op = 0x0120 ∨ op = 0x0121 ∨ op = 0x0122 then op + numAt e 8 4 * 0x100000000
  else op + n % 0x100000000 * 0x100000000

/-- PARAM with buffer references and START_AT set to 0 (R424). -/
def digestParam (e : List Byte) : List Byte :=
  let p := (e.drop 8).take 56
  let op := entOpcode e
  if op = 0x0120 ∨ op = 0x0210 then p.take 16 ++ List.replicate 16 0 ++ p.drop 32
  else if op = 0x0121 then p.take 8 ++ List.replicate 8 0 ++ p.drop 16
  else p

/-- DIGEST: the CRC-32C of PARAM so masked and the buffer's data. -/
def Dev.matchDigest (d : Dev) (e : List Byte) (dma : Dma) : Nat :=
  let data :=
    if entOpcode e = 0x0120 ∨ entOpcode e = 0x0210 then
      match d.buffer e dma with
      | .ok els => dmaBytes dma (bufTotal els)
      | _ => []
    else []
  crc32c (digestParam e ++ data)

/-- Give up on a matched command: PAIR_MISMATCH, counted, and OUT_OF_STEP (R424). -/
def Dev.matchFail (d : Dev) (o : Out) : Dev :=
  ((d.complete o PAIR_MISMATCH 0 []).bump Reg.PAIR_CMD_MISMATCH_COUNT).outOfStep 4

/-- The STANDBY's command meets the ACTIVE's final CMD frame (R424). -/
def Dev.matchResolve (d : Dev) (w : PairWait) (f : CmdFrame) (body : Dev → Out → Dev) : Dev :=
  if f.digest ≠ w.digest then d.matchFail w.out
  else if f.status ≠ 0 then d.complete w.out f.status f.result []
  else
    let o : Out := { w.out with actRes := some f.result }
    match d.cmdCheck o.q o.entry with
    | some st => (d.complete o st 0 []).settlePair
    | none => (body d o).settlePair

/-- A matched command starts: outside a formed pair as any command; on the ACTIVE with CMD frames at its start and its
completion; on the STANDBY it waits for the ACTIVE's frame (R424). -/
def Dev.runMatched (d : Dev) (q opc : Nat) (dma : Dma) (body : Dev → Out → Dev) : Dev :=
  if d.frontIs q opc = false then d
  else
    match d.startFront q with
    | none => d
    | some (o, d1) =>
      let plain : Dev → Out → Dev := fun x y =>
        match x.cmdCheck q y.entry with
        | some st => x.complete y st 0 []
        | none => body x y
      if d1.pairOn && d1.formed then
        let n := mapGet 0 d1.pair.counts (countKey o.entry) + 1
        let key := matchKey o.entry n
        let dg := d1.matchDigest o.entry dma
        let d2 : Dev := { d1 with pair := { d1.pair with counts := mapSet 0 d1.pair.counts (countKey o.entry) n } }
        let o2 : Out := if d2.role = 0 then o else { o with mkey := some (key, dg) }
        if d2.role = 2 then
          let w : PairWait := { out := o2, key := key, digest := dg, dma := dma }
          match d2.pair.kept.find? (fun f => f.key == key) with
          | some f =>
            let kept := d2.pair.kept.filter (fun g => g.key != key)
            let d3 : Dev := { d2 with pair := { d2.pair with kept := kept } }
            if f.status = 0xFFFF ∧ f.digest = dg then
              let w' : PairWait := { w with seen := true }
              ({ d3 with pair := { d3.pair with waits := d3.pair.waits ++ [w'] } }).drain q
            else (d3.matchResolve w f body).drain q
          | none => ({ d2 with pair := { d2.pair with waits := d2.pair.waits ++ [w] } }).drain q
        else
          let d3 := if d2.role = 1 then d2.shank 7 (cmdBody key dg 0xFFFF 0) else d2
          (plain d3 o2).drain q
      else (plain d1 o).drain q

end Sys2Proof.Machine
end

