-- ==== Sys2Proof/Machine/Strips.lean ====
section
/-!
DEFINITION. Strips: submission and storing (R121, R136, R145, R156, R157), raw strips and the compression lanes (R173-R179),
decoding, its faults and the context that moves between lanes (R147, R150, R151, R163-R172).
-/

namespace Sys2Proof.Machine

/-! ## How far the input ring has taken a plane (R145, R147, R181) -/

/-- Bar lines that the input ring holds beyond the last line handed on (R181). -/
def ringLines (mode : Nat) : Nat := if mode = 3 then 128 else 64

/-- The line of the bar, counted on in the job in progress there, that is line 0 of the job: the line of the JOB_SWITCH that brings it,
else 0 (R147). -/
def Dev.decShift (d : Dev) (j : Job) (b : Nat) : Nat :=
  if (d.bf b).job = j.id then 0
  else match d.switchOn b with | some (m, inc) => if inc = j.id then m else 0 | none => 0

/-- The index after the last line of the job that has a place in the bar's input ring or has left it: lines enter it while a slot is
free, 64 lines beyond the last one handed on (R147, R181). -/
def Dev.ringEnd (d : Dev) (j : Job) (b : Nat) : Nat := (d.br b).handed + ringLines j.mode - d.decShift j b

/-- A decoded strip's lines have all entered the ring; until then the lane holds back those past it, and the strip counts as not yet
fully decoded (R145, R147, R151; log entry 103). -/
def Dev.entered (d : Dev) (j : Job) (b : Nat) (p : PlaneSt) (s : Strip) : Bool :=
  decide (s.no < p.decNext) && decide (s.firstLine + s.lineCount ≤ d.ringEnd j b)

/-- The strip whose lines a lane still holds back for want of ring slots, and the bar line it begins at: the one decoded last, since the
next begins only at a line that has a slot. -/
def Dev.heldBack (d : Dev) (j : Job) (b : Nat) : Option (Strip × Nat) :=
  let p := d.plane j.id b
  match p.lastDec with
  | some (n, base) =>
    match p.strips.find? (fun s => s.no == n) with
    | some s => if d.ringEnd j b < base + s.lineCount then some (s, base) else none
    | none => none
  | none => none

/-- A strip stays in the window until every line of its chain has been decoded (R145): the strips of the leading chains that are wholly
decoded leave it.  A chain is whole once a strip that starts another is stored or arriving, or the plane's last strip is stored. -/
def Dev.freeChains (d : Dev) (j : Job) (b : Nat) (arriving : Bool) : Dev :=
  let p := d.plane j.id b
  if j.rep then d
  else
    let starts := (p.strips.filter (fun s => s.history == 0)).map Strip.no ++ (if p.lastSeen || arriving then [p.nextStrip] else [])
    let done := starts.filter (fun n => p.strips.all (fun s => decide (n ≤ s.no) || d.entered j b p s))
    let cut := done.foldl max 0
    if p.strips.any (fun s => decide (s.no < cut)) then
      d.setPlane j.id b { p with strips := p.strips.filter (fun s => decide (cut ≤ s.no)) }
    else d

/-! ## Storing strips -/

/-- Bytes the strips of a bar take in its window, over every job that is not a repeat job. -/
def Dev.winUsed (d : Dev) (b : Nat) : Nat :=
  ((d.strip.planes.filter (fun x => x.1 % 8 == b &&
    !(match d.findJob (x.1 / 8) with | some j => j.rep | none => false))).map
      (fun x => (x.2.strips.map stripBytes).sum)).sum

/-- Bytes a repeat job has stored. -/
def Dev.repStored (d : Dev) (id : Nat) : Nat :=
  ((d.strip.planes.filter (fun x => x.1 / 8 == id)).map (fun x => (x.2.strips.map stripBytes).sum)).sum

/-- Largest byte count of the strips that some 65,536 lines ending in the newest strip cover (R134, R136). -/
def spanBytes (density : List (Nat × Nat × Nat)) (first : Nat) : Nat :=
  ((density.filter (fun x => first < x.1 + x.2.1 + 65535)).map (fun x => x.2.2)).sum

/-- Store a strip: the plane's counts, PLANE_SHORT, the density check (R121, R136). -/
def Dev.storeStrip (d : Dev) (j : Job) (b : Nat) (s : Strip) : Dev :=
  let p := d.plane j.id b
  let ends := s.firstLine + s.lineCount
  let dens := (s.firstLine, s.lineCount, 32 + s.payload.length) ::
    p.density.filter (fun x => s.firstLine < x.1 + x.2.1 + 65535)
  let seen := spanBytes dens s.firstLine
  let dense := decide ((mapGet {} j.planes b : PlaneRec).peakBytes < seen)
  let p1 : PlaneSt := { p with nextStrip := s.no + 1, nextLine := ends, lastSeen := s.last, strips := p.strips ++ [s],
                               chainLines := (if s.history = 1 then p.chainLines else 0) + s.lineCount, density := dens,
                               peakSeen := max p.peakSeen seen, densityDue := p.densityDue || dense }
  let d1 := d.setPlane j.id b p1
  let d2 : Dev :=
    if j.rep then
      let use := max (mapGet 0 d1.strip.repeatUse j.id) (d1.repStored j.id)
      ({ d1 with strip := { d1.strip with repeatUse := mapSet 0 d1.strip.repeatUse j.id use } }).showRepeat
    else d1
  let d3 := if dense then d2.event 1 .densityExceeded (vals [j.id, b, seen]) else d2
  let d4 := if s.last && decide (ends < j.lines) then d3.event 1 .planeShort (vals [j.id, b, ends]) else d3
  d4.showFill b

/-- Whether there is room for a strip: a status that refuses it, `some OK` for room, `none` to wait (R121). -/
def Dev.roomFor (d : Dev) (j : Job) (size b : Nat) : Option Nat :=
  if j.rep then
    let now := mapGet 0 d.strip.repeatUse j.id
    let want := d.repStored j.id + size
    if want ≤ now ∨ d.repeatUsed + (want - now) ≤ d.repeatStore then some OK else some REPEAT_STORE_FULL
  else if d.winBytes < size then some STRIP_TOO_LARGE
  else if d.winUsed b + size ≤ d.winBytes then some OK
  else none

/-- The C8-600 evenness rules of R155. -/
def evenOk (j : Job) (first count : Nat) (last : Bool) : Bool :=
  j.mode != 3 || (first % 2 == 0 && (count % 2 == 0 || (last && j.lines % 2 == 1)))

/-- The envelope and its buffer length pass R157, R121 and R136. -/
def Dev.envOk (d : Dev) (j : Job) (b strip : Nat) (last : Bool) (e : List Byte) : Bool :=
  let p := d.plane j.id b
  let pr : PlaneRec := mapGet {} j.planes b
  let hist := byteAt e 5
  let chk := byteAt e 4
  let first := numAt e 16 8
  let count := numAt e 24 4
  let pay := numAt e 28 4
  decide (32 ≤ e.length) && byteAt e 0 == 1 && byteAt e 1 == j.mode && byteAt e 2 == b && byteAt e 3 == pr.pre &&
    decide (chk ≤ 1) && decide (hist ≤ 1) && numAt e 6 2 == 0 && numAt e 8 4 == j.id && numAt e 12 4 == strip &&
    (chk == 0 || d.feat 15) && (hist == 0 || strip != 0) && first == p.nextLine && decide (first + count ≤ j.lines) &&
    evenOk j first count last && decide (1 ≤ count ∧ count ≤ 4096) && decide (1 ≤ pay ∧ pay ≤ 536870912) &&
    e.length == 32 + pay + 4 * chk && (hist == 0 || decide (p.chainLines + count ≤ pr.chainMax))

/-- Job, bar, strip number and LAST of a submission. -/
def subJob (e : List Byte) : Nat := numAt e 8 4
def subBar (e : List Byte) : Nat := byteAt e 12
def subLast (e : List Byte) : Bool := bitOf (byteAt e 13) 0
def subStrip (e : List Byte) : Nat := numAt e 16 4

/-- The strip of an accepted envelope. -/
def stripOf (last : Bool) (e : List Byte) : Strip :=
  let pay := numAt e 28 4
  { no := numAt e 12 4, history := byteAt e 5, check := byteAt e 4, firstLine := numAt e 16 8, lineCount := numAt e 24 4,
    payload := (e.drop 32).take pay, crc := numAt e (32 + pay) 4, last := last }

/-- Store a checked strip or wait: `none` when the window has no room.  RESULT, the compressed bytes stored, is the strip's envelope,
payload and trailer (log entry 104 for STRIP_SUBMIT_RAW). -/
def Dev.putStrip (d0 : Dev) (j : Job) (b : Nat) (o : Out) (s : Strip) : Option Dev :=
  let d := d0.freeChains j b (s.history == 0)
  match d.roomFor j (stripBytes s) b with
  | none => none
  | some st =>
    if st = OK then some ((d.storeStrip j b s).complete o OK (stripBytes s) []) else some (d.complete o st 0 [])

/-- The turn of a STRIP_SUBMIT. -/
def Dev.submitTurn (d : Dev) (j : Job) (w : StripWait) : Option Dev :=
  let e := w.out.entry
  match d.buffer e w.dma, dataErr w.dma with
  | .ok els, none =>
    let bytes := dmaBytes w.dma (bufTotal els)
    if d.envOk j w.bar (subStrip e) (subLast e) bytes then d.putStrip j w.bar w.out (stripOf (subLast e) bytes)
    else some (d.complete w.out ENVELOPE_BAD 0 [])
  | _, _ => some (d.dmaIn w.out w.dma (fun _ => none) (fun x _ => x))

/-- The raw lines of a strip after the pre-transform, as one byte string (R179). -/
def rawInput (j : Job) (pre : Nat) (bytes : List Byte) : List Byte :=
  (forwardLines j.mode pre (List.replicate (lineBytes j.mode) 0)
    (wholeLines (lineBytes j.mode) (bytes.length / lineBytes j.mode + 1) bytes)).flatten

/-- The turn of a STRIP_SUBMIT_RAW that is not compressed yet: its checks, then a stream for a compression lane.  The CRC bit without
DFL_CRC is ENVELOPE_BAD, as CHECK = 1 is in an envelope (R157); the spec does not say so of byte 14 (log entry 104). -/
def Dev.rawTurn (d : Dev) (j : Job) (w : StripWait) : Option Dev :=
  let e := w.out.entry
  let p := d.plane j.id w.bar
  let pr : PlaneRec := mapGet {} j.planes w.bar
  let count := numAt e 20 4
  if count = 0 ∨ 4096 < count then some (d.complete w.out OUT_OF_RANGE 0 [])
  else
    some (d.dmaIn w.out w.dma (fun n => if n = decodedSize j.mode count then none else some OUT_OF_RANGE)
      (fun x bytes =>
        if byteAt e 15 ≠ pr.pre ∨ j.lines < p.nextLine + count ∨ evenOk j p.nextLine count (subLast e) = false ∨
            (bitOf (byteAt e 14) 0 ∧ x.feat 15 = false) then x.complete w.out ENVELOPE_BAD 0 []
        else if x.rd Reg.DFL_CMP_OK = 0 then x.complete w.out LANE_FAULT 0 []
        else
          x.addStream { use := 2, input := rawInput j pr.pre bytes, verify := bitOf (byteAt e 14) 1, out := some w.out }))

/-- The strip that the module builds from a compressed raw strip (R179). -/
def Dev.builtStrip (d : Dev) (j : Job) (b : Nat) (e payload decoded : List Byte) : Strip :=
  { no := subStrip e, history := 0, check := b2n (bitOf (byteAt e 14) 0), firstLine := (d.plane j.id b).nextLine,
    lineCount := numAt e 20 4, payload := payload, crc := crc32c decoded, built := some decoded, last := subLast e }

/-- The turn of a waiting submission: `none` when it must go on waiting (R121).  A PLANE that is no bar of the job is OUT_OF_RANGE; the
spec gives it no status (log entry 104). -/
def Dev.stripTurn (d : Dev) (w : StripWait) : Option Dev :=
  let e := w.out.entry
  match d.findJob w.job with
  | none => some (d.complete w.out NO_SUCH_JOB 0 [])
  | some j =>
    let p := d.plane j.id w.bar
    if 8 ≤ w.bar ∨ bitOf j.barMask w.bar = false then some (d.complete w.out OUT_OF_RANGE 0 [])
    else if subStrip e ≠ p.nextStrip ∨ p.lastSeen then some (d.complete w.out STRIP_ORDER 0 [])
    else
      match w.done with
      | some (payload, decoded) => d.putStrip j w.bar w.out (d.builtStrip j w.bar e payload decoded)
      | none => if entOpcode e = 0x0202 then d.rawTurn j w else d.submitTurn j w

/-- A raw strip of the plane is with the compression lanes. -/
def Dev.rawBusy (d : Dev) (job b : Nat) : Bool :=
  d.strip.cmpWait.any (fun c => c.use == 2 &&
    (match c.out with | some o => subJob o.entry == job && subBar o.entry == b | none => false))

/-- The first waiting submission of a plane. -/
def firstWait (job b : Nat) (ws : List StripWait) : Option StripWait := ws.find? (fun w => w.job == job && w.bar == b)

/-- Remove the first waiting submission of a plane. -/
def dropWait (job b : Nat) : List StripWait → List StripWait
  | [] => []
  | w :: ws => if w.job = job ∧ w.bar = b then ws else w :: dropWait job b ws

/-- Give the waiting submissions of a plane their turns, in order, until one must wait. -/
def Dev.kickPlane (job b : Nat) : Nat → Dev → Dev
  | 0, d => d
  | n + 1, d =>
    if d.rawBusy job b then d
    else
      match firstWait job b d.strip.waits with
      | none => d
      | some w =>
        let d1 : Dev := { d with strip := { d.strip with waits := dropWait job b d.strip.waits } }
        match d1.stripTurn w with
        | none => d
        | some d2 => Dev.kickPlane job b n d2

/-- Turns for one plane. -/
def Dev.kick (d : Dev) (job b : Nat) : Dev := Dev.kickPlane job b (d.strip.waits.length + 1) d

/-- Turns for every plane with a waiting submission. -/
def Dev.kickAll (d : Dev) : Dev := (d.strip.waits.map (fun w => (w.job, w.bar))).foldl (fun acc x => acc.kick x.1 x.2) d

/-- The body of STRIP_SUBMIT and STRIP_SUBMIT_RAW. -/
def Dev.submitBody (dma : Dma) (d : Dev) (o : Out) : Dev :=
  let w : StripWait := { out := o, job := subJob o.entry, bar := subBar o.entry, dma := dma }
  ({ d with strip := { d.strip with waits := d.strip.waits ++ [w] } }).kick w.job w.bar

/-! ## Compression lanes (R173-R178) -/

/-- The table setting of a stream (R175). -/
def Dev.cmpTables (d : Dev) (use : Nat) : Nat :=
  if (use = 3 ∨ use = 4) ∧ d.feat 14 = false then 0 else d.cfF Reg.DFL_CMP_CTRL 0 2

/-- A finished stream goes to its owner. -/
def Dev.streamDone (d : Dev) (c : CmpJob) (bytes : List Byte) : Dev :=
  if c.use = 1 then (if d.shankUp then Dev.shankState c.item c.bar (bytes.length / 4088 + 1) 0 d bytes else d)
  else
    match c.out with
    | none => d
    | some o =>
      if c.use = 2 then
        let w : StripWait := { out := o, job := subJob o.entry, bar := subBar o.entry, dma := ⟨[], [], none⟩,
                               done := some (bytes, c.input) }
        ({ d with strip := { d.strip with waits := w :: d.strip.waits } }).kick w.job w.bar
      else if c.use = 3 then d.dmaPut o c.els c.err (bytes.take (bufTotal c.els)) (fun y n => y.complete o OK n [])
      else
        -- R501: the stream and its CRC-32C; the records and GAP in RESULT, the first and the next SEQ in the mailbox data (R123)
        d.dmaPut o c.els c.err ((bytes ++ leBytes 4 (crc32c c.input)).take (bufTotal c.els))
          (fun y _ => y.complete o OK o.note (leBytes 8 c.bar ++ leBytes 8 c.item))

/-- R178: the self-verification of a stream fails on its lane: the command, or the owner of a pair state stream, gets SELF_VERIFY_FAIL.
With no lane left the raw strips complete with LANE_FAULT. -/
def Dev.verifyFail (d : Dev) (c : CmpJob) : Dev :=
  let lane := c.lane.getD 0
  let d1 := ((d.wrBit Reg.DFL_CMP_OK lane false).bump Reg.DFL_VERIFY_FAIL_COUNT).event 1 .cmpVerifyFail
    (vals [lane, c.use])
  let d2 : Dev := match c.out with
    | some o => d1.complete o SELF_VERIFY_FAIL 0 []
    | none => { d1 with pair := { d1.pair with failed := d1.pair.failed ++ [(c.item, c.bar, SELF_VERIFY_FAIL)] } }
  if d2.rd Reg.DFL_CMP_OK = 0 then
    let raws := d2.strip.cmpWait.filter (fun x => x.use == 2)
    let d3 : Dev := { d2 with strip := { d2.strip with cmpWait := d2.strip.cmpWait.filter (fun x => x.use != 2) } }
    (((raws.filterMap CmpJob.out).foldl (fun acc o => acc.complete o LANE_FAULT 0 []) d3).fillCmp).kickAll
  else d2.fillCmp.kickAll

/-- COMPRESSION_STREAM: a stream on a lane ends, of several the one that comes first (log entry 105), and the lane takes the next. -/
def Dev.opStream (d0 : Dev) (verifyFails : Bool) : Dev :=
  let d := d0.fillCmp
  match nextStream (d.strip.cmpWait.filter (fun c => c.lane.isSome)) with
  | none => d
  | some c =>
    let d1 : Dev := { d with strip := { d.strip with cmpWait := putStream c [] d.strip.cmpWait } }
    if c.verify && verifyFails then d1.verifyFail c
    else d1.fillCmp.streamDone c (deflate c.input (d1.cmpTables c.use) c.verify)

/-! ## Decoding (R147, R163-R172) -/

/-- The plane has been decoded to its end: a repeat job's after its last cycle. -/
def planeDecoded (j : Job) (p : PlaneSt) : Bool :=
  if j.rep then p.lastSeen && j.cyclic && decide (j.cycles ≠ 0) && decide (j.cycles ≤ p.decCycle) ||
    (p.lastSeen && !j.cyclic && decide (1 ≤ p.decCycle))
  else p.lastSeen && p.decNext == p.nextStrip

/-- The plane's final chain has been dealt: its last strip is stored and its last chain has been given to a lane (R142). -/
def finalDealt (j : Job) (p : PlaneSt) : Bool :=
  !j.rep && p.lastSeen && p.strips.all (fun s => s.history != 0 || decide (s.no < p.decNext))

/-- The lane, or saved image, that holds the chain of a plane. -/
def Dev.holder (d : Dev) (job b : Nat) : Option (Nat × LaneCtx) :=
  d.strip.lanes.find? (fun x => x.2.job == job && x.2.bar == b)

/-- The job that a pending JOB_SWITCH brings to a bar. -/
def Dev.nextJob (d : Dev) (b : Nat) : Option Job :=
  match d.switchOn b with
  | some (_, inc) =>
    match d.findJob inc with
    | some k => if k.active && bitOf k.barMask b then some k else none
    | none => none
  | none => none

/-- The job whose plane lane n of a bar decodes now (R142): the job on the bar; the one that a JOB_SWITCH brings for a lane left over,
and, once the plane's final chain has been dealt, for every lane but the one that holds that chain. -/
def Dev.decJob (d : Dev) (n b : Nat) : Option Job :=
  match d.barJob b with
  | none => none
  | some j =>
    let p := d.plane j.id b
    let free := match d.holder j.id b with | some h => h.1 != n && decide (h.1 < 24) | none => false
    let gone := planeDecoded j p
    if bitOf d.strip.ahead n || gone || (finalDealt j p && free) then
      match d.nextJob b with
      | some k => some k
      | none => if gone then none else some j
    else some j

/-- R147: decoding of bar line n of the job may begin: line n - 1,024 has fired, and the ring has a slot for the line. -/
def Dev.mayDecode (d : Dev) (j : Job) (b n : Nat) : Bool :=
  decide (n + d.decShift j b ≤ (match d.findJob (d.bf b).job with | some k => (k.onBar b).issued | none => 0) + 1023) &&
    decide (n < d.ringEnd j b)

/-- The counter of a fault's detail code. -/
def faultCounter (detail : Nat) : Nat :=
  if detail = 9 then Reg.DFL_OVERRUN_COUNT
  else if detail = 10 then Reg.DFL_SHORT_COUNT
  else if detail = 11 then Reg.DFL_CRC_ERR_COUNT
  else Reg.DFL_STREAM_ERR_COUNT

/-- R169: the chain is broken at a strip with a detail code. -/
def Dev.chainBroken (d : Dev) (job b strip lane detail line : Nat) : Dev :=
  let d1 := (d.wr Reg.DFL_LAST_ERR (detail + b * 0x100 + lane * 0x800 + 0x10000)).wr Reg.DFL_LAST_ERR_STRIP strip
  let d2 := ((d1.wr Reg.DFL_LAST_ERR_JOB job).bump Reg.DFL_CHAIN_BROKEN_COUNT).event 1 .chainBroken
    (vals [job, b, strip, detail])
  if detail = 12 ∨ detail = 13 then d2.printFault b line else d2

/-- R170: a fault of R168. -/
def Dev.stripFault (d : Dev) (job b strip lane detail line : Nat) : Dev :=
  let d1 := (d.event 1 .stripFault (vals [job, b, strip, lane, detail])).bump (faultCounter detail)
  let d2 := d1.modJob job (fun j => { j with stripFaults := j.stripFaults + 1 })
  d2.chainBroken job b strip lane detail line

/-- Replace the context of a lane, and show it in DFL_LANEn. -/
def Dev.setLane (d : Dev) (n : Nat) (c : LaneCtx) : Dev :=
  let d1 : Dev := { d with strip := { d.strip with lanes := mapSet {} d.strip.lanes n c } }
  if n < 24 then d1.wr (Reg.DFL_LANE n) (d1.rdF (Reg.DFL_LANE n) 0 4 + b2n c.histValid * 16 + b2n c.broken * 32) else d1

/-- Record the lines of a decoded or blank strip, by absolute bar line of the job. -/
def putLines (mode base count : Nat) (ls : List (List Byte)) (m : NMap LineData) : NMap LineData :=
  (List.range count).foldl
    (fun acc i =>
      let v : LineData := match ls[if mode = 3 then i / 2 else i]? with | some l => .data l | none => .blank 6
      mapSet (.blank 0) acc (base + i) v) m

/-- The plane after its strip `s` has been dealt with: the next strip and the cycle. -/
def planeAfter (j : Job) (s : Strip) (p : PlaneSt) : PlaneSt :=
  if s.last && j.rep then { p with decNext := 0, decCycle := p.decCycle + 1 } else { p with decNext := s.no + 1 }

/-- At a strip boundary of a plane whose density was exceeded the figure observed takes the place of PEAK_BYTES, and a re-plan is due
(R136, R149). -/
def Dev.densityBoundary (d : Dev) (job b : Nat) : Dev :=
  let p := d.plane job b
  if p.densityDue then
    let d1 := d.setPlane job b { p with densityDue := false, peakUse := p.peakSeen }
    { d1 with job := { d1.job with replanDue := Nat.lor d1.job.replanDue 32 } }
  else d

/-- Decode one strip of a plane on lane n. -/
def Dev.decodeStrip (d : Dev) (n : Nat) (poison : Option Nat) (j : Job) (b : Nat) (s : Strip) : Dev :=
  let p := d.plane j.id b
  let pr : PlaneRec := mapGet {} j.planes b
  let base := p.decCycle * j.lines + s.firstLine
  let cleared : Dev := match d.holder j.id b with | some h => d.setLane h.1 {} | none => d
  if s.history = 1 ∧ p.broken then
    let p1 : PlaneSt := { p with lines := putLines j.mode base s.lineCount [] p.lines, lastDec := some (s.no, base),
                                 before := { broken := true } }
    (cleared.setPlane j.id b (planeAfter j s p1)).densityBoundary j.id b
  else
    let ctx : LaneCtx := match d.holder j.id b with | some h => if s.history = 1 then h.2 else {} | none => {}
    let bound := decodedSize j.mode s.lineCount
    let r : Decoded := inflate (d.feat 14 || s.built.isSome) bound s.payload ctx.hist (if s.check = 1 then some s.crc else none) poison
    let lb := lineBytes j.mode
    let ls := inverseLines j.mode pr.pre (List.replicate lb 0) (wholeLines lb (r.out.length / lb + 1) r.out)
    let p1 : PlaneSt := { p with lines := putLines j.mode base s.lineCount ls p.lines, broken := r.fault != 0,
                                 lastDec := some (s.no, base), before := ctx }
    let cleared' := if cleared.itemDue b 6 base then
        cleared.sendItem b 6 (imageOf { ctx with job := j.id, bar := b, strip := s.no, pre := pr.pre })
      else cleared
    let d1 := cleared'.setPlane j.id b (planeAfter j s p1)
    let all := (ctx.hist ++ r.out)
    let ctx' : LaneCtx :=
      { job := j.id, bar := b, strip := s.no + 1, pre := pr.pre, histValid := r.fault == 0 && !s.last,
        hist := if r.fault = 0 ∧ s.last = false then all.drop (all.length - 32768) else [],
        winPos := if r.fault = 0 ∧ s.last = false then (ctx.winPos + r.out.length) % 32768 else 0, broken := r.fault != 0 }
    let d2 := d1.setLane n ctx'
    let d3 := (d2.wr64 Reg.DFL_IN_BYTES_LO (d2.rd64 Reg.DFL_IN_BYTES_LO + s.payload.length)).wr64 Reg.DFL_OUT_BYTES_LO
      (d2.rd64 Reg.DFL_OUT_BYTES_LO + r.out.length)
    let d4 := if r.fault = 0 then d3 else d3.stripFault j.id b s.no n r.fault base
    d4.densityBoundary j.id b

/-- STRIP_DECODE on lane n: the next strip of the plane the lane decodes. -/
def Dev.opStripDecode (d : Dev) (n : Nat) (poison : Option Nat) : Dev :=
  let b := d.rdF (Reg.DFL_LANE n) 0 4
  if d.bit Reg.PLACE_DFL_OK n = false ∨ 8 ≤ b then d
  else
    match d.decJob n b with
    | none => d
    | some j =>
      let p := d.plane j.id b
      match p.strips.find? (fun s => s.no == p.decNext) with
      | none => d
      | some s =>
        if d.mayDecode j b (p.decCycle * j.lines + s.firstLine) then
          (((d.decodeStrip n poison j b s).freeChains j b false).kick j.id b).assignLanes
        else d

/-- The lane that takes over a chain: a healthy lane without one, of the same bar first. -/
def Dev.spareLane (d : Dev) (b : Nat) : Option Nat :=
  let idle := d.dflLanes.filter (fun n => !d.laneBusy n)
  match idle.find? (fun n => d.rdF (Reg.DFL_LANE n) 0 4 == b) with
  | some n => some n
  | none => idle.head?

/-- R151, R172: a decompression lane fails; its chain goes on from the saved image, which is the lane's state at the last strip
boundary, unless `readImage` refuses what the system region gives (`imageBad`): then the chain breaks at the strip in progress, and its lines
that have not reached the ring print blank. -/
def Dev.opLaneFail (d : Dev) (n : Nat) (imageBad : Bool) : Dev :=
  if d.bit Reg.PLACE_DFL_OK n = false then d
  else
    let c : LaneCtx := mapGet {} d.strip.lanes n
    let d1 := d.wrBit Reg.PLACE_DFL_OK n false
    let d2 : Dev := { d1 with strip := { d1.strip with lanes := mapErase n d1.strip.lanes },
                              job := { d1.job with replanDue := Nat.lor d1.job.replanDue 1 } }
    let d3 := d2.wr (Reg.DFL_LANE n) 0xF
    if c.histValid = false then d3
    else if imageBad then
      let p := d3.plane c.job c.bar
      let held := (d3.findJob c.job).bind (fun j => (d3.heldBack j c.bar).map (fun x => (x.1.no, d3.ringEnd j c.bar, x.2 + x.1.lineCount)))
      let line := match p.strips.find? (fun s => s.no == c.strip) with | some s => s.firstLine | none => p.nextLine
      let bad := match held with | some (no, from_, _) => (no, from_) | none => (c.strip, line)
      let lines := match held with
        | some (_, from_, end_) => putLines 4 from_ (end_ - from_) [] p.lines
        | none => p.lines
      (d3.setPlane c.job c.bar { p with broken := true, lines := lines }).chainBroken c.job c.bar bad.1 n 13 bad.2
    else
      match d3.spareLane c.bar with
      | some t => (d3.wrF (Reg.DFL_LANE t) 0 4 c.bar).setLane t c
      | none => d3.setLane (24 + c.bar) c

/-- R149: the re-plan that changes of parts have made due. -/
def Dev.opReplan (d : Dev) : Dev :=
  if d.job.replanDue = 0 then d
  else
    let cause := d.job.replanDue
    let d1 := ({ d with job := { d.job with replanDue := 0 } }).replan cause
    if d1.inService then d1.planSlots else d1

/-! ## Meanings -/

/-- STRIP_SUBMIT (R120, R121, R136, R157). -/
def execStripSubmit (q : Fin 16) (dma : Dma) (s : State) : Host.Outcome State Fault Refusal :=
  s.withDev (s.dev.runCmd q 0x0201 (Dev.submitBody dma))

/-- STRIP_SUBMIT_RAW (R179). -/
def execStripSubmitRaw (q : Fin 16) (dma : Dma) (s : State) : Host.Outcome State Fault Refusal :=
  s.withDev (s.dev.runCmd q 0x0202 (Dev.submitBody dma))

/-- STRIP_WINDOW_ROOM (R121, R145). -/
def execStripWindowRoom (s : State) : Host.Outcome State Fault Refusal := s.withDev s.dev.kickAll

/-- COMPRESSION_STREAM (R173-R178). -/
def execCompressionStream (verifyFails : Bool) (s : State) : Host.Outcome State Fault Refusal :=
  s.withDev (s.dev.opStream verifyFails)

/-- STRIP_DECODE (R147, R163-R170). -/
def execStripDecode (lane : Fin 24) (poison : Option Nat) (s : State) : Host.Outcome State Fault Refusal :=
  s.withDev (s.dev.opStripDecode lane poison)

/-- DECOMPRESSION_LANE_FAIL (R151, R172). -/
def execDecompressionLaneFail (lane : Fin 24) (imageBad : Bool) (s : State) : Host.Outcome State Fault Refusal :=
  s.withDev (s.dev.opLaneFail lane imageBad)

/-- PLACEMENT_REPLAN (R149, R151, R413). -/
def execPlacementReplan (s : State) : Host.Outcome State Fault Refusal := s.withDev s.dev.opReplan

end Sys2Proof.Machine
end

