-- ==== Sys2Proof/Machine/Dram.lean ====
section
/-!
DEFINITION. The DRAM channels (R394-R406): requests and grants, burst reads with their check code, the two copies of the
system region, device and channel failures, parity alerts, calibration, power-down and self-refresh.
-/

namespace Sys2Proof.Machine

/-! ## Placement of the system region (R396, R397) -/

/-- The grain of the interleave. -/
def Dev.grain (d : Dev) : Nat := 2 ^ d.cfF Reg.PLACE_GRAIN 0 4

/-- The share of the system region, 4 GiB, on each of k channels. -/
def sysShare (k g : Nat) : Nat := if k = 0 then 0 else cdiv 0x100000000 (k * g) * g

/-- Where copy 0 or 1 of a system-region offset lies under a healthy list. -/
def sysPlace (list : List Nat) (g o copy : Nat) : Nat × Nat :=
  let k := list.length
  let i := o / g
  (list.getD ((i + copy) % k) 0, i / k * g + o % g + copy * (sysShare k g / 2))

/-- R396: the share of a region on each of k channels, and where an offset of a region lies, from the region's base. -/
def regionShare (size k g : Nat) : Nat := if k = 0 then 0 else cdiv size (k * g) * g
def regionPlace (list : List Nat) (g base o : Nat) : Nat × Nat :=
  (list.getD (o / g % list.length) 0, base + o / g / list.length * g + o % g)

/-- Bases of the repeat store and of the window region on each channel (R144, R396). -/
def Dev.repBase (d : Dev) : Nat := sysShare d.channels d.grain
def Dev.winBase (d : Dev) : Nat := d.repBase + regionShare d.repeatStore d.channels d.grain

/-- Where an offset of the repeat store lies, and one of the window of a bar: the windows follow one another in bar order (R396). -/
def Dev.repPlace (d : Dev) (o : Nat) : Nat × Nat := regionPlace (bitsOf 4 (d.rd Reg.PLACE_CH_OK)) d.grain d.repBase o
def Dev.winPlace (d : Dev) (b o : Nat) : Nat × Nat :=
  regionPlace (bitsOf 4 (d.rd Reg.PLACE_CH_OK)) d.grain d.winBase (b * d.winBytes + o)

/-- The system-region offset and copy of an address, if it lies there. -/
def sysOffset (list : List Nat) (g c a : Nat) : Option (Nat × Nat) :=
  let k := list.length
  let s := sysShare k g
  if list.contains c ∧ a < s then
    let copy := if a < s / 2 then 0 else 1
    let a' := a - copy * (s / 2)
    let idx := (list.idxOf c + k - copy % k) % k
    some ((a' / g * k + idx) * g + a' % g, copy)
  else none

/-- The channel is in service. -/
def Dev.chanOk (d : Dev) (c : Nat) : Bool := d.bit (Reg.MEMC_CH_STATUS c) 0

/-- Copy 1 of the system block whose copy 0 lies at an address, when its channel is in service. -/
def Dev.copyOne (d : Dev) (c a : Nat) : Option (Nat × Nat) :=
  match sysOffset d.mem.sysList d.grain c a with
  | some (o, 0) =>
    let x := sysPlace d.mem.sysList d.grain o 1
    if d.chanOk x.1 then some x else none
  | _ => none

/-! ## Words -/

/-- The stored word of a burst, and its replacement; the all-zero word is not listed. -/
def Dev.word (d : Dev) (c a : Nat) : List Nat :=
  let w := mapGet [] d.mem.words (c * 0x10000000 + a / 64)
  if w = [] then List.replicate 40 0 else w
def Dev.setWord (d : Dev) (c a : Nat) (w : List Nat) : Dev :=
  let v := if w.all (fun s => s == 0) then [] else w
  { d with mem := { d.mem with words := mapSet [] d.mem.words (c * 0x10000000 + a / 64) v } }

/-- Write a burst, in both copies where it lies in copy 0 of the system region (R397). -/
def Dev.putWord (d : Dev) (c a : Nat) (w : List Nat) : Dev :=
  let d1 := d.setWord c a w
  match d.copyOne c a with
  | some x => d1.setWord x.1 x.2 w
  | none => d1

/-- Bytes of a burst with a write merged in. -/
def mergeBytes (old : List Byte) (o : Nat) (bs : List Byte) : List Byte := old.take o ++ bs ++ old.drop (o + bs.length)

/-- Keep a command in the retry buffer (R402). -/
def Dev.keepCmd (d : Dev) (c kind a : Nat) : Dev :=
  let x := d.chan c
  (d.setChan c { x with retry := ((kind, a) :: x.retry).take 16 }).send (.memCmd c kind a)

/-- Answer a read. -/
def Dev.reply (d : Dev) (c : Nat) (r : MemReq) (bad : Bool) (bs : List Byte) : Dev :=
  d.send (.memReply c r.port r.addr bad bs)

/-! ## Failures -/

/-- The lines of the chain that ends before strip number n (R136). -/
def chainBefore (n : Nat) (ss : List Strip) : Nat :=
  (ss.filter (fun s => s.no < n)).foldl (fun acc s => (if s.history = 1 then acc else 0) + s.lineCount) 0

/-- The strip that a lane was decoding is lost with the rest: the plane goes back to it, its lines that have not reached the ring are
gone, and its chain stands where it stood before it. -/
def Dev.undoStrip (d : Dev) (j : Job) (b : Nat) : Dev :=
  match d.heldBack j b with
  | none => d
  | some (s, base) =>
    let p := d.plane j.id b
    let p1 : PlaneSt := { p with decNext := s.no, decCycle := if j.rep then base / j.lines else p.decCycle, lastDec := none,
                                 broken := p.before.broken, lines := p.lines.filter (fun x => decide (x.1 < d.ringEnd j b)) }
    let d1 := d.setPlane j.id b p1
    match d1.holder j.id b with
    | some h => d1.setLane h.1 (if s.history = 1 then { p.before with job := j.id, bar := b, strip := s.no } else {})
    | none => d1

/-- R151: the strips of a plane that are not fully decoded are lost; of a repeat job every one. -/
def Dev.loseStrips (d : Dev) (job b : Nat) : Dev :=
  match d.findJob job with
  | none => d
  | some j =>
    let d0 := d.undoStrip j b
    let p := d0.plane job b
    let lost := if j.rep then p.strips else p.strips.filter (fun s => p.decNext ≤ s.no)
    match lost with
    | [] => d0
    | s :: _ =>
      let p1 : PlaneSt :=
        { p with nextStrip := s.no, nextLine := s.firstLine, lastSeen := false,
                 strips := if j.rep then [] else p.strips.filter (fun x => x.no < p.decNext),
                 chainLines := if s.history = 1 then chainBefore s.no p.strips else 0,
                 density := p.density.filter (fun x => x.1 < s.firstLine) }
      ((d0.setPlane job b p1).event 1 .stripResubmit (vals [job, b, s.no])).showFill b

/-- R121, R151: the submissions whose data is in transfer when the strips are lost complete with DRAM_FAULT: the first one waiting of
each plane, and the raw strips that are with the compression lanes or have left them (log entry 96). -/
def Dev.failTransfers (d : Dev) : Dev :=
  let first : StripWait → Bool := fun w => w.done.isSome || (inTransfer d.strip.waits).contains w
  let raws := d.strip.cmpWait.filter (fun c => c.use == 2)
  let outs := (d.strip.waits.filter first).map StripWait.out ++ raws.filterMap CmpJob.out
  let d1 : Dev := { d with strip := { d.strip with waits := d.strip.waits.filter (fun w => !first w),
                                                   cmpWait := d.strip.cmpWait.filter (fun c => c.use != 2) } }
  outs.foldl (fun acc o => acc.complete o DRAM_FAULT 0 []) d1.fillCmp

/-- R404: a channel fails for a cause. -/
def Dev.chanFail (d : Dev) (c cause : Nat) : Dev :=
  if d.chanOk c then
    let d1 := (d.wrF (Reg.MEMC_CH_STATUS c) 13 3 cause).wrBit (Reg.MEMC_CH_STATUS c) 0 false
    let d2 := ((d1.wrBit Reg.MEMC_STATUS c false).wrBit Reg.PLACE_CH_OK c false).wrBit Reg.MEMC_STATUS 4 true
    let d3 := d2.event 1 .dramChannelFailed (vals [c, cause])
    let d4 : Dev := { d3 with job := { d3.job with replanDue := Nat.lor d3.job.replanDue 2 } }
    let d5 := ((d4.strip.planes.map Prod.fst).foldl (fun acc k => acc.loseStrips (k / 8) (k % 8)) d4).failTransfers.resizeWindows.kickAll
    d5.completeWhere (fun o => entOpcode o.entry == 0x0360 && (byteAt o.entry 8 == 4 || byteAt o.entry 8 == 5) &&
      numAt o.entry 12 4 == c) DRAM_FAULT (fun _ => 0)
  else d

/-- One second in time-counter units. -/
def oneSecond : Nat := 400000000

/-- Times within the last second, with now added. -/
def lastSecond (now : Nat) (ts : List Nat) : List Nat := now :: ts.filter (fun t => now < t + oneSecond)

/-- R395: the rank, bank group, bank, row and column of a channel-local address; bank group and bank are hashed with the row. -/
def rankOf (a : Nat) : Nat := fld a 17 1
def groupOf (a : Nat) : Nat := Nat.xor (fld a 8 3) (fld a 18 3)
def bankOf (a : Nat) : Nat := Nat.xor (fld a 11 2) (fld a 21 2)
def rowOf (a : Nat) : Nat := fld a 18 16
def columnOf (a : Nat) : Nat := fld a 6 2 + 4 * fld a 13 4

/-- The DRAM location that a command names: rank, bank group, bank, row, column. -/
def Tx.location : Tx → Option (List Nat)
  | .memCmd _ _ a => some [rankOf a, groupOf a, bankOf a, rowOf a, columnOf a]
  | _ => none

/-- The mark bit and field of a rank in MEMC_CHc_STATUS. -/
def Dev.erased (d : Dev) (c r : Nat) : Option Nat :=
  if d.bit (Reg.MEMC_CH_STATUS c) (5 + r) then some (d.rdF (Reg.MEMC_CH_STATUS c) (7 + 3 * r) 3) else none

/-- R400: a device of a rank is marked failed; a second one fails the channel. -/
def Dev.markDevice (d : Dev) (c r dev : Nat) : Dev :=
  match d.erased c r with
  | some e => if e = dev then d else d.chanFail c 4
  | none =>
    ((d.wrBit (Reg.MEMC_CH_STATUS c) (5 + r) true).wrF (Reg.MEMC_CH_STATUS c) (7 + 3 * r) 3 dev).event 1
      .dramDeviceErased (vals [c, r, dev])

/-- R400: count a corrected codeword for each device in error. -/
def Dev.countCe (d : Dev) (c r : Nat) (devs : List Nat) : Dev :=
  devs.foldl
    (fun acc dev =>
      let x := acc.chan c
      let ts := lastSecond acc.tc (mapGet [] x.ce (r * 8 + dev))
      let d1 := acc.setChan c { x with ce := mapSet [] x.ce (r * 8 + dev) ts }
      if d1.cf Reg.MEMC_ERASE_THR ≤ ts.length then d1.markDevice c r dev else d1)
    (d.bump (Reg.MEMC_CH_CE_COUNT c))

/-- R401, R404: an uncorrectable read of a port. -/
def Dev.countUe (d : Dev) (c a port : Nat) : Dev :=
  let x := d.chan c
  let ts := lastSecond d.tc x.ue
  let d1 := ((d.setChan c { x with ue := ts }).bump (Reg.MEMC_CH_UE_COUNT c)).wr64 (Reg.MEMC_CH_LAST_UE_LO c) a
  let d2 := d1.event 1 .dramUe (vals [c, a, port])
  if d2.cf Reg.MEMC_UE_LIMIT < ts.length then d2.chanFail c 3 else d2

/-! ## Requests and grants (R401, R405, R406, R409) -/

/-- The rank leaves power-down for a request (R405). -/
def Dev.wakeRank (d : Dev) (c a : Nat) : Dev :=
  if d.bit (Reg.MEMC_CH_STATUS c) (3 + rankOf a) then
    (d.wrBit (Reg.MEMC_CH_STATUS c) (3 + rankOf a) false).bump (Reg.MEMC_CH_PD_EXIT_COUNT c)
  else d

/-- What a request does to a self-refresh that is being entered or held (R406). -/
def Dev.wakeSr (d : Dev) (c : Nat) : Dev :=
  if d.bit (Reg.MEMC_CH_STATUS c) 2 then
    (d.wrBit (Reg.MEMC_CH_STATUS c) 2 false).bump (Reg.MEMC_CH_SRX_EARLY_COUNT c)
  else if (d.chan c).srAsked then d.bump (Reg.MEMC_CH_SRE_ABANDON_COUNT c)
  else d

/-- Serve a granted request: a whole write lands, anything else starts a burst read; a failed channel returns it
poisoned (R401, R404). -/
def Dev.serve (d : Dev) (c : Nat) (r : MemReq) : Dev :=
  if d.chanOk c = false then
    match d.copyOne c r.addr, r.write with
    | some x, none => d.setChan x.1 { d.chan x.1 with reads := (d.chan x.1).reads ++ [{ r with addr := x.2 }] }
    | some x, some w => if w.2.length = 64 then d.setWord x.1 x.2 (rsEncode w.2) else d
    | none, none => d.reply c r true []
    | none, some _ => d
  else
    match r.write with
    | some (_, bs) =>
      if bs.length = 64 then (d.putWord c r.addr (rsEncode bs)).keepCmd c 1 r.addr
      else (d.setChan c { d.chan c with reads := (d.chan c).reads ++ [r] }).keepCmd c 0 r.addr
    | none => (d.setChan c { d.chan c with reads := (d.chan c).reads ++ [r] }).keepCmd c 0 r.addr

/-- One grant opportunity of a channel. -/
def Dev.opGrant (d : Dev) (c : Nat) : Dev :=
  let r := d.nextPort c
  match r.2 with
  | none => r.1
  | some p =>
    let x := r.1.chan c
    match x.queue p with
    | [] => r.1
    | q :: qs => (r.1.setChan c { x with pend := mapSet [] x.pend p qs }).serve c q

/-- A request of a port, with or without a grant opportunity in the same cycle. -/
def Dev.opMemRequest (d : Dev) (c p a : Nat) (w : Option (Nat × List Byte)) (opp : Bool) : Dev :=
  let x := d.chan c
  if d.portAlive p = false ∨ 8 ≤ (x.queue p).length then d
  else
    let d1 := (d.wakeSr c).wakeRank c a
    let x1 := d1.chan c
    let d2 := d1.setChan c { x1 with pend := mapSet [] x1.pend p (x1.queue p ++ [⟨p, a, w, none⟩]) }
    if opp then d2.opGrant c else d2

/-! ## Burst reads (R399-R401) -/

/-- A word as a disturbed burst delivers it. -/
def disturb (w : List Nat) (err : List (Fin 40 × BitVec 16)) : List Nat :=
  (List.range 40).map (fun s =>
    (err.filter (fun e => e.1.val == s)).foldl (fun acc e => Nat.xor acc e.2.toNat) (w.getD s 0))

/-- End a read with a good word: the answer, the merged write, or the rewrite of copy 0. -/
def Dev.readGood (d : Dev) (c : Nat) (r : MemReq) (w : List Nat) : Dev :=
  let d1 := match r.rewrite with | some x => d.setWord x.1 x.2 w | none => d
  match r.write with
  | none => d1.reply c r false (rsData w)
  | some (o, bs) =>
    let at_ := match r.rewrite with | some x => x | none => (c, r.addr)
    d1.putWord at_.1 at_.2 (rsEncode (mergeBytes (rsData w) o bs))

/-- End a read with an uncorrectable word: copy 1 of a system block is read instead, or the answer is poisoned and a
partial write leaves a poisoned line (R397, R401). -/
def Dev.readBad (d : Dev) (c : Nat) (r : MemReq) (w : List Nat) : Dev :=
  match (if r.rewrite.isNone then d.copyOne c r.addr else none) with
  | some x =>
    let y := d.chan x.1
    d.setChan x.1 { y with reads := y.reads ++ [{ r with addr := x.2, rewrite := some (c, r.addr) }] }
  | none =>
    match r.write with
    | none => d.reply c r true (rsData w)
    | some (o, bs) =>
      let at_ := match r.rewrite with | some x => x | none => (c, r.addr)
      d.putWord at_.1 at_.2 (rsPoison (rsEncode (mergeBytes (rsData w) o bs)))

/-- Decode the word at an address and write a correction back: the word, and whether it is good. -/
def Dev.readWord (d : Dev) (c a port : Nat) (err : List (Fin 40 × BitVec 16)) : Dev × List Nat × Bool :=
  let raw := disturb (d.word c a) err
  match d.erased c (rankOf a) with
  | some dev =>
    let w := rsErase dev raw
    (if w = raw then d else (d.setWord c a w).bump (Reg.MEMC_CH_CE_COUNT c), w, true)
  | none =>
    match rsDecode raw with
    | none => (d.countUe c a port, raw, false)
    | some (w, []) => (d, w, true)
    | some (w, es) => ((d.setWord c a w).countCe c (rankOf a) ((es.map (fun s => s / 8)).dedup), w, true)

/-- DRAM_READ: the oldest granted read of a channel. -/
def Dev.opDramRead (d : Dev) (c : Nat) (err : List (Fin 40 × BitVec 16)) : Dev :=
  let x := d.chan c
  match x.reads with
  | [] => d
  | r :: rs =>
    let res := (d.setChan c { x with reads := rs }).readWord c r.addr r.port err
    if res.2.2 then res.1.readGood c r res.2.1 else res.1.readBad c r res.2.1

/-- The channel has nothing to do. -/
def Dev.chanIdle (d : Dev) (c : Nat) : Bool :=
  (d.chan c).pend.isEmpty && (d.chan c).reads.isEmpty && (d.chan c).holder.isNone

/-- PATROL_SCRUB: the next codeword of an idle channel (R399); the scrub is no arbiter port. -/
def Dev.opScrub (d : Dev) (c : Nat) (err : List (Fin 40 × BitVec 16)) : Dev :=
  if d.chanOk c && d.chanIdle c && !d.bit (Reg.MEMC_CH_STATUS c) 2 then
    let x := d.chan c
    ((d.setChan c { x with scrub := (x.scrub + 1) % 0x10000000 }).readWord c (64 * x.scrub) 0xFF err).1
  else d

/-! ## Alerts, calibration, power-down (R402-R406) -/

/-- R402: an alert; a third replay in a row that meets one fails the channel. -/
def Dev.opAlert (d : Dev) (c : Nat) (inReplay : Bool) : Dev :=
  if d.chanOk c then
    let x := d.chan c
    let n := if inReplay then x.alertRun + 1 else 0
    let d1 := (d.setChan c { x with alertRun := n }).bump (Reg.MEMC_CH_CAPAR_COUNT c)
    if 3 ≤ n then d1.chanFail c 2
    else x.retry.reverse.foldl (fun acc e => acc.send (.memCmd c e.1 e.2)) d1
  else d

/-- R403: a calibration or drift correction passes, or fails the channel. -/
def Dev.opCalib (d : Dev) (c : Nat) (drift : Int) (ok : Bool) : Dev :=
  if d.chanOk c = false then d
  else if ok then
    let x := d.chan c
    let d1 := d.setChan c { x with taps := x.taps + drift }
    if 2 ≤ drift.natAbs then { d1 with hlth := { d1.hlth with drifted := putFld d1.hlth.drifted c 1 1 } } else d1
  else d.chanFail c 1

/-- R405: an idle rank enters power-down. -/
def Dev.opRankDown (d : Dev) (c r : Nat) : Dev :=
  let x := d.chan c
  let queued := (x.reads ++ (x.pend.map Prod.snd).flatten).any (fun q => rankOf q.addr == r)
  if d.cf Reg.MEMC_PD_IDLE = 0 ∨ queued ∨ d.chanOk c = false then d
  else d.wrBit (Reg.MEMC_CH_STATUS c) (3 + r) true

/-- R406: self-refresh entry on an idle channel that has been asked for it. -/
def Dev.opSrEntry (d : Dev) (c : Nat) : Dev :=
  if (d.chan c).srAsked && d.chanIdle c && d.chanOk c && !d.bit (Reg.MEMC_CH_STATUS c) 2 then
    (d.wrBit (Reg.MEMC_CH_STATUS c) 2 true).keepCmd c 2 0
  else d

/-- R397: the rebuilt copies are in place: every system word lies where the new healthy list puts it. -/
def Dev.opRebuilt (d : Dev) : Dev :=
  if d.bit Reg.MEMC_STATUS 4 then
    let list := bitsOf 4 (d.rd Reg.PLACE_CH_OK)
    let g := d.grain
    let loc : Nat → Option (Nat × Nat) := fun key =>
      sysOffset d.mem.sysList g (key / 0x10000000) (key % 0x10000000 * 64)
    let live : Nat → Bool := fun key => d.chanOk (key / 0x10000000)
    let pick : Nat → List (Nat × List Nat) := fun copy => d.mem.words.filterMap (fun e =>
      match loc e.1 with | some (o, k) => if k = copy ∧ live e.1 then some (o, e.2) else none | none => none)
    let rest : NMap (List Nat) := d.mem.words.filter (fun e => (loc e.1).isNone)
    let d1 : Dev := { d with mem := { d.mem with words := rest, sysList := list } }
    let put : Dev → Nat × List Nat → Dev := fun acc e =>
      let x0 := sysPlace list g e.1 0
      let x1 := sysPlace list g e.1 1
      (acc.setWord x0.1 x0.2 e.2).setWord x1.1 x1.2 e.2
    ((pick 1 ++ pick 0).foldl put d1).wrBit Reg.MEMC_STATUS 4 false
  else d

/-- R412, R413: a write of 1 to ARB_CTRL.SWAP. -/
def Dev.opSwap (d : Dev) (v : Nat) : Dev := if d.inService then d.writeIgnored Reg.ARB_CTRL v else d.swapTables

/-! ## Meanings -/

/-- The bytes of a write that lie in its codeword. -/
def inWord (w : Option (Nat × List Byte)) : Option (Nat × List Byte) := w.map (fun x => (x.1, x.2.take (64 - x.1)))

/-- MEMORY_REQUEST (R401, R404-R406, R408, R409): the codeword of an address, within the 16 GiB of the channel. -/
def execMemoryRequest (chan : Fin 4) (port : Fin 32) (addr : Nat) (write : Option (Nat × List Byte)) (opp : Bool)
    (s : State) : Host.Outcome State Fault Refusal :=
  s.withDev (s.dev.opMemRequest chan port (addr % 0x400000000 / 64 * 64) (inWord write) opp)

/-- ARBITER_GRANT (R408, R410-R412). -/
def execArbiterGrant (chan : Fin 4) (s : State) : Host.Outcome State Fault Refusal := s.withDev (s.dev.opGrant chan)

/-- DRAM_READ (R397-R401). -/
def execDramRead (chan : Fin 4) (err : List (Fin 40 × BitVec 16)) (s : State) : Host.Outcome State Fault Refusal :=
  s.withDev (s.dev.opDramRead chan err)

/-- DRAM_CHANNEL_FAILED (R151, R404). -/
def execDramChannelFailed (chan : Fin 4) (cause : Fin 4) (s : State) : Host.Outcome State Fault Refusal :=
  s.withDev (s.dev.chanFail chan (cause + 1))

/-- PATROL_SCRUB (R399). -/
def execPatrolScrub (chan : Fin 4) (err : List (Fin 40 × BitVec 16)) (s : State) : Host.Outcome State Fault Refusal :=
  s.withDev (s.dev.opScrub chan err)

/-- CAPAR_ALERT (R402). -/
def execCaparAlert (chan : Fin 4) (inReplay : Bool) (s : State) : Host.Outcome State Fault Refusal :=
  s.withDev (s.dev.opAlert chan inReplay)

/-- ZQ_CALIBRATION (R403). -/
def execZqCalibration (chan : Fin 4) (ok : Bool) (s : State) : Host.Outcome State Fault Refusal :=
  s.withDev (s.dev.opCalib chan 0 ok)

/-- DQS_CORRECTION (R403). -/
def execDqsCorrection (chan : Fin 4) (drift : Int) (ok : Bool) (s : State) : Host.Outcome State Fault Refusal :=
  s.withDev (s.dev.opCalib chan drift ok)

/-- RANK_POWER_DOWN (R405). -/
def execRankPowerDown (chan : Fin 4) (rank : Fin 2) (s : State) : Host.Outcome State Fault Refusal :=
  s.withDev (s.dev.opRankDown chan rank)

/-- SELF_REFRESH_ENTRY (R406). -/
def execSelfRefreshEntry (chan : Fin 4) (s : State) : Host.Outcome State Fault Refusal :=
  s.withDev (s.dev.opSrEntry chan)

/-- SWAP (R412, R413). -/
def execSwap (s : State) : Host.Outcome State Fault Refusal := s.onWrite (fun d => d.opSwap 1)

/-- ARB_PORT_MASKED (R411). -/
def execArbPortMasked (port : Fin 32) (s : State) : Host.Outcome State Fault Refusal := s.withDev (s.dev.portDown port)

/-- REBUILD_DONE (R397). -/
def execRebuildDone (s : State) : Host.Outcome State Fault Refusal := s.withDev s.dev.opRebuilt

end Sys2Proof.Machine
end

