-- ==== Sys2Proof/Machine/Banks.lean ====
section
/-!
DEFINITION. The banks of a bar: Last tables (R189-R191), screen sets (R193), nozzle state maps (R198), and the commands
that write and read them (R122, R512).
-/

namespace Sys2Proof.Machine

/-! ## Formats -/

/-- Entry v of the identity curve (R191). -/
def identEntry (v : Nat) : Nat := (v * 4095 + 127) / 255

/-- The 384 bytes of one identity curve. -/
def identCurve : List Byte :=
  (List.range 128).flatMap (fun k => leBytes 3 (identEntry (2 * k) + identEntry (2 * k + 1) * 4096))

/-- Last table bank after reset: identity curves and zero trims. -/
def identBank : List Byte := (List.replicate 1536 identCurve).flatten ++ List.replicate 98304 0

/-- Entry v of segment s of a Last table bank (R189). -/
def curveAt (bank : Array Byte) (s v : Nat) : Nat :=
  if bank.isEmpty then identEntry v
  else
    let w := numIn bank (384 * s + 3 * (v / 2)) 3
    if v % 2 = 0 then w % 4096 else w / 4096

/-- Trim of nozzle n of head h (R189). -/
def trimAt (bank : Array Byte) (h n : Nat) : Int := if bank.isEmpty then 0 else sgn 8 (byteIn bank (589824 + 4096 * h + n))

/-- R190: the corrected tone. -/
def toneOf (bank : Array Byte) (h n v : Nat) : Nat :=
  let y : Int := (curveAt bank (h * 64 + n / 64) v : Int)
  (min 4095 ((y * (1024 + trimAt bank h n) + 512) / 1024)).toNat

/-- Screen set after reset (R193). -/
def resetScreen : List Byte :=
  leBytes 4 0 ++ leBytes 4 0x01050307 ++ leBytes 4 0 ++ leBytes 2 0 ++ leBytes 2 1365 ++ leBytes 2 2730 ++
    List.replicate 46 0 ++ (List.replicate 196608 (leBytes 2 4095)).flatten

/-- A field of a screen set: offset, bytes, the value of the reset set. -/
def scrFld (set : List Byte) (o n dflt : Nat) : Nat := if set = [] then dflt else numAt set o n

/-- Threshold of a screen set: table base, cell (R193). -/
def threshold (set : Array Byte) (base x y : Nat) : Nat :=
  if set.isEmpty then 4095 else numIn set (base + 2 * (256 * y + x)) 2

/-- The 16-bit thresholds of a table. -/
def thresholds : List Byte → List Nat
  | a :: b :: r => leNat [a, b] :: thresholds r
  | _ => []

/-- The content checks of a screen set (R193). -/
def screenOk (s : List Byte) : Bool :=
  let ts := thresholds ((s.drop 64).take 131072)
  let tm := thresholds ((s.drop 131136).take 131072)
  let tl := thresholds ((s.drop 262208).take 131072)
  byteAt s 13 == 0 && ((s.drop 18).take 46).all (fun b => b == 0) &&
    byteAt s 4 + byteAt s 5 + byteAt s 6 + byteAt s 7 == 16 && decide (numAt s 14 2 < numAt s 16 2) &&
    decide (numAt s 16 2 < 4095) && decide (numAt s 0 2 ≤ 255) && decide (numAt s 2 2 ≤ 255) &&
    (List.zipWith (fun a b => decide (a ≤ b)) ts tm).all id && (List.zipWith (fun a b => decide (a ≤ b)) tm tl).all id &&
    (ts ++ tm ++ tl).all (fun t => decide (t < 4096))

/-- State of nozzle n in a nozzle map (R198). -/
def mapState (m : List Byte) (n : Nat) : Nat := if m = [] then 0 else fld (byteAt m (n / 4)) (2 * (n % 4)) 2

/-- Exact length of a bank by kind (R189, R193, R198). -/
def bankLen (kind : Nat) : Nat := if kind = 1 then 688128 else if kind = 2 then 393280 else 1024

/-- The bytes of a bank as stored. -/
def Dev.bank (d : Dev) (b kind head k : Nat) : List Byte :=
  let x := d.bb b
  if kind = 1 then mapGet [] x.last k else if kind = 2 then mapGet [] x.screens k else mapGet [] x.maps (2 * head + k)

/-- The bytes of a bank as a host reads them. -/
def Dev.bankBytes (d : Dev) (b kind head k : Nat) : List Byte :=
  let s := d.bank b kind head k
  if s ≠ [] then s
  else if kind = 1 then identBank else if kind = 2 then resetScreen else List.replicate 1024 0

/-- A bank in a store of banks. -/
def BarBanks.put (x : BarBanks) (kind head k : Nat) (bs : List Byte) : BarBanks :=
  if kind = 1 then { x with last := mapSet [] x.last k bs }
  else if kind = 2 then { x with screens := mapSet [] x.screens k bs }
  else { x with maps := mapSet [] x.maps (2 * head + k) bs }

/-- Write a bank, and its copy in the system region (R204). -/
def Dev.setBank (d : Dev) (b kind head k : Nat) (bs : List Byte) : Dev :=
  let d1 := d.setBb b ((d.bb b).put kind head k bs)
  { d1 with rast := { d1.rast with copies := mapMod {} d1.rast.copies b (fun c => c.put kind head k bs) } }

/-- A spare engine loads the banks and sets of a bar from their copies (R204, R205). -/
def Dev.loadCopies (d : Dev) (b : Nat) : Dev :=
  let c : BarBanks := mapGet {} d.rast.copies b
  d.setBb b { d.bb b with last := c.last, screens := c.screens, maps := c.maps }

/-- Kind, head and bank that a commit point activates; kind 0 for none (R30). -/
def commitBank (c : CommitRec) : Nat × Nat × Nat :=
  if c.kind = 1 then (1, 0, c.arg % 2)
  else if c.kind = 3 then (2, 0, c.arg % 2)
  else if c.kind = 4 then (3, c.arg % 256, c.arg / 256 % 2)
  else (0, 0, 0)

/-- The CRC-32C of the bank a record activates on a bar, 0 for other kinds (R421). -/
def Dev.commitCrc (d : Dev) (c : CommitRec) (b : Nat) : Nat :=
  let x := commitBank c
  if x.1 = 0 then 0 else crc32c (d.bankBytes b x.1 x.2.1 x.2.2)

/-! ## TABLE_LOAD and TABLE_READ -/

/-- An enabled bar, and a head for KIND 3 (R512 step 3). -/
def Dev.bankArgsOk (d : Dev) (b kind head : Nat) : Bool :=
  decide (b < 8) && d.barEn b && (kind != 3 || decide (head < 24))

/-- Another TABLE_LOAD of the bank has started and not completed (R122): one that waits for the partner's CMD frame. -/
def Dev.loadHolds (d : Dev) (b kind head k : Nat) : Bool :=
  d.pair.waits.any (fun w => let e := w.out.entry
    entOpcode e == 0x0210 && byteAt e 8 == kind && byteAt e 9 == b && byteAt e 10 == head && byteAt e 11 == k)

/-- R122: the bank is locked against TABLE_LOAD; what names no bank is not locked (R512 step 3 refuses it). -/
def Dev.tableLocked (d : Dev) (b kind head k : Nat) : Bool :=
  decide (b < 8 ∧ head < 24) && (d.activeBank b kind head == k || d.bankPending b kind head k || (kind == 1 && bitOf d.rast.owned b) ||
    d.loadHolds b kind head k)

/-- The body of TABLE_LOAD (R512). -/
def Dev.loadBody (dma : Dma) (d : Dev) (o : Out) : Dev :=
  let e := o.entry
  let kind := byteAt e 8
  let b := byteAt e 9
  let head := byteAt e 10
  let k := byteAt e 11
  if d.tableLocked b kind head k then d.complete o TABLE_LOCKED 0 []
  else if d.bankArgsOk b kind head = false then d.complete o OUT_OF_RANGE 0 []
  else
    d.dmaIn o dma (fun n => if n = bankLen kind then none else some OUT_OF_RANGE)
      (fun x bs =>
        if crc32c bs ≠ numAt e 12 4 then x.complete o TABLE_CRC 0 []
        else if kind = 2 ∧ screenOk bs = false then x.complete o OUT_OF_RANGE 0 []
        else (x.setBank b kind head k bs).complete o OK 0 [])

/-- The body of TABLE_READ (R120); a bar that is not enabled names no bank, as for TABLE_LOAD (log entry 102). -/
def Dev.readBody (dma : Dma) (d : Dev) (o : Out) : Dev :=
  let e := o.entry
  let kind := byteAt e 8
  let b := byteAt e 9
  let head := byteAt e 10
  if d.bankArgsOk b kind head = false then d.complete o OUT_OF_RANGE 0 []
  else
    let bs := d.bankBytes b kind head (byteAt e 11)
    d.dmaOut o dma (fun _ => bs) (fun x _ => x.complete o OK (crc32c bs) [])

/-- TABLE_READ (R120). -/
def execTableRead (q : Fin 16) (dma : Dma) (s : State) : Host.Outcome State Fault Refusal :=
  s.withDev (s.dev.runCmd q 0x0211 (Dev.readBody dma))

end Sys2Proof.Machine
end

