-- ==== Sys2Proof/Machine/Position.lean ====
section
/-!
DEFINITION. Web position (R206-R237): channel counts, encoder and serial channels, the choice of the source in use, the
tracking observer, indexes and re-zero, compare outputs, encoder emulation, and the ADC (R241-R243).
-/

namespace Sys2Proof.Machine

/-! ## Channels (R206, R207, R217) -/

/-- Address of the count of a channel code 0-5. -/
def countReg (ch : Nat) : Nat := if ch < 4 then Reg.POS_ENC_COUNT_LO ch else Reg.POS_SSI_COUNT_LO (ch - 4)

/-- The status register of a channel. -/
def chanStatus (ch : Nat) : Nat := if ch < 4 then Reg.POS_ENC_STATUS ch else Reg.POS_SSI_STATUS (ch - 4)

/-- Count of a channel. -/
def Dev.count (d : Dev) (ch : Nat) : Int := d.rdS64 (countReg ch)

/-- The channel is enabled in the configuration in force. -/
def Dev.chanEn (d : Dev) (ch : Nat) : Bool :=
  decide (ch < 6) && d.cfB (if ch < 4 then Reg.POS_ENC_CFG ch else Reg.POS_SSI_CFG (ch - 4)) 0

/-- Micrometres per count. -/
def Dev.scale (d : Dev) (ch : Nat) : Rat :=
  (d.cf (if ch < 4 then Reg.POS_ENC_SCALE ch else Reg.POS_SSI_SCALE (ch - 4)) : Rat) / 16777216

/-- The channel may be used as reference or check source: enabled, not faulted, not kept out since a fault (R210). -/
def Dev.usable (d : Dev) (ch : Nat) : Bool :=
  d.chanEn ch && !d.bit (chanStatus ch) 0 && !bitOf d.pos.barred ch

/-- c x SCALE of a channel in um. -/
def Dev.scaled (d : Dev) (ch : Nat) : Rat := (d.count ch : Rat) * d.scale ch

/-- The source in use; 7 none. -/
def Dev.src (d : Dev) : Nat := d.rdF Reg.POS_STATUS 0 3

/-- Configured reference and check sources. -/
def Dev.refSrc (d : Dev) : Nat := d.cfF Reg.POS_REF 0 3
def Dev.checkSrc (d : Dev) : Nat := d.cfF Reg.POS_REF 4 3
def Dev.failover (d : Dev) : Bool := d.cfB Reg.POS_REF 8

/-- Position lost. -/
def Dev.lost (d : Dev) : Bool := d.bit Reg.POS_STATUS 5

/-- Measured position of the source in use (R217). -/
def Dev.measured (d : Dev) : Rat := d.scaled d.src + d.pos.off

/-- Set LOST and, with it, FIRE_STATUS.NO_TICKS (R257). -/
def Dev.setLost (d : Dev) (b : Bool) : Dev := (d.wrBit Reg.POS_STATUS 5 b).wrBit Reg.FIRE_STATUS 3 b

/-- Show the observer's estimates in their formats (R224). -/
def Dev.showObs (d : Dev) : Dev :=
  ((d.wrS64 Reg.POS_X_LO (pubI (d.pos.x * 65536))).wrS Reg.POS_V (satS 32 (pubI (d.pos.v * 256)))).wrS Reg.POS_A
    (satS 32 (pubI (d.pos.a * 16)))

/-- x extrapolated to a counter value, in um (R248). -/
def Dev.xAt (d : Dev) (t : Nat) : Rat :=
  let tau : Rat := (((t : Int) - (d.pos.sample : Int) : Int) : Rat) / 400000000
  d.pos.x + d.pos.v * tau + d.pos.a * tau * tau / 2

/-- Speed from the change of the count over the preceding 1 ms (R223). -/
def Dev.recentSpeed (d : Dev) (ch : Nat) : Rat :=
  let old := ((d.pos.hist.getLast?).map (fun cs => cs.getD ch 0)).getD (d.count ch)
  (((d.count ch - old : Int) : Rat) * d.scale ch) * 1000

/-- The observer initialises: x = m, v from the last millisecond, a = 0 (R223). -/
def Dev.obsInit (d : Dev) : Dev :=
  ({ d with pos := { d.pos with x := d.measured, v := d.recentSpeed d.src, a := 0, errRun := 0, sample := d.tc } }).showObs

/-- The source that the selection of R218 picks. -/
def Dev.pickSrc (d : Dev) : Nat :=
  if d.usable d.refSrc then d.refSrc
  else if d.failover && d.usable d.checkSrc then d.checkSrc
  else 7

/-- R218: select the source in use, at CFG_COMMIT (`commit`) or at START. -/
def Dev.selectSource (d : Dev) (commit : Bool) : Dev :=
  let s := d.pickSrc
  if s = 7 then (((d.wrF Reg.POS_STATUS 0 3 7).wrBit Reg.POS_STATUS 3 false).wrBit Reg.POS_STATUS 4 false).setLost true
  else
    let fresh := commit || d.lost || d.src == 7
    let off : Rat :=
      if commit then 0
      else if d.lost || d.src == 7 then d.pos.x - d.scaled s
      else if d.src = s then d.pos.off
      else d.measured - d.scaled s
    let d1 : Dev := { d with pos := { d.pos with off := off } }
    let d2 := (((d1.wrF Reg.POS_STATUS 0 3 s).wrBit Reg.POS_STATUS 3 (s != d.refSrc)).wrBit Reg.POS_STATUS 4 false).setLost
      false
    if fresh then d2.obsInit else d2

/-- What START does to the position block: faulted channels whose FAULT reads 0 may be used again (R210), anchors are
dropped (R227), the source is selected and D0 is taken (R218, R219). -/
def Dev.posStart (d : Dev) : Dev :=
  let barred := ((List.range 6).filter (fun ch => bitOf d.pos.barred ch && d.bit (chanStatus ch) 0)).foldl
    (fun m ch => m + 2 ^ ch) 0
  let d1 : Dev := { d with pos := { d.pos with barred := barred, beyond := false } }
  let d2 := (List.range 4).foldl (fun acc k => acc.wrBit (Reg.POS_ENC_STATUS k) 4 false) d1
  let d3 := d2.selectSource false
  let ssi := d3.pos.ssi.map (fun x => (x.1, { x.2 with served := d3.mulFrom x.2.served, trig := false }))
  { d3 with pos := { d3.pos with d0 := d3.scaled d3.checkSrc - d3.scaled d3.refSrc, ssi := ssi } }

/-- A channel faults: it is kept out of use until a START (R210), and the source in use is replaced or the observer
coasts (R220). -/
def Dev.sourceFault (d : Dev) (ch : Nat) : Dev :=
  let barred := if bitOf d.pos.barred ch then d.pos.barred else d.pos.barred + 2 ^ ch
  let d1 : Dev := { d with pos := { d.pos with barred := barred } }
  if d1.src = ch ∧ d1.inService ∧ d1.lost = false ∧ d1.bit Reg.POS_STATUS 4 = false then
    if d1.failover && d1.usable d1.checkSrc then
      let d2 : Dev := { d1 with pos := { d1.pos with off := d1.measured - d1.scaled d1.checkSrc } }
      ((d2.wrF Reg.POS_STATUS 0 3 d2.checkSrc).wrBit Reg.POS_STATUS 3 true).event 1 .refFailover (vals [ch, d2.checkSrc])
    else
      let d2 : Dev := { d1 with pos := { d1.pos with a := 0, coastAt := d1.tc } }
      ((d2.wrBit Reg.POS_STATUS 4 true).wr Reg.POS_A 0).event 1 .positionCoast (vals [ch])
  else d1

/-! ## Compare outputs (R231-R237) -/

def Dev.cmpSt (d : Dev) (k : Nat) : CmpSt := mapGet {} d.pos.cmp k
def Dev.setCmp (d : Dev) (k : Nat) (c : CmpSt) : Dev := { d with pos := { d.pos with cmp := mapSet {} d.pos.cmp k c } }

/-- Control fields of an entry. -/
def Dev.entDir (d : Dev) (k j : Nat) : Nat := d.rdF (Reg.POS_CMP_E_CTRL k j) 0 2
def Dev.entState (d : Dev) (k j : Nat) : Nat := d.rdF (Reg.POS_CMP_E_CTRL k j) 8 3
def Dev.entTimed (d : Dev) (k j : Nat) : Bool := d.bit (Reg.POS_CMP_E_CTRL k j) 4
def Dev.entTarget (d : Dev) (k j : Nat) : Int := d.rdS64 (Reg.POS_CMP_E_T_LO k j)
def Dev.setEntState (d : Dev) (k j v : Nat) : Dev := d.wrF (Reg.POS_CMP_E_CTRL k j) 8 3 v

/-- Source of an output. -/
def Dev.cmpSrc (d : Dev) (k : Nat) : Nat := d.cfF (Reg.POS_CMP_CFG k) 1 3

/-- Set the computed level; the pin follows it while driven. -/
def Dev.setLevel (d : Dev) (k : Nat) (lvl : Bool) : Dev :=
  let d1 := d.wrBit (Reg.POS_CMP_STATUS k) 0 lvl
  if d.fieldDriven && d.bit (Reg.POS_CMP_STATUS k) 0 != lvl then d1.send (.pin "CMP" k (b2n lvl)) else d1

/-- Schedule or cancel the return to 0. -/
def Dev.setReturn (d : Dev) (k : Nat) (r : Option Nat) : Dev :=
  (d.setCmp k { d.cmpSt k with ret := r }).wrBit (Reg.POS_CMP_STATUS k) 2 r.isSome

/-- R234: one firing acts on the computed level. -/
def Dev.cmpAct (d : Dev) (k j : Nat) : Dev :=
  let a := d.rdF (Reg.POS_CMP_E_CTRL k j) 2 2
  let lvl := d.bit (Reg.POS_CMP_STATUS k) 0
  let d1 :=
    if a = 0 then (d.setLevel k true).setReturn k (some (d.tc + 4 * d.rdF (Reg.POS_CMP_PULSE k) 0 24))
    else (d.setLevel k (if a = 1 then true else if a = 2 then false else !lvl)).setReturn k none
  let d2 := d1.bump (Reg.POS_CMP_FIRE_COUNT k)
  if d2.fieldDriven then d2 else d2.wrBit (Reg.POS_CMP_E_CTRL k j) 11 true

/-- The value an entry's target is checked against: the source count, or the time counter. -/
def Dev.entNow (d : Dev) (k j : Nat) : Int := if d.entTimed k j then (d.tc : Int) else d.count (d.cmpSrc k)

/-- R233: the entry is behind. -/
def Dev.behind (d : Dev) (k j : Nat) : Bool :=
  let t := d.entTarget k j
  let c := d.entNow k j
  if d.entTimed k j then decide ((d.rd64 (Reg.POS_CMP_E_T_LO k j) : Int) ≤ c)
  else if d.entDir k j = 1 then decide (t ≤ c)
  else if d.entDir k j = 2 then decide (c ≤ t)
  else decide (t = c)

/-- R233: check an armed entry; a behind one goes LATE, or fires once and goes LATE_FIRED. -/
def Dev.entCheck (d : Dev) (k j : Nat) : Dev :=
  if d.behind k j then
    let d1 := d.event 1 .cmpLate (ivals [(k : Int), (j : Int), d.entTarget k j, d.entNow k j])
    if d1.bit (Reg.POS_CMP_E_CTRL k j) 5 then (d1.cmpAct k j).setEntState k j 4 else d1.setEntState k j 3
  else d

/-- R234: an entry fires, and is FIRED or advances. -/
def Dev.entFire (d : Dev) (k j : Nat) : Dev :=
  let d1 := d.cmpAct k j
  let adv := d1.rdS (Reg.POS_CMP_E_ADVANCE k j)
  if adv = 0 then d1.setEntState k j 2
  else (d1.wrS64 (Reg.POS_CMP_E_T_LO k j) (d1.entTarget k j + adv)).entCheck k j

/-- R232: an armed entry that the change from p to c crosses. -/
def Dev.crosses (d : Dev) (k : Nat) (p c : Int) (j : Nat) : Bool :=
  let t := d.entTarget k j
  let up := decide (p < t ∧ t ≤ c)
  let down := decide (t < p ∧ c ≤ t)
  let hit := if d.entDir k j = 1 then up else if d.entDir k j = 2 then down else up || down
  d.entState k j == 1 && !d.entTimed k j && hit

/-- Entries crossed by a change of a channel's count wait for CMP_FIRE of their output. -/
def Dev.cmpCross (d : Dev) (ch : Nat) (p c : Int) : Dev :=
  (List.range 8).foldl
    (fun acc k =>
      if acc.cmpEn k && acc.cmpSrc k == ch then
        let st := acc.cmpSt k
        let hits := (List.range 64).filter (fun j => acc.crosses k p c j && !st.due.contains j)
        if hits.isEmpty then acc else acc.setCmp k { st with due := st.due ++ hits }
      else acc) d

/-- R237: after a step of a channel's count every armed entry on it is checked again. -/
def Dev.cmpStep (d : Dev) (ch : Nat) : Dev :=
  (List.range 8).foldl
    (fun acc k =>
      if acc.cmpEn k && acc.cmpSrc k == ch then
        (List.range 64).foldl
          (fun a j => if a.entState k j = 1 ∧ a.entTimed k j = false then a.entCheck k j else a)
          (acc.setCmp k { acc.cmpSt k with due := [] })
      else acc) d

/-- What START does to the compare outputs (R236). -/
def Dev.cmpStart (d : Dev) : Dev :=
  (List.range 8).foldl (fun acc k => (acc.setReturn k none).wrBit (Reg.POS_CMP_STATUS k) 0 false) d

/-! ## Encoder emulation (R238-R240) -/

def Dev.emuTarget (d : Dev) (e : Nat) : Int := d.rdS64 (Reg.POS_EMU_TARGET_LO e)

/-- R238: a change of the source count moves the target; a STANDBY keeps the emitted count equal to it (R240). -/
def Dev.emuDelta (d : Dev) (ch : Nat) (delta : Int) : Dev :=
  (List.range 2).foldl
    (fun acc e =>
      if acc.emuEn e && acc.cfF (Reg.POS_EMU_CFG e) 1 3 == ch then
        let s := acc.emuSt e
        let m : Int := (acc.cf (Reg.POS_EMU_M e) : Int)
        let r := s.r + delta * (acc.cf (Reg.POS_EMU_N e) : Int)
        let t := acc.emuTarget e + r / m
        let s' : EmuSt := { s with r := r % m, emitted := if acc.role = 2 then t else s.emitted }
        ((acc.wrS64 (Reg.POS_EMU_TARGET_LO e) t).setEmu e s').showOwed e
      else acc) d

/-- R239: one step toward the target. -/
def Dev.opEmuStep (d : Dev) (e : Nat) : Dev :=
  let s := d.emuSt e
  let owed := d.emuTarget e - s.emitted
  if d.emuEn e then
    if 1048576 < owed ∨ owed < -1048576 then
      let s' : EmuSt := { s with emitted := d.emuTarget e }
      let d1 := ((d.setEmu e s').showOwed e).event 1 .emuResync (ivals [(e : Int), owed])
      if d1.fieldDriven then d1.send (.pin "EMU" e (d1.emuPins e)) else d1
    else if d.fieldDriven = false ∨ owed = 0 then d
    else
      let s' : EmuSt := { s with emitted := s.emitted + (if 0 < owed then 1 else -1) }
      let d1 := (d.setEmu e s').showOwed e
      d1.send (.pin "EMU" e (d1.emuPins e))
  else d

/-- R240 at START: emitted is brought to a multiple of four. -/
def Dev.emuStart (d : Dev) : Dev :=
  (List.range 2).foldl
    (fun acc e =>
      let s' : EmuSt := { acc.emuSt e with emitted := 4 * (acc.emuTarget e / 4) }
      ((acc.setEmu e s').showOwed e).wrBit (Reg.POS_EMU_STATUS e) 0 (acc.emuEn e && acc.fieldDriven)) d

/-- R238 at CFG_COMMIT: the target and the accumulator of an enabled output are 0. -/
def Dev.emuCommit (d : Dev) : Dev :=
  (List.range 2).foldl
    (fun acc e => if acc.emuEn e then ((acc.setEmu e {}).wrS64 (Reg.POS_EMU_TARGET_LO e) 0).showOwed e else acc) d

/-- R240 on becoming ACTIVE: the emitted count is the target recorded at the last heartbeat. -/
def Dev.emuTakeover (d : Dev) : Dev :=
  (List.range 2).foldl
    (fun acc e =>
      let s := acc.emuSt e
      let s' : EmuSt := { s with emitted := s.recorded }
      let d1 := ((acc.setEmu e s').showOwed e).wrBit (Reg.POS_EMU_STATUS e) 0 (acc.emuEn e)
      if d1.emuEn e then d1.send (.pin "EMU" e (d1.emuPins e)) else d1) d

/-! ## Count changes -/

/-- A channel's count changes by decoding or by a frame: crossings, emulation. -/
def Dev.countTo (d : Dev) (ch : Nat) (c : Int) : Dev :=
  let p := d.count ch
  ((d.wrS64 (countReg ch) c).cmpCross ch p c).emuDelta ch (c - p)

/-- A re-zero step of a channel's count (R230, R237, R238): no crossing, no emulation change. -/
def Dev.stepTo (d : Dev) (ch : Nat) (c : Int) : Dev := (d.wrS64 (countReg ch) c).cmpStep ch

/-- The count of a serial channel is set at its first good frame (R214): a step and no crossing (R237), and a change of the count that
the emulation follows (R238). -/
def Dev.initTo (d : Dev) (ch : Nat) (c : Int) : Dev := (d.stepTo ch c).emuDelta ch (c - d.count ch)

/-! ## Encoder channels (R208-R210, R226-R230) -/

def Dev.encSt (d : Dev) (k : Nat) : EncSt := mapGet {} d.pos.enc k
def Dev.setEnc (d : Dev) (k : Nat) (x : EncSt) : Dev := { d with pos := { d.pos with enc := mapSet {} d.pos.enc k x } }

/-- The nearest expected count to C, with anchor r and interval i (R227). -/
def nearest (r : Int) (i : Nat) (c : Int) : Int := r + (2 * (c - r) + (i : Int)) / (2 * (i : Int)) * (i : Int)

/-- R229: follow the count through the index windows; where they touch, leaving one is entering the next. -/
def Dev.trackWindow (d : Dev) (k : Nat) (p c : Int) : Dev :=
  let s := d.encSt k
  let i := d.cf (Reg.POS_ENC_IDX_INTERVAL k)
  let tol : Int := (d.cf (Reg.POS_ENC_IDX_TOL k) : Int)
  if d.bit (Reg.POS_ENC_STATUS k) 4 && d.cfB (Reg.POS_ENC_CFG k) 9 && decide (0 < i) then
    match s.window with
    | none =>
      let e := nearest s.anchor i c
      if c - e ≤ tol ∧ e - c ≤ tol then d.setEnc k { s with window := some (e, decide (p < c), false) } else d
    | some (e, below, acc) =>
      if c - e ≤ tol ∧ e - c ≤ tol then d
      else
        let crossed := below == decide (e < c) && !acc
        let n := nearest s.anchor i c
        d.setEnc k { s with window := if c - n ≤ tol ∧ n - c ≤ tol then some (n, decide (p < c), false) else none,
                            missed := if crossed then s.missed ++ [e] else s.missed }
  else d

/-- R208: the quadrature state changes by one.  The state follows the A and B levels whether or not the channel is enabled, so a
channel that is enabled later finds the levels as they are (log entry 108). -/
def Dev.opQuadCount (d : Dev) (k : Nat) (up : Bool) : Dev :=
  let q := d.rdF (Reg.POS_ENC_STATUS k) 6 2
  let d1 := d.wrF (Reg.POS_ENC_STATUS k) 6 2 (if up then q + 1 else q + 3)
  let d2 := d1.setEnc k { d1.encSt k with taken := false }
  if d2.chanEn k then
    let p := d2.count k
    let c : Int := if up != d2.cfB (Reg.POS_ENC_CFG k) 4 then p + 1 else p - 1
    (d2.countTo k c).trackWindow k p c
  else d2

/-- An encoder channel faults for a cause: 0 quadrature error, 1 wire-disagree on A, 2 on B (R210). -/
def Dev.encFault (d : Dev) (k cause : Nat) : Dev :=
  ((d.wrBit (Reg.POS_ENC_STATUS k) 0 true).event 1 .encFault (vals [k, cause])).sourceFault k

/-- R208: a quadrature error. -/
def Dev.opQuadError (d : Dev) (k : Nat) : Dev :=
  let q := d.rdF (Reg.POS_ENC_STATUS k) 6 2
  let d1 := d.wrF (Reg.POS_ENC_STATUS k) 6 2 (q + 2)
  let d2 := d1.setEnc k { d1.encSt k with taken := false }
  if d2.chanEn k then (d2.bump (Reg.POS_ENC_QERR_COUNT k)).encFault k 0 else d2

/-- R56, R210: wire-disagree on pair A (0), B (1) or Z (2) of an encoder channel, or on the PPS_IN pair (3), for which the spec names
the detection and nothing that follows. -/
def Dev.opWire (d : Dev) (k pair : Nat) : Dev :=
  if pair = 3 then { d with time := { d.time with ppsWire := true } } else
  let d1 := d.wrBit (Reg.POS_ENC_STATUS k) (1 + pair) true
  if d.chanEn k = false then d1
  else if pair = 2 then d1.event 1 .idxWire (vals [k])
  else d1.encFault k (1 + pair)

/-- Clear an armed re-zero. -/
def Dev.rezeroOff (d : Dev) (k : Nat) : Dev :=
  (d.wrBit (Reg.POS_ENC_CTRL k) 0 false).wrBit (Reg.POS_ENC_STATUS k) 5 false

/-- R230: the re-zero at an index. -/
def Dev.rezero (d : Dev) (k : Nat) : Dev :=
  let old := d.count k
  let v := d.rdS (Reg.POS_ENC_REZERO_VALUE k)
  let d1 := ((d.stepTo k v).wrS (Reg.POS_ENC_IDX_DRIFT k) 0).wrBit (Reg.POS_ENC_STATUS k) 4 true
  let d2 := d1.setEnc k { d1.encSt k with anchor := v, window := some (v, true, true) }
  let d3 : Dev :=
    if d2.inHold && d2.src == k then
      let dx : Rat := ((v - old : Int) : Rat) * d2.scale k
      { d2 with pos := { d2.pos with x := d2.pos.x + dx } }
    else d2
  (d3.rezeroOff k).event 1 .rezeroDone (ivals [(k : Int), old])

/-- R226-R230: an index. -/
def Dev.opIndex (d : Dev) (k : Nat) : Dev :=
  let s := d.encSt k
  let c := d.count k
  let i := d.cf (Reg.POS_ENC_IDX_INTERVAL k)
  let tol : Int := (d.cf (Reg.POS_ENC_IDX_TOL k) : Int)
  let q := d.rdF (Reg.POS_ENC_STATUS k) 6 2
  if d.chanEn k && d.cfB (Reg.POS_ENC_CFG k) 9 && !d.bit (Reg.POS_ENC_STATUS k) 3 &&
      q == d.cfF (Reg.POS_ENC_CFG k) 7 2 && !s.taken then
    let d1 := d.setEnc k { s with taken := true }
    let s1 := d1.encSt k
    if d1.bit (Reg.POS_ENC_STATUS k) 5 then d1.rezero k
    else if d1.bit (Reg.POS_ENC_STATUS k) 4 = false then
      let d2 := (d1.wrBit (Reg.POS_ENC_STATUS k) 4 true).setEnc k { s1 with anchor := c, window := some (c, true, true) }
      (d2.wrS64 (Reg.POS_ENC_IDX_LATCH_LO k) c).wrS (Reg.POS_ENC_IDX_DRIFT k) 0
    else if i = 0 then (d1.wrS64 (Reg.POS_ENC_IDX_LATCH_LO k) c).wrS (Reg.POS_ENC_IDX_DRIFT k) 0
    else
      let e := nearest s.anchor i c
      if c - e ≤ tol ∧ e - c ≤ tol then
        let w := match s.window with
          | some (e', b, _) => some (e', b, true)
          | none => some (e, true, true)
        ((d1.setEnc k { s1 with window := w }).wrS64 (Reg.POS_ENC_IDX_LATCH_LO k) c).wrS (Reg.POS_ENC_IDX_DRIFT k) (c - e)
      else
        ((d1.wr (Reg.POS_ENC_IDX_UNEXP k) (uns 32 c)).bump (Reg.POS_ENC_IDX_BAD_COUNT k)).event 1 .idxUnexpected
          (ivals [(k : Int), c, c - e])
  else d

/-- R229: a window has been crossed without an accepted index. -/
def Dev.opIdxMissed (d : Dev) (k : Nat) : Dev :=
  let s := d.encSt k
  match s.missed with
  | [] => d
  | e :: rest =>
    ((d.setEnc k { s with missed := rest }).bump (Reg.POS_ENC_IDX_MISS_COUNT k)).event 1 .idxMissed (ivals [(k : Int), e])

/-- R230: in SERVICE a re-zero on the source in use or on the check source is refused, and REZERO_ARM reads 0. -/
def Dev.rezeroRefuse (d : Dev) (k : Nat) : Dev :=
  if d.inService && (d.src == k || d.checkSrc == k) then (d.rezeroOff k).event 1 .rezeroRefused (vals [k]) else d

/-- A re-zero armed in HOLD on such a channel is refused when SERVICE begins. -/
def Dev.rezeroStart (d : Dev) : Dev :=
  (List.range 4).foldl (fun acc k => if acc.bit (Reg.POS_ENC_STATUS k) 5 then acc.rezeroRefuse k else acc) d

/-- R230: arm a re-zero, or refuse it in SERVICE on the source in use or the check source. -/
def Dev.opRezeroArm (d : Dev) (k : Nat) : Dev :=
  if d.inService && (d.src == k || d.checkSrc == k) then d.rezeroRefuse k
  else (d.wrBit (Reg.POS_ENC_CTRL k) 0 true).wrBit (Reg.POS_ENC_STATUS k) 5 true

/-! ## Serial channels (R211-R216) -/

def Dev.ssiSt (d : Dev) (c : Nat) : SsiSt := mapGet {} d.pos.ssi c
def Dev.setSsi (d : Dev) (c : Nat) (x : SsiSt) : Dev := { d with pos := { d.pos with ssi := mapSet {} d.pos.ssi c x } }

/-- Gray code to binary over n bits (R212). -/
def grayBin : Nat → Nat → Nat
  | 0, _ => 0
  | n + 1, g => Nat.xor g (grayBin n (g / 2))

/-- R213: run the check value over bits in the order received. -/
def ssiCrc (n poly : Nat) : Nat → List Bool → Nat
  | reg, [] => reg
  | reg, b :: bs =>
    let top := bitOf reg (n - 1) != b
    let r := reg * 2 % 2 ^ n
    ssiCrc n poly (if top then Nat.xor r (poly % 2 ^ n) else r) bs

/-- The frame's CRC passes. -/
def Dev.ssiCrcOk (d : Dev) (c bits : Nat) : Bool :=
  let n := d.cfF (Reg.POS_SSI_FIELDS c) 19 5
  let f := d.cfF (Reg.POS_SSI_CFG c) 3 7
  let poly := d.cfF (Reg.POS_SSI_CRC c) 0 16
  let init := d.cfF (Reg.POS_SSI_CRC c) 16 16 % 2 ^ n
  let xo := d.cfF (Reg.POS_SSI_CRC_XOR c) 0 16 % 2 ^ n
  n == 0 || Nat.xor (ssiCrc n poly init ((List.range (f - n)).map (fun i => bitOf bits (f - 1 - i)))) xo == fld bits 0 n

/-- The position field P (R212). -/
def Dev.ssiPos (d : Dev) (c bits : Nat) : Nat :=
  let n := d.cfF (Reg.POS_SSI_FIELDS c) 6 6
  let g := fld bits (d.cfF (Reg.POS_SSI_FIELDS c) 0 6) n
  if d.cfB (Reg.POS_SSI_CFG c) 12 then grayBin n g else g

/-- R214: the change that P makes after P_prev. -/
def ssiDelta (b p prev : Nat) : Int :=
  (((p : Int) - (prev : Int) + (2 ^ (b - 1) : Nat)) % (2 ^ b : Nat)) - (2 ^ (b - 1) : Nat)

/-- R215: a bad frame with its error code; FAULT_LIMIT of them in a row fault the channel, also one whose FAULT still reads 1. -/
def Dev.ssiBad (d : Dev) (c err : Nat) : Dev :=
  let a := Reg.POS_SSI_STATUS c
  let n := satU 8 (d.rdF a 6 8 + 1)
  let d1 := ((d.bump (Reg.POS_SSI_BAD_COUNT c)).wrF a 1 3 err).wrF a 6 8 n
  if d.rdF a 6 8 < d1.cf (Reg.POS_SSI_FAULT_LIMIT c) ∧ d1.cf (Reg.POS_SSI_FAULT_LIMIT c) ≤ n then
    let d2 := ((d1.wrBit a 0 true).wrBit a 14 false).setSsi c { d1.ssiSt c with prev := none }
    (d2.event 1 .ssiFault (vals [c, err])).sourceFault (4 + c)
  else d1

/-- A good frame: the count is set or extended (R214). -/
def Dev.ssiGood (d : Dev) (c p : Nat) : Dev :=
  let a := Reg.POS_SSI_STATUS c
  let b := d.cfF (Reg.POS_SSI_FIELDS c) 6 6
  let done : Dev → Dev := fun x =>
    let st : SsiSt := { x.ssiSt c with prev := some p, fresh := some x.tc }
    (((x.bump (Reg.POS_SSI_FRAME_COUNT c)).wrF a 6 8 0).wr (Reg.POS_SSI_RAW c) p).setSsi c st
  match (d.ssiSt c).prev with
  | none => done ((d.wrBit a 14 true).initTo (4 + c) (p : Int))
  | some prev =>
    let dl := ssiDelta b p prev
    if dl.natAbs ≤ d.cf (Reg.POS_SSI_MAX_STEP c) then
      let dl' := if d.cfB (Reg.POS_SSI_CFG c) 14 then -dl else dl
      done (d.countTo (4 + c) (d.count (4 + c) + dl'))
    else d.ssiBad c 4

/-- The trigger unit that starts the frames of a serial channel, when its PERIOD is 0 (R216). -/
def Dev.ssiUnit (d : Dev) (c : Nat) : Option Nat :=
  if d.chanEn (4 + c) && d.cf (Reg.POS_SSI_PERIOD c) == 0 then some (d.cfF (Reg.POS_SSI_CFG c) 15 4) else none

/-- A frame that this module clocks is due (R216, R376): a multiple of PERIOD of local time, or a firing of the trigger unit. -/
def Dev.ssiDue (d : Dev) (c : Nat) : Bool :=
  if d.cf (Reg.POS_SSI_PERIOD c) = 0 then (d.ssiSt c).trig
  else d.mulDue (d.ssiSt c).served (usLocal (d.cf (Reg.POS_SSI_PERIOD c)))

/-- The frame that was due is served. -/
def Dev.ssiServe (d : Dev) (c : Nat) : Dev :=
  d.setSsi c { d.ssiSt c with trig := false, served := d.mulServed (usLocal (d.cf (Reg.POS_SSI_PERIOD c))) }

/-- The clock edges of a frame: L + F + 1 falling edges (R211). -/
def Dev.ssiClocks (d : Dev) (c : Nat) : Dev :=
  d.send (.ssiClock c (d.cfF (Reg.POS_SSI_CFG c) 10 2 + d.cfF (Reg.POS_SSI_CFG c) 3 7 + 1))

/-- A channel's frames run: in SERVICE, clocked by this module when one is due, or heard where its clock is not driven (R216). -/
def Dev.ssiRuns (d : Dev) (c : Nat) : Bool := d.chanEn (4 + c) && d.inService && (!d.driving || d.ssiDue c)

/-- R211-R216: a frame clocked by this module or, where its clock is not driven, heard. -/
def Dev.opSsiFrame (d : Dev) (c bits : Nat) (wire : Bool) : Dev :=
  if d.ssiRuns c then
    let d2 := if d.driving then (d.ssiServe c).ssiClocks c else d
    let errBit := d.cfB (Reg.POS_SSI_FIELDS c) 18 &&
      bitOf bits (d.cfF (Reg.POS_SSI_FIELDS c) 12 6) == d.cfB (Reg.POS_SSI_CFG c) 13
    if d2.ssiCrcOk c bits = false then d2.ssiBad c 1
    else if errBit then d2.ssiBad c 2
    else if wire then d2.ssiBad c 5
    else d2.ssiGood c (d2.ssiPos c bits)
  else d

/-- R215: a frame that is due times out: DATA does not return to 1 after it (`clocked`), or is not 1 when it is due, and then it is not
clocked.  A listening channel raises no timeout (R216). -/
def Dev.opSsiTimeout (d : Dev) (c : Nat) (clocked : Bool) : Dev :=
  if d.driving && d.ssiRuns c then
    let d1 := d.ssiServe c
    (if clocked then d1.ssiClocks c else d1).ssiBad c 3
  else d

/-- A configuration that takes force enables its serial channels anew (R214) and sets the modes of the ADC channels (R241). -/
def Dev.inputsCommit (d : Dev) : Dev :=
  let d1 := (List.range 2).foldl (fun acc c => (acc.setSsi c { served := acc.mulFrom (acc.ssiSt c).served }).wrBit
    (Reg.POS_SSI_STATUS c) 14 false) d
  (List.range 8).foldl (fun acc n =>
    let s : AdcSt := mapGet {} acc.pos.adc n
    ({ acc with pos := { acc.pos with adc := mapSet {} acc.pos.adc n { s with burst := 0, served := acc.mulFrom s.served } } } : Dev).wrBit
      (Reg.ADC_CH_STATUS n) 4 (acc.cfF (Reg.ADC_CH_CFG n) 0 2 == 1)) d1

/-! ## Observer (R219, R221-R225) -/

/-- R221, R222: k1, k2 and k3 for a setting of POS_OBS.BW, which selects 25 Hz times a power of two. -/
def obsGains (bw : Nat) : Rat × Rat × Rat :=
  let u : Rat := 2 * Config.piVal * ((25 * 2 ^ bw : Nat) : Rat) / 1000000
  (3 * u, 3 * u * u, u * u * u)

/-- What an update measures: nothing while coasting, nor from a faulted source before a START (R210); a serial source only after a good
frame. -/
def Dev.obsMeas (d : Dev) (vp : Rat) : Option Rat :=
  if d.bit Reg.POS_STATUS 4 || !d.usable d.src then none
  else if d.src < 4 then some d.measured
  else
    match (d.ssiSt (d.src - 4)).fresh with
    | none => none
    | some t => some (d.measured + vp * ((((d.tc : Int) - (t : Int) : Int) : Rat) / 400000000))

/-- R221-R223: one update of the estimates; good frames count for this update only. -/
def Dev.obsCore (d0 : Dev) : Dev :=
  let d : Dev := { d0 with pos := { d0.pos with ssi := d0.pos.ssi.map (fun x => (x.1, { x.2 with fresh := none })) } }
  if d.src = 7 ∨ d.lost then
    ({ d with pos := { d.pos with v := 0, a := 0, sample := d.tc } }).showObs
  else
    let ts : Rat := 1 / 1000000
    let p := d.pos
    let xp := p.x + p.v * ts + p.a * ts * ts / 2
    let vp := p.v + p.a * ts
    match d0.obsMeas vp with
    | none => ({ d with pos := { p with x := xp, v := vp, sample := d.tc } }).showObs
    | some m =>
      let g := obsGains (d.cfF Reg.POS_OBS 0 4)
      let e := m - xp
      let lim : Rat := (d.cf Reg.POS_TRACK_ERR_MAX : Rat)
      let n := if lim < e ∨ e < -lim then p.errRun + 1 else 0
      if 10 ≤ n then
        let d2 := d.obsInit
        (d2.wrBit Reg.POS_STATUS 8 true).event 1 .trackReset (ivals [pubI ((d2.pos.x - xp) * 65536)])
      else
        let p1 : PosSt := { p with x := xp + g.1 * e, v := vp + g.2.1 * e / ts, a := p.a + g.2.2 * e / (ts * ts),
                                        errRun := n, sample := d.tc }
        ({ d with pos := p1 }).showObs

/-- R225: the direction of travel. -/
def Dev.obsDir (d : Dev) : Dev :=
  let h : Rat := (d.cf Reg.POS_DIR_HYST : Rat)
  let now := d.bit Reg.POS_STATUS 6
  let next := if d.pos.v < -h then true else if h < d.pos.v then false else now
  if next = now then d
  else ((d.wrBit Reg.POS_STATUS 6 next).bump Reg.POS_DIR_CHANGES).event 1 .directionChange
    (ivals [d.rdS64 Reg.POS_X_LO, (d.tc : Int)])

/-- R219: the check source; a faulted channel is used as neither (R210). -/
def Dev.obsCheck (d : Dev) : Dev :=
  if d.usable d.checkSrc = false ∨ d.usable d.refSrc = false ∨ d.cfgField ≠ 3 then d
  else
    let diff := d.scaled d.checkSrc - d.scaled d.refSrc - d.pos.d0
    let tol : Rat := (d.cf Reg.POS_CHECK_TOL : Rat)
    let out := decide (tol < diff ∨ diff < -tol)
    let d1 : Dev := { d with pos := { d.pos with beyond := out } }
    if out then
      let d2 := d1.wrBit Reg.POS_STATUS 7 true
      if d.pos.beyond then d2 else d2.event 1 .checkDisagree (ivals [pubI (diff * 65536)])
    else d1

/-- R224: a snapshot armed by POS_CTRL.SNAPSHOT is captured at the end of the update. -/
def Dev.obsSnap (d : Dev) : Dev :=
  if d.bit Reg.POS_CTRL 0 then
    let d1 := ((d.wr64 Reg.POS_SNAP_X_LO (d.rd64 Reg.POS_X_LO)).wr Reg.POS_SNAP_V (d.rd Reg.POS_V)).wr Reg.POS_SNAP_A
      (d.rd Reg.POS_A)
    let d2 := (d1.wr Reg.POS_SNAP_STATUS (d.rd Reg.POS_STATUS)).wr64 Reg.POS_SNAP_TIME_LO d.tc
    let d3 := (List.range 6).foldl (fun acc ch => acc.wr64 (Reg.POS_SNAP_CNT_LO ch) (acc.rd64 (countReg ch))) d2
    (d3.wr Reg.POS_SNAP_SEQ (d3.rd Reg.POS_SNAP_SEQ + 1)).wrBit Reg.POS_CTRL 0 false
  else d

/-- Keep the counts of this update (R223). -/
def Dev.obsHist (d : Dev) : Dev :=
  { d with pos := { d.pos with hist := (((List.range 6).map d.count) :: d.pos.hist).take 1000 } }

/-! ## ADC (R241-R243) -/

def Dev.adcSt (d : Dev) (n : Nat) : AdcSt := mapGet {} d.pos.adc n
def Dev.setAdc (d : Dev) (n : Nat) (x : AdcSt) : Dev := { d with pos := { d.pos with adc := mapSet {} d.pos.adc n x } }
def Dev.adcMode (d : Dev) (n : Nat) : Nat := d.cfF (Reg.ADC_CH_CFG n) 0 2

/-- R243: the limits of a sample. -/
def Dev.adcLimits (d : Dev) (n : Nat) (x : Int) : Dev :=
  let low := sgn 16 (d.cfF (Reg.ADC_CH_LIMIT n) 0 16)
  let high := sgn 16 (d.cfF (Reg.ADC_CH_LIMIT n) 16 16)
  let s := d.adcSt n
  let out := decide (x < low ∨ high < x)
  let d1 := if x < low then d.wrBit (Reg.ADC_CH_STATUS n) 1 true else d
  let d2 := if high < x then d1.wrBit (Reg.ADC_CH_STATUS n) 2 true else d1
  let d3 := d2.setAdc n { s with limited := out }
  if out && !s.limited then d3.event 1 .adcLimit (ivals [(n : Int), x, (d.tc : Int)]) else d3

/-- R241, R242, R376: one sample, at a multiple of the continuous period or within a burst. -/
def Dev.opAdcSample (d : Dev) (n : Nat) (code : Int) : Dev :=
  let m := d.adcMode n
  let s := d.adcSt n
  let per := usLocal (5 * d.cf (Reg.ADC_CH_RATE n))
  if (m = 1 ∧ d.mulDue s.served per) ∨ (m = 2 ∧ 0 < s.burst) then
    let x := satS 16 code
    let s' : AdcSt := { s with samples := s.samples + 1, burst := s.burst - 1, served := if m = 1 then d.mulServed per else s.served }
    let y := d.rdS (Reg.ADC_CH_FILT n)
    let k := d.cfF (Reg.ADC_CH_CFG n) 2 4
    let y' : Int := y + pubI (((x * 65536 - y : Int) : Rat) / ((2 ^ k : Nat) : Rat))
    let d1 := if x = code then d else d.wrBit (Reg.ADC_CH_STATUS n) 0 true
    let d2 := (d1.setAdc n s').wr (Reg.ADC_CH_DATA n) (uns 16 x + s'.samples % 65536 * 65536)
    let d3 := (d2.wr64 (Reg.ADC_CH_TIME_LO n) d.tc).wrS (Reg.ADC_CH_FILT n) y'
    (d3.wrBit (Reg.ADC_CH_STATUS n) 4 (m == 1 || decide (0 < s'.burst))).adcLimits n x
  else d

/-- R241: a firing of the channel's trigger unit starts a burst, or is ignored and logged while one runs. -/
def Dev.adcTrigger (d : Dev) (n : Nat) : Dev :=
  if d.adcMode n = 2 then
    if 0 < (d.adcSt n).burst then (d.wrBit (Reg.ADC_CH_STATUS n) 3 true).event 1 .adcTrigOverrun (vals [n])
    else (d.setAdc n { d.adcSt n with burst := d.cfF (Reg.ADC_CH_CFG n) 12 8 }).wrBit (Reg.ADC_CH_STATUS n) 4 true
  else d

/-! ## Compare commands -/

/-- Entries that a write to an ARM or DISARM word names. -/
def armEntries (hi : Bool) (v : Nat) : List Nat := (bitsOf 32 v).map (fun i => if hi then i + 32 else i)

/-- R231, R233: arm entries. -/
def Dev.opCmpArm (d : Dev) (k : Nat) (hi : Bool) (v : Nat) : Dev :=
  let js := armEntries hi v
  let bad : Dev → Nat → Bool := fun x j =>
    x.entDir k j == 0 || x.entState k j == 1 || (x.entTimed k j && !x.feat 28)
  let d1 := js.foldl (fun acc j => if bad d j then acc else (acc.setEntState k j 1).entCheck k j) d
  if js.any (bad d) then d1.writeIgnored (if hi then Reg.POS_CMP_ARM_HI k else Reg.POS_CMP_ARM_LO k) v else d1

/-- R231: disarm entries. -/
def Dev.opCmpDisarm (d : Dev) (k : Nat) (hi : Bool) (v : Nat) : Dev :=
  let js := armEntries hi v
  let st := d.cmpSt k
  let d1 := d.setCmp k { st with due := st.due.filter (fun j => !js.contains j) }
  js.foldl (fun acc j => acc.setEntState k j 0) d1

/-- R232, R234: the entries of an output that are due act in ascending order. -/
def Dev.opCmpFire (d : Dev) (k : Nat) : Dev :=
  if d.cmpEn k then
    let st := d.cmpSt k
    let due := (List.range 64).filter (fun j =>
      d.entState k j == 1 && (if d.entTimed k j then d.behind k j else st.due.contains j))
    due.foldl (fun acc j => acc.entFire k j) (d.setCmp k { st with due := [] })
  else d

/-- R234: a scheduled return falls due. -/
def Dev.opCmpReturn (d : Dev) (k : Nat) : Dev :=
  if (d.cmpSt k).ret.isSome then (d.setLevel k false).setReturn k none else d

/-! ## Meanings -/

/-- QUADRATURE_COUNT (R208). -/
def execQuadratureCount (k : Fin 4) (up : Bool) (s : State) : Host.Outcome State Fault Refusal :=
  s.withDev (s.dev.opQuadCount k up)

/-- QUADRATURE_ERROR (R208, R210). -/
def execQuadratureError (k : Fin 4) (s : State) : Host.Outcome State Fault Refusal := s.withDev (s.dev.opQuadError k)

/-- WIRE_DISAGREE (R210). -/
def execWireDisagree (k pair : Fin 4) (s : State) : Host.Outcome State Fault Refusal :=
  s.withDev (s.dev.opWire k pair)

/-- WIRE_DISAGREE_END (R210). -/
def execWireDisagreeEnd (k pair : Fin 4) (s : State) : Host.Outcome State Fault Refusal :=
  s.withDev (if pair = 3 then { s.dev with time := { s.dev.time with ppsWire := false } }
    else s.dev.wrBit (Reg.POS_ENC_STATUS k) (1 + pair) false)

/-- INDEX (R226-R228, R230). -/
def execIndex (k : Fin 4) (s : State) : Host.Outcome State Fault Refusal := s.withDev (s.dev.opIndex k)

/-- IDX_MISSED (R229). -/
def execIdxMissed (k : Fin 4) (s : State) : Host.Outcome State Fault Refusal := s.withDev (s.dev.opIdxMissed k)

/-- REZERO_ARM (R230). -/
def execRezeroArm (k : Fin 4) (s : State) : Host.Outcome State Fault Refusal := s.onWrite (fun d => d.opRezeroArm k)

/-- REZERO_CANCEL (R230). -/
def execRezeroCancel (k : Fin 4) (s : State) : Host.Outcome State Fault Refusal := s.onWrite (fun d => d.rezeroOff k)

/-- SSI_FRAME (R211-R216). -/
def execSsiFrame (chan : Fin 2) (bits : Nat) (wire : Bool) (s : State) : Host.Outcome State Fault Refusal :=
  s.withDev (s.dev.opSsiFrame chan bits wire)

/-- SSI_FRAME_TIMEOUT (R215). -/
def execSsiFrameTimeout (chan : Fin 2) (s : State) (clocked : Bool := true) : Host.Outcome State Fault Refusal :=
  s.withDev (s.dev.opSsiTimeout chan clocked)

/-- POS_SNAPSHOT (R224): SNAPSHOT is set and the next update captures. -/
def execPosSnapshot (s : State) : Host.Outcome State Fault Refusal := s.onWrite (fun d => d.wrBit Reg.POS_CTRL 0 true)

/-- CMP_ARM (R231, R233). -/
def execCmpArm (k : Fin 8) (hi : Bool) (value : Word) (s : State) : Host.Outcome State Fault Refusal :=
  s.onWrite (fun d => d.opCmpArm k hi value.toNat)

/-- CMP_DISARM (R231). -/
def execCmpDisarm (k : Fin 8) (hi : Bool) (value : Word) (s : State) : Host.Outcome State Fault Refusal :=
  s.onWrite (fun d => d.opCmpDisarm k hi value.toNat)

/-- CMP_FIRE (R232-R236). -/
def execCmpFire (k : Fin 8) (s : State) : Host.Outcome State Fault Refusal := s.withDev (s.dev.opCmpFire k)

/-- CMP_PULSE_RETURN (R234). -/
def execCmpPulseReturn (k : Fin 8) (s : State) : Host.Outcome State Fault Refusal := s.withDev (s.dev.opCmpReturn k)

/-- EMU_STEP (R239). -/
def execEmuStep (e : Fin 2) (s : State) : Host.Outcome State Fault Refusal := s.withDev (s.dev.opEmuStep e)

/-- ADC_SAMPLE (R241-R243). -/
def execAdcSample (n : Fin 8) (code : Int) (s : State) : Host.Outcome State Fault Refusal :=
  s.withDev (s.dev.opAdcSample n code)

end Sys2Proof.Machine
end

