-- ==== Sys2Proof/Machine/Commits.lean ====
section
/-!
DEFINITION. Posting commit points (R29-R38, R119, R253, R435, R510), the order in which they apply to a line (R31, R34, R35),
and the map builder of defect lists (R198).
-/

namespace Sys2Proof.Machine

/-! ## Bar offsets (R249) -/

/-- The configured offset of a bar in 1/64 LP. -/
def Dev.baseOmega (d : Dev) (b : Nat) : Int :=
  (((d.cf (Reg.FIRE_BAR_OFFSET b) * 64 * d.dpi + 1270000) / 2540000 : Nat) : Int)

/-- The bar offset in force. -/
def Dev.omega (d : Dev) (b : Nat) : Int := d.baseOmega b + d.rdS (Reg.FIRE_BAR_TRIM b)

/-- FIRE_BARb_OMEGA of every bar. -/
def Dev.showOmega (d : Dev) : Dev := (List.range 8).foldl (fun acc b => acc.wrS (Reg.FIRE_BAR_OMEGA b) (acc.omega b)) d

/-! ## Checks -/

/-- Reserved and host-forbidden values of a record (R30, R33, R119). -/
def commitFieldsOk (c : CommitRec) (host : Bool) : Bool :=
  decide (1 ≤ c.kind ∧ c.kind ≤ 6) && (decide (c.bar < 8) || c.bar == 0xFF) &&
    (!host || (c.origin == 0 && c.flags == 0 && c.seq == 0 && c.epoch == 0)) && decide (c.origin ≤ 3) &&
    decide (c.flags ≤ 1) &&
    (if c.kind = 1 ∨ c.kind = 3 then decide (c.arg ≤ 1)
     else if c.kind = 2 then decide (c.arg < 0x100000000)
     else if c.kind = 4 then decide (c.arg < 512)
     else if c.kind = 5 then decide (0 < c.arg ∧ c.arg < 0x100000000)
     else decide (c.arg % 0x100000000 ≤ 1) && c.bar == 0xFF)

/-- A TAKEOVER is pending. -/
def Dev.takeoverPending (d : Dev) : Bool := d.job.commits.any (fun p => p.cp.kind == 6)

/-- An admitted JOB_SWITCH already names the job on the bar: it is pending there, or has brought the job to the bar (R33). -/
def Dev.namedOn (d : Dev) (id b : Nat) : Bool :=
  (d.pendOn b).any (fun p => p.cp.kind == 5 && p.cp.arg == id) || (d.bf b).job == id ||
    (match d.findJob id with | some k => k.bars.any (fun x => x.1 == b) | none => false)

/-- The record's JOB is admitted where the record acts, and a JOB_SWITCH's incoming job is fit (R33).  A job that has left one of its
bars is not admitted on that bar any more (log entry 100). -/
def Dev.commitJobOk (d : Dev) (c : CommitRec) : Bool :=
  match d.findJob c.job with
  | none => false
  | some j =>
    let bars := d.commitBars c
    !bars.isEmpty && bars.all (fun b => bitOf j.barMask b && d.barEn b && !(j.onBar b).left) &&
      (c.kind != 5 ||
        (match d.findJob c.arg with
         | none => false
         | some k => k.id != c.job && !k.run && bars.all (fun b => bitOf k.barMask b) && !bars.any (fun b => d.namedOn k.id b)))

/-- The bank or set to be activated is held by a TABLE_LOAD, or by the colour loop against a host TONE_MAP (R122, R510). -/
def Dev.commitHeld (d : Dev) (c : CommitRec) (host : Bool) : Bool :=
  let x := commitBank c
  (x.1 != 0 && (d.commitBars c).any (fun b => d.loadHolds b x.1 x.2.1 x.2.2)) ||
    (host && c.kind == 1 && (d.commitBars c).any (fun b => bitOf d.rast.owned b))

/-- Parameter values (R253, R33, R435). -/
def Dev.commitArgOk (d : Dev) (c : CommitRec) : Bool :=
  if c.kind = 2 then
    let t := sgn 32 c.arg
    decide (-4096 ≤ t ∧ t ≤ 4096) && (d.commitBars c).all (fun b => decide (0 ≤ d.baseOmega b + t))
  else if c.kind = 4 then decide (c.arg % 256 < 24)
  else if c.kind = 6 then c.arg / 0x100000000 == 0 && c.arg % 2 != d.slot
  else true

/-- R510: the status with which a record is refused; none when it is admitted.  In pair operation a module that is not ACTIVE admits no
record of any kind (R38, R415; log entry 100). -/
def Dev.commitCheck (d : Dev) (c : CommitRec) (host : Bool) : Option Nat :=
  if commitFieldsOk c host = false then some COMMIT_RESERVED
  else if (host && c.kind == 4 && !d.feat 23) || (c.kind == 6 && !d.feat 41) then some FEATURE_NOT_ACCEPTED
  else if c.kind = 6 ∧ d.pairOn = false then some NOT_IN_PAIR
  else if d.pairOn ∧ d.role ≠ 1 then some NOT_ACTIVE
  else if c.kind = 6 ∧ (d.takeoverPending ∨ d.partnerInStep = false) then some TAKEBACK_REFUSED
  else if d.commitJobOk c = false then some NO_SUCH_JOB
  else if (d.commitBars c).any (fun b => decide (c.line < d.horizon c.job b)) then some COMMIT_LATE
  else if d.commitHeld c host then some TABLE_LOCKED
  else if d.commitArgOk c = false then some OUT_OF_RANGE
  else if (d.commitBars c).any (fun b => decide (256 ≤ (d.pendOn b).length)) then some COMMIT_QUEUE_FULL
  else none

/-- The record as admitted: SEQ, EPOCH, and the epoch of a TAKEOVER (R34, R435). -/
def Dev.fillCommit (d : Dev) (c : CommitRec) : CommitRec :=
  let ep := if d.feat 41 then d.rd Reg.PAIR_EPOCH else 0
  { c with seq := (d.job.commitSeq + 1) % 0x100000000, epoch := ep,
           arg := if c.kind = 6 then c.arg % 2 + (d.rd Reg.PAIR_EPOCH + 1) * 0x100000000 else c.arg }

/-- Put an admitted record among the pending ones; a JOB_SWITCH schedules its incoming job (R130, R141). -/
def Dev.enqueueCommit (d : Dev) (c : CommitRec) : Dev :=
  let p : Pend := { cp := c, bars := d.commitBars c }
  let d1 : Dev := { d with job := { d.job with commits := d.job.commits ++ [p], commitSeq := c.seq } }
  if c.kind = 5 then
    let d2 := d1.modJob c.job (fun j => { j with succs := if j.succs.contains c.arg then j.succs else j.succs ++ [c.arg] })
    (d2.modJob c.arg (fun j => if j.phase = .admitted then { j with phase := .scheduled } else j)).showRates
  else if c.kind = 6 then d1.wrBit Reg.PAIR_STATUS 9 true
  else d1

/-- Admit a record: it is also sent to the STANDBY (R38, R421). -/
def Dev.admitCommit (d : Dev) (c : CommitRec) : Dev × Nat :=
  let c' := d.fillCommit c
  let crcBar := (d.commitBars c').headD 0
  let d1 := d.enqueueCommit c'
  (if d1.role = 1 then d1.shank 3 (commitBytes c' ++ leBytes 4 (d.commitCrc c' crcBar) ++ leBytes 4 0) else d1, c'.seq)

/-- R37: a refused record. -/
def Dev.refuseCommit (d : Dev) (c : CommitRec) (st : Nat) : Dev :=
  d.append (if c.origin = 2 then 2 else 0) .commitRefused (commitBytes c ++ vals [st])

/-- The module posts a record of its own (ORIGIN 1-3): the status and the state. -/
def Dev.postOwn (d : Dev) (c : CommitRec) : Dev × Nat :=
  match d.commitCheck c false with
  | some st => (d.refuseCommit c st, st)
  | none => ((d.admitCommit c).1, OK)

/-- The body of COMMIT_POST. -/
def Dev.commitBody (d : Dev) (o : Out) : Dev :=
  let c := commitOf ((o.entry.drop 8).take 32)
  match (if d.role = 2 then none else d.commitCheck c true) with
  | some st => (d.refuseCommit c st).complete o st 0 []
  | none =>
    if d.role = 2 then d.complete o OK 0 []
    else
      let r := d.admitCommit c
      r.1.complete o OK r.2 []

/-- Pending records of a bar or of all, in SEQ order (COMMIT_LIST). -/
def Dev.listCommits (d : Dev) (bar : Nat) : List CommitRec :=
  ((if bar = 0xFF then d.job.commits else d.pendOn bar).map Pend.cp).mergeSort (fun x y => decide (x.seq ≤ y.seq))

/-- The body of COMMIT_LIST: whole records that fit the buffer. -/
def Dev.listBody (dma : Dma) (d : Dev) (o : Out) : Dev :=
  let bar := byteAt o.entry 8
  if 8 ≤ bar ∧ bar ≠ 0xFF then d.complete o OUT_OF_RANGE 0 []
  else
    let cs := d.listCommits bar
    d.dmaOut o dma (fun n => (cs.take (n / 32)).flatMap commitBytes) (fun x n => x.complete o OK (n / 32) [])

/-! ## Which record governs a line (R31, R34, R35) -/

/-- The line of the bar at which a pending record takes effect, counted on in the job in progress; none when it does
not (a record of the outgoing job beyond its switch). -/
def Dev.absLine (d : Dev) (b : Nat) (c : CommitRec) : Option Nat :=
  match d.switchOn b with
  | some (m, inc) =>
    if c.job = (d.bf b).job then (if c.line ≤ m then some c.line else none)
    else if c.job = inc then some (m + c.line)
    else none
  | none => if c.job = (d.bf b).job then some c.line else none

/-- The record of the pair that applies later: the higher line, then the higher SEQ. -/
def laterOf (a b : Nat × CommitRec) : Nat × CommitRec :=
  if a.1 < b.1 ∨ (a.1 = b.1 ∧ a.2.seq ≤ b.2.seq) then b else a

/-- The bank of a kind (1 Last, 2 screen, 3 nozzle map) that is active for line n of the bar, counted on in the job in
progress. -/
def Dev.bankFor (d : Dev) (b n kind head : Nat) : Nat :=
  let cs := (d.pendOn b).filterMap (fun p =>
    match d.absLine b p.cp with
    | some l =>
      let x := commitBank p.cp
      if l ≤ n ∧ x.1 = kind ∧ x.2.1 = head then some (l, p.cp) else none
    | none => none)
  match cs with
  | [] => d.activeBank b kind head
  | c :: rest => (commitBank (rest.foldl laterOf c).2).2.2

/-- A SCREEN record takes effect exactly at line n (R196). -/
def Dev.screenAt (d : Dev) (b n : Nat) : Bool := (d.pendOn b).any (fun p => p.cp.kind == 3 && d.absLine b p.cp == some n)

/-- The job and its own line index for line n of the bar, counted on in the job in progress. -/
def Dev.lineJob (d : Dev) (b n : Nat) : Option (Job × Nat) :=
  match d.switchOn b with
  | some (m, inc) =>
    if n < m then (d.findJob (d.bf b).job).map (fun j => (j, n)) else (d.findJob inc).map (fun j => (j, n - m))
  | none => (d.findJob (d.bf b).job).map (fun j => (j, n))

/-! ## The map builder (R198) -/

/-- A map of a head with the nozzles of a list set to DEAD. -/
def deadMap (m : List Byte) (nozzles : List Nat) : List Byte :=
  (List.range 1024).map (fun i =>
    let c : Nat → Nat := fun k => if nozzles.contains (4 * i + k) then 2 else mapState m (4 * i + k)
    packFourBanks (c 0) (c 1) (c 2) (c 3))
where
  /-- Four states as a byte. -/
  packFourBanks (a b c e : Nat) : Byte := BitVec.ofNat 8 (a + 4 * b + 16 * c + 64 * e)

/-- Activate a bank in REb_ACTIVE. -/
def Dev.activate (d : Dev) (b kind head k : Nat) : Dev :=
  d.wrF (Reg.RE_ACTIVE b) (if kind = 1 then 0 else if kind = 2 then 1 else 8 + head) 1 k

/-- The job for which the builder posts: the one printing on the bar, or one scheduled there. -/
def Dev.builderJob (d : Dev) (b : Nat) : Option Job := d.barJob b

/-- Activate a map on a bar with no job, and record it as a commit point with JOB 0 and LINE 0. -/
def Dev.activateFree (d : Dev) (b head k : Nat) (c : CommitRec) : Dev :=
  (d.activate b 3 head k).append 1 .commitApplied (commitBytes c ++ vals [b, d.tc])

/-- Write a defect-list map into the inactive bank of a head and activate it, if the bank is free; else it waits.  A
STANDBY activates only what a COMMIT frame brings (R426). -/
def Dev.buildMap (d : Dev) (b head : Nat) (m : List Byte) : Dev :=
  let k := 1 - d.activeBank b 3 head
  let x := d.bb b
  if d.bankPending b 3 head k || d.loadHolds b 3 head k || d.role == 2 then
    d.setBb b { x with waitMaps := mapSet [] x.waitMaps head m }
  else
    let d1 := (d.setBb b { x with waitMaps := mapErase head x.waitMaps }).setBank b 3 head k m
    let c : CommitRec := ⟨4, b, 1, 0, 0, 0, 0, 0, head + 256 * k⟩
    match d1.builderJob b with
    | none =>
      let d2 := if d1.role = 1 then d1.shank 3 (commitBytes c ++ leBytes 4 (d1.commitCrc c b) ++ leBytes 4 0) else d1
      d2.activateFree b head k c
    | some j =>
      let r := d1.postOwn { c with job := j.id, line := d1.horizon j.id b }
      if r.2 = OK then r.1 else r.1.setBb b { x with waitMaps := mapSet [] x.waitMaps head m }

/-- Maps that waited for a bank of the bar are tried again (R198). -/
def Dev.retryMaps (d : Dev) (b : Nat) : Dev :=
  (d.bb b).waitMaps.foldl (fun acc x => acc.buildMap b x.1 x.2) d

/-- The same on every bar: commit points have gone with their jobs, or a TABLE_LOAD has completed. -/
def Dev.retryAll (d : Dev) : Dev := (List.range 8).foldl (fun acc b => acc.retryMaps b) d

/-! ## Meanings -/

/-- TABLE_LOAD (R122, R198, R204, R512). -/
def execTableLoad (q : Fin 16) (dma : Dma) (s : State) : Host.Outcome State Fault Refusal :=
  s.withDev (s.dev.runMatched q 0x0210 dma (Dev.loadBody dma)).retryAll

/-- COMMIT_POST (R29-R38, R119, R510). -/
def execCommitPost (q : Fin 16) (s : State) : Host.Outcome State Fault Refusal :=
  s.withDev (s.dev.runMatched q 0x0130 ⟨[], [], none⟩ Dev.commitBody)

/-- COMMIT_LIST (R115). -/
def execCommitList (q : Fin 16) (dma : Dma) (s : State) : Host.Outcome State Fault Refusal :=
  s.withDev (s.dev.runCmd q 0x0131 (Dev.listBody dma))

end Sys2Proof.Machine
end

