-- ==== Sys2Proof/Machine/Digests.lean ====
section
/-!
DEFINITION. What the redundant pair does at lines: digests and mismatches (R427, R430, R439, R456), the takeback request
(R436) and a TAKEOVER commit point (R435).
-/

namespace Sys2Proof.Machine

/-! ## Takeback and takeover (R435, R436) -/

/-- The first line at or above `lo` with remainder q modulo p. -/
def quietFrom (lo p q : Nat) : Nat := lo + (q + p - lo % p) % p

/-- The highest horizon of a job over its bars (R32). -/
def Dev.topHorizon (d : Dev) (j : Job) : Nat := (j.barList.map (fun b => d.horizon j.id b)).foldl max 0

/-- The job and line of the first takeback point at or above every horizon; none while there is none. -/
def Dev.takebackPoint (d : Dev) : Option (Nat × Nat) :=
  let p := d.cf Reg.PAIR_QUIET_PERIOD
  match d.job.jobs.find? (fun j => j.run && j.phase == .scheduled && d.topHorizon j == 0) with
  | some j => some (j.id, 0)
  | none =>
    match d.job.jobs.find? (fun j => j.phase == .printing) with
    | none => none
    | some j =>
      if 0 < p then some (j.id, quietFrom (d.topHorizon j) p (d.cf Reg.PAIR_QUIET_LINE))
      else (d.job.jobs.find? (fun k => j.succs.contains k.id && k.phase == .scheduled && d.topHorizon k == 0)).map (fun k => (k.id, 0))

/-- The ACTIVE answers a takeback request at a takeback point: it posts TAKEOVER, or resigns when no job is active. -/
def Dev.tryTakeback (d : Dev) : Dev :=
  if d.pair.takeback && d.role == 1 && !d.takeoverPending then
    let clear : Dev → Dev := fun x => { x with pair := { x.pair with takeback := false } }
    if d.anyActive = false then (clear d).resign 1 d.partnerStep
    else
      match d.takebackPoint with
      | none => d
      | some (job, line) =>
        let r := d.postOwn ⟨6, 0xFF, 3, 0, 0, job, 0, line, 1 - d.slot⟩
        if r.2 = OK then clear r.1 else r.1
  else d

/-- R436: a STANDBY in the preferred slot arms takeback. -/
def Dev.armTakeback (d : Dev) : Dev :=
  if d.role = 2 ∧ d.stepState = 0 ∧ d.preferred ∧ 1000000 ≤ d.rd64 Reg.PAIR_MATCH_RUN_LO ∧ d.feat 42 ∧
      d.cfB Reg.PAIR_CFG 2 ∧ d.bit Reg.PAIR_STATUS 10 = false then
    (d.wrBit Reg.PAIR_STATUS 10 true).shank 0xC (leBytes 8 2)
  else d

/-- R435: a TAKEOVER record takes effect on a bar; after the last bar the old ACTIVE releases and becomes STANDBY. -/
def Dev.takeoverAt (d : Dev) (b : Nat) (c : CommitRec) (lastBar : Bool) : Dev :=
  let m := if bitOf d.pair.master b then d.pair.master else d.pair.master + 2 ^ b
  let d1 : Dev := { d with pair := { d.pair with master := m } }
  if lastBar && d1.role == 1 then
    let d2 := (d1.release.shank 0xD []).wr Reg.PAIR_EPOCH (c.arg / 0x100000000)
    let d3 : Dev := { d2 with pair := { d2.pair with master := 0 } }
    (d3.setRole 2 0 4).wrBit Reg.PAIR_STATUS 9 false
  else d1

/-! ## Line digests (R427, R430, R456) -/

/-- The module has appended a print-affecting fault of the bar that covers lines n - 1,024 to n. -/
def Dev.faultCovers (d : Dev) (b n : Nat) : Bool :=
  d.pair.faults.any (fun f => f.1 == b && decide (n ≤ f.2 + 1024 ∧ f.2 ≤ n))

/-- Send DIAG for a line. -/
def Dev.sendDiag (d : Dev) (b line : Nat) : Dev :=
  d.shank 0xB (leBytes 8 line ++ leBytes 1 b ++ leBytes 1 (b2n (d.faultCovers b line)) ++ List.replicate 6 0)

/-- A mismatch at a line of a bar: the run ends, and each module says whether it has a fault (R427, R430). -/
def Dev.mismatchAt (d : Dev) (b line : Nat) (node : Bool) : Dev :=
  let d1 := (d.bump Reg.PAIR_MISMATCH_COUNT).wr64 Reg.PAIR_MATCH_RUN_LO 0
  let m : Mismatch := ⟨line, b, d1.faultCovers b line, none,
    if d1.role = 2 then d1.stepState == 0 else d1.partnerInStep, node⟩
  let now : Option Mismatch := match d1.pair.mismatch with | some x => some x | none => some m
  let d2 : Dev := { d1 with pair := { d1.pair with runs := [], mismatch := now } }
  d2.sendDiag b line

/-- The bars that carry a PRINTING job. -/
def Dev.printingBars (d : Dev) : List Nat :=
  (List.range 8).filter (fun b => match d.findJob (d.bf b).job with | some j => j.phase == .printing | none => false)

/-- The bars of a resynchronisation have all joined. -/
def Dev.allJoined (d : Dev) : Bool := d.printingBars.all (fun b => bitOf d.pair.joined b)

/-- A matched line of a bar: the run, IN_STEP at 4,096, takeback (R427, R436). -/
def Dev.matchedLine (d : Dev) (b : Nat) : Dev :=
  let runs := mapMod 0 d.pair.runs b (fun n => n + 1)
  let d1 : Dev := { d with pair := { d.pair with runs := runs } }
  let run := ((d1.printingBars.map (mapGet 0 runs)).min?).getD 0
  let d2 := d1.wr64 Reg.PAIR_MATCH_RUN_LO run
  let d3 := if d2.role = 2 ∧ d2.stepState = 2 ∧ d2.allJoined ∧ 4096 ≤ run
    then (d2.wrF Reg.PAIR_STATUS 2 2 0).event 2 .pairInStep (vals [d2.rd Reg.PAIR_EPOCH]) else d2
  d3.armTakeback

/-- Compare one line's digests; 0 on exactly one module is neither a mismatch nor a match (R456). -/
def Dev.compareLine (d : Dev) (b line own theirs : Nat) : Dev :=
  if own = theirs then d.matchedLine b
  else if own = 0 ∨ theirs = 0 then d
  else d.mismatchAt b line false

/-- Compare the lines of a bar that both modules have given a digest. -/
def Dev.compareLines (d : Dev) (b : Nat) : Dev :=
  let own := mapGet [] d.pair.own b
  let theirs := mapGet [] d.pair.theirs b
  let both := own.filterMap (fun x => (theirs.find? (fun y => y.1 == x.1)).map (fun y => (x.1, x.2, y.2)))
  let rest : List (Nat × Nat) → List (Nat × Nat) := fun xs => xs.filter (fun x => !both.any (fun y => y.1 == x.1))
  let own' := mapSet [] d.pair.own b (rest own)
  let theirs' := mapSet [] d.pair.theirs b (rest theirs)
  both.foldl (fun acc x => acc.compareLine b x.1 x.2.1 x.2.2) { d with pair := { d.pair with own := own', theirs := theirs' } }

/-- The digest of a line of a bar is formed: the ACTIVE sends each sixteen, the STANDBY compares (R421, R427). -/
def Dev.lineDigest (d : Dev) (b line dg : Nat) : Dev :=
  if d.pairOn = false ∨ d.role = 0 ∨ d.syncing b then d
  else
    let xs := mapGet [] d.pair.own b ++ [(line, dg)]
    let put : List (Nat × Nat) → Dev := fun ys => { d with pair := { d.pair with own := mapSet [] d.pair.own b ys } }
    if d.role = 2 then (put xs).compareLines b
    else if xs.length < 16 then put xs
    else
      (put []).shank 6 (leBytes 8 ((xs.headD (0, 0)).1) ++ leBytes 1 b ++ List.replicate 7 0 ++
        xs.flatMap (fun x => leBytes 4 x.2))

end Sys2Proof.Machine
end

