-- ==== Sys2Proof/Machine/Aes.lean ====
section
/-!
DEFINITION. AES-128 and AES-CMAC, the tag of the Lace link (R283, R292).  The spec names RFC 4493; the cipher itself is
the published standard (PRESUMED).
-/

namespace Sys2Proof.Machine

/-- Double an element of GF(2^8) modulo x^8 + x^4 + x^3 + x + 1. -/
def gfDouble (b : Nat) : Nat := if b < 128 then 2 * b else Nat.xor (2 * b) 0x11B

/-- Product in GF(2^8), over the low `n` bits of the second factor. -/
def gfMul : Nat → Nat → Nat → Nat
  | 0, _, _ => 0
  | n + 1, a, b => Nat.xor (if b % 2 = 1 then a else 0) (gfMul n (gfDouble a) (b / 2))

/-- Power of an element, by repeated product. -/
def gfPow (a : Nat) : Nat → Nat
  | 0 => 1
  | n + 1 => gfMul 8 a (gfPow a n)

/-- Rotate a byte left. -/
def rotl8 (b k : Nat) : Nat := (b * 2 ^ k + b / 2 ^ (8 - k)) % 256

/-- The byte substitution: the inverse, then the affine map. -/
def subByte (b : Nat) : Nat :=
  let x := gfPow b 254
  Nat.xor x (Nat.xor (rotl8 x 1) (Nat.xor (rotl8 x 2) (Nat.xor (rotl8 x 3) (Nat.xor (rotl8 x 4) 0x63))))

/-- Sum of two byte strings. -/
def xorNats (a b : List Nat) : List Nat := List.zipWith Nat.xor a b

/-- The next round key. -/
def nextKey (rcon : Nat) (k : List Nat) : List Nat :=
  let g := fun i => k.getD i 0
  let t := xorNats ([g 13, g 14, g 15, g 12].map subByte) [rcon, 0, 0, 0]
  let w0 := xorNats (k.take 4) t
  let w1 := xorNats ((k.drop 4).take 4) w0
  let w2 := xorNats ((k.drop 8).take 4) w1
  w0 ++ w1 ++ w2 ++ xorNats (k.drop 12) w2

/-- Row shift of a state held column by column. -/
def shiftRows (s : List Nat) : List Nat := (List.range 16).map (fun i => s.getD ((i + 4 * (i % 4)) % 16) 0)

/-- Mix one column. -/
def mixCol (a b c d : Nat) : List Nat :=
  let m := fun p q r t => Nat.xor (gfDouble p) (Nat.xor (Nat.xor (gfDouble q) q) (Nat.xor r t))
  [m a b c d, m b c d a, m c d a b, m d a b c]

/-- Mix every column. -/
def mixCols : List Nat → List Nat
  | a :: b :: c :: d :: r => mixCol a b c d ++ mixCols r
  | _ => []

/-- The rounds that are left, the last one without the column mix. -/
def aesRounds : Nat → Nat → List Nat → List Nat → List Nat
  | 0, _, _, s => s
  | n + 1, rcon, k, s =>
    let k' := nextKey rcon k
    let t := shiftRows (s.map subByte)
    aesRounds n (gfDouble rcon) k' (xorNats (if n = 0 then t else mixCols t) k')

/-- AES-128 of one block. -/
def aesBlock (key block : List Nat) : List Nat := aesRounds 10 1 key (xorNats block key)

/-- Shift a block left by one bit. -/
def shiftBlock (b : List Nat) : List Nat :=
  (List.range b.length).map (fun i => (2 * b.getD i 0 + b.getD (i + 1) 0 / 128) % 256)

/-- A subkey: the shifted block, with 0x87 added when a 1 falls out. -/
def cmacSub (b : List Nat) : List Nat :=
  let s := shiftBlock b
  if b.headD 0 < 128 then s else s.take 15 ++ [Nat.xor (s.getD 15 0) 0x87]

/-- Chain the blocks of a message; the last one takes a subkey, and a short one its padding. -/
def cmacRun (key k1 k2 : List Nat) : Nat → List Nat → List Nat → List Nat
  | 0, x, _ => x
  | n + 1, x, m =>
    if 16 < m.length then cmacRun key k1 k2 n (aesBlock key (xorNats x (m.take 16))) (m.drop 16)
    else if m.length = 16 then aesBlock key (xorNats x (xorNats m k1))
    else aesBlock key (xorNats x (xorNats (m ++ 0x80 :: List.replicate (15 - m.length) 0) k2))

/-- AES-128-CMAC of a message (RFC 4493). -/
def aesCmac (key msg : List Byte) : List Byte :=
  let k := key.map BitVec.toNat
  let z := List.replicate 16 0
  let k1 := cmacSub (aesBlock k z)
  (cmacRun k k1 (cmacSub k1) (msg.length / 16 + 1) z (msg.map BitVec.toNat)).map (BitVec.ofNat 8)

end Sys2Proof.Machine
end

