-- ==== Sys2Proof/Machine/Blocks.lean ====
section
/-!
DEFINITION. The blocks of the 64b/66b links (R271, R274-R277, R279, R283, R419, R420): frames in blocks, their check sums, the scrambler,
and what a sent frame or token is on its lanes.
-/

namespace Sys2Proof.Machine

/-! ## CRC-16 (R276) -/

/-- One bit step of CRC-16, polynomial 0x1021, not reflected. -/
def crc16Bit (c : Nat) : Nat := if 0x8000 ≤ c then Nat.xor (2 * c % 0x10000) 0x1021 else 2 * c % 0x10000

/-- Eight bit steps. -/
def crc16Byte (c b : Nat) : Nat :=
  crc16Bit (crc16Bit (crc16Bit (crc16Bit (crc16Bit (crc16Bit (crc16Bit (crc16Bit (Nat.xor c (b * 256)))))))))

/-- CRC-16 of a byte group: it starts at 0xFFFF and has no final XOR. -/
def crc16 (bs : List Byte) : Nat := bs.foldl (fun c b => crc16Byte c b.toNat) 0xFFFF

/-! ## Blocks and frames (R274, R275) -/

/-- The control block types. -/
abbrev BLK_IDLE : Byte := 0x1E
abbrev BLK_SOF : Byte := 0x5A
abbrev BLK_EOF : Byte := 0xA5
abbrev BLK_TOKEN : Byte := 0xC3
abbrev BLK_ALIGN : Byte := 0x96

/-- Bytes as whole data blocks; a last group that is not whole is filled with 0. -/
def dataBlocks : List Byte → List Blk
  | a :: b :: c :: d :: e :: f :: g :: h :: r => .data (BitVec.ofNat 64 (leNat [a, b, c, d, e, f, g, h])) :: dataBlocks r
  | [] => []
  | r => [.data (BitVec.ofNat 64 (leNat r))]

/-- A frame: SOF with its TYPE, whole data blocks, EOF. -/
def enframe (type : Nat) (bs : List Byte) : List Blk :=
  .control BLK_SOF (BitVec.ofNat 56 (type % 256)) :: (dataBlocks bs ++ [.control BLK_EOF 0])

/-- The blocks of the frame among those received: IDLE and ALIGN blocks and whole tokens count as no part of it.  A type that R274 does
not name is a block error, and so is a token whose two data blocks do not follow it at once (DEDUCED).  `skip` counts the data blocks
of a token still to come. -/
def frameBlocks : Nat → List Blk → Option (List Blk)
  | 0, [] => some []
  | 0, .data w :: r => (frameBlocks 0 r).map (.data w :: ·)
  | 0, .control t v :: r =>
    if t = BLK_IDLE ∨ t = BLK_ALIGN then frameBlocks 0 r
    else if t = BLK_TOKEN then frameBlocks 2 r
    else if t = BLK_SOF ∨ t = BLK_EOF then (frameBlocks 0 r).map (.control t v :: ·)
    else none
  | k + 1, .data _ :: r => frameBlocks k r
  | _ + 1, _ => none

/-- The bytes up to the EOF block that ends the frame. -/
def frameBytes : List Blk → Option (List Byte)
  | .data w :: r => (frameBytes r).map (leBytes 8 w.toNat ++ ·)
  | [.control t _] => if t = BLK_EOF then some [] else none
  | _ => none

/-- The TYPE and the bytes of a received frame; none at a block error. -/
def deframe (bl : List Blk) : Option (Nat × List Byte) :=
  match frameBlocks 0 bl with
  | some (.control t v :: r) => if t = BLK_SOF then (frameBytes r).map (fun bs => (v.toNat % 256, bs)) else none
  | _ => none

/-- Bytes of the received blocks of a frame, from SOF to EOF (R300): IDLE blocks, ALIGN blocks and tokens count as no part of it. -/
def frameSize (bl : List Blk) : Nat :=
  match deframe bl with
  | some f => f.2.length + 16
  | none => 8 * (bl.filter (fun k => match k with | .data _ => true | .control t _ => t != BLK_IDLE && t != BLK_ALIGN)).length

/-! ## Sync headers and the scrambler (R271) -/

/-- The 2-bit sync header: 0b01 for a data block, 0b10 for a control block. -/
def blkSync : Blk → Nat
  | .data _ => 1
  | .control _ _ => 2

/-- The 64 payload bits as a number; the first payload byte is the least significant. -/
def blkPayload : Blk → BitVec 64
  | .data w => w
  | .control t v => BitVec.ofNat 64 (t.toNat + 256 * v.toNat)

/-- The two taps of x^58 + x^39 + 1 on the last 58 bits of the line, the newest in bit 0. -/
def scrTap (s : Nat) : Bool := bitOf s 38 != bitOf s 57

/-- The register after a line bit. -/
def scrNext (s : Nat) (b : Bool) : Nat := (2 * s + b2n b) % 2 ^ 58

/-- Scrambled payload bits. -/
def scramble : Nat → List Bool → List Bool
  | _, [] => []
  | s, b :: r => (b != scrTap s) :: scramble (scrNext s (b != scrTap s)) r

/-- Payload bits recovered from line bits: the descrambler synchronises itself on them. -/
def descramble : Nat → List Bool → List Bool
  | _, [] => []
  | s, b :: r => (b != scrTap s) :: descramble (scrNext s b) r

/-- The register after a run of line bits. -/
def scrAfter (s : Nat) (bits : List Bool) : Nat := bits.foldl scrNext s

/-- The bits of a block's payload, least significant first (PRESUMED; log entry 112). -/
def blkBits (k : Blk) : List Bool := (List.range 64).map (fun i => bitOf (blkPayload k).toNat i)

/-- The line bits of blocks from a register value: each block's sync header, then its scrambled payload. -/
def lineBits : Nat → List Blk → List Bool
  | _, [] => []
  | s, k :: r =>
    let body := scramble s (blkBits k)
    bitOf (blkSync k) 1 :: bitOf (blkSync k) 0 :: (body ++ lineBits (scrAfter s body) r)

/-! ## What is sent -/

/-- The 24 payload bytes of a token (R279). -/
def tokenFrame (flags fine period line epoch blank : Nat) : List Byte :=
  let mid := leBytes 1 flags ++ leBytes 1 fine ++ leBytes 3 period ++ leBytes 4 line ++ leBytes 4 epoch ++ leBytes 3 blank ++
    leBytes 5 0
  leBytes 1 0xC3 ++ mid ++ leBytes 2 (crc16 mid)

/-- A token: the TOKEN control block and two data blocks, which nothing separates. -/
def tokenBlocks (bs : List Byte) : List Blk :=
  .control BLK_TOKEN (BitVec.ofNat 56 (leNat ((bs.drop 1).take 7))) :: dataBlocks (bs.drop 8)

/-- The bytes of a LINE frame: header with HDR_CRC, head line, trailer with LINE_CRC (R277). -/
def lineFrame (head flags fine line epoch job laneSeq : Nat) (data : List Byte) : List Byte :=
  let hdr := leBytes 1 head ++ leBytes 1 flags ++ leBytes 1 fine ++ leBytes 1 0 ++ leBytes 8 line ++ leBytes 4 epoch ++ leBytes 4 job ++
    leBytes 4 laneSeq ++ leBytes 4 0
  hdr ++ leBytes 4 (crc32c hdr) ++ data ++ leBytes 4 (crc32c data) ++ leBytes 4 0

/-- The header of a CONTROL, MGMT or PORT_STATUS frame (R283). -/
def laceHead (kind : Nat) (tagged : Bool) (len seq : Nat) : List Byte :=
  leBytes 1 kind ++ leBytes 1 (b2n tagged) ++ leBytes 2 len ++ leBytes 4 0 ++ leBytes 8 seq

/-- The bytes of such a frame: header, body, tag, CRC-32C of all of them, reserved. -/
def laceFrameBytes (kind : Nat) (tagged : Bool) (seq : Nat) (body tag : List Byte) : List Byte :=
  let f := laceHead kind tagged body.length seq ++ body ++ tag
  f ++ leBytes 4 (crc32c f) ++ leBytes 4 0

/-- The bytes of a Shank frame (R420). -/
def shankFrameBytes (kind flags epoch seq : Nat) (body : List Byte) : List Byte :=
  let f := leBytes 1 kind ++ leBytes 1 flags ++ leBytes 2 body.length ++ leBytes 4 epoch ++ leBytes 8 seq ++ body
  f ++ leBytes 4 (crc32c f) ++ leBytes 4 0

/-- What an entry of the record of the outputs is on its lanes: lane number (LN), and the blocks on it. -/
def Tx.wire : Tx → List (Nat × List Blk)
  | .token bar lanes flags fine period n epoch blank =>
    lanes.map (fun k => (8 + 2 * bar + k, tokenBlocks (tokenFrame flags fine period n epoch blank)))
  | .line bar head flags fine n epoch job lane laneSeq data =>
    [(8 + 2 * bar + lane, enframe 1 (lineFrame head flags fine n epoch job laneSeq data))]
  | .lace bar lane type kind seq tagged body tag => [(8 + 2 * bar + lane, enframe type (laceFrameBytes kind tagged seq body tag))]
  | .shank lanes kind flags epoch seq body => lanes.map (fun k => (24 + k, enframe 0x10 (shankFrameBytes kind flags epoch seq body)))
  | _ => []

/-! ## Checks of what is received (R283, R420) -/

/-- The CRC and the length of a received CONTROL, MGMT or PORT_STATUS frame hold: 16 bytes of header, LENGTH bytes of body, the tag and the
trailer. -/
def laceCrcOk (f : List Byte) : Bool :=
  let n := numAt f 2 2
  f.length == 40 + n && crc32c (f.take (32 + n)) == numAt f (32 + n) 4

/-- The CRC and the length of a received Shank frame hold. -/
def shankCrcOk (f : List Byte) : Bool :=
  let n := numAt f 2 2
  f.length == 24 + n && crc32c (f.take (16 + n)) == numAt f (16 + n) 4

end Sys2Proof.Machine
end

