-- ==== Sys2Proof/Machine/Lace.lean ====
section
/-!
DEFINITION. The Lace link (R271-R301): lanes, frames and tokens sent, link-up and authentication, head memory, checks of
what a node sends, and quarantine.
-/

namespace Sys2Proof.Machine

/-! ## Port state -/

/-- The port of a bar, and its replacement. -/
def Dev.ls (d : Dev) (b : Nat) : LaceSt := mapGet {} d.lace b
def Dev.setLs (d : Dev) (b : Nat) (x : LaceSt) : Dev := { d with lace := mapSet {} d.lace b x }

/-- LACEb_STATUS.STATE: 0 DOWN, 1 TRAIN, 2 ECHO, 3 AUTH, 4 SETUP, 5 HEADMEM, 6 UP, 7 QUARANTINED. -/
def Dev.portState (d : Dev) (b : Nat) : Nat := d.rdF (Reg.LACE_STATUS b) 0 4
def Dev.setPortState (d : Dev) (b v : Nat) : Dev := d.wrF (Reg.LACE_STATUS b) 0 4 v
def Dev.laceUp (d : Dev) (b : Nat) : Bool := d.portState b == 6
def Dev.quarantined (d : Dev) (b : Nat) : Bool := d.portState b == 7

/-- Lanes of the port that are up, of those in use (LANE1_OFF). -/
def Dev.upLanes (d : Dev) (b : Nat) : List Nat :=
  (if d.cfB (Reg.LACE_CFG b) 1 then [0] else [0, 1]).filter (fun k => d.bit (Reg.LACE_STATUS b) (4 + k))

/-- Heads served, and heads present. -/
def Dev.rated (d : Dev) (b : Nat) : Nat := d.rd (Reg.LACE_HEADS_RATED b)
def Dev.present (d : Dev) (b : Nat) : Nat := d.rd (Reg.LACE_HEADS_PRESENT b)

/-- A field inhibit of the bar, and a local inhibit (R452). -/
def Dev.fieldInhibit (d : Dev) (b : Nat) : Bool := d.bit Reg.SAFE_STATUS 2 || d.bit Reg.SAFE_BAR_INHIBIT b
def Dev.localInhibit (d : Dev) (b : Nat) : Bool := d.bit Reg.SAFE_BAR_INHIBIT (8 + b)

/-- A change of a part makes a re-plan due (R149). -/
def Dev.partChanged (d : Dev) (cause : Nat) : Dev :=
  { d with job := { d.job with replanDue := Nat.lor d.job.replanDue cause } }

/-- An event of a port: the bar, the port, and what else it names. -/
def Dev.laceEvent (d : Dev) (ev : Ev) (b : Nat) (rest : List Nat) : Dev := d.event 1 ev (vals ([b, d.slot] ++ rest))

/-! ## Frames and tokens to the node (R273, R277-R281) -/

/-- A CONTROL or MGMT frame, on lane 0 while it is up and otherwise on lane 1 (R273): the next SEQ, and a tag once the session key
exists (R283, R284). -/
def Dev.laceSend (d : Dev) (b type kind : Nat) (body : List Byte) : Dev :=
  match d.upLanes b with
  | [] => d
  | lane :: _ =>
    let x := d.ls b
    let seq := x.txSeq + 1
    let tag := match x.key with
      | some k => aesCmac k (laceHead kind true body.length seq ++ body)
      | none => List.replicate 16 0
    (d.setLs b { x with txSeq := seq }).send (.lace b lane type kind seq x.key.isSome body tag)

/-- The lane of a head's LINE frame (R273). -/
def Dev.lineLane (d : Dev) (b h : Nat) : Nat :=
  match d.upLanes b with
  | [_, _] => h % 2
  | [k] => k
  | _ => 0

/-- LINE frames and tokens go to the node: the port is up, no local inhibit, and a SYNCING module has joined the bar
(R301, R415, R452). -/
def Dev.mayDrive (d : Dev) (b : Nat) : Bool :=
  d.laceUp b && d.inService && !d.localInhibit b && !d.syncing b

/-- Send one LINE frame; it is kept until its token has been sent (R277, R295). -/
def Dev.sendLine (d : Dev) (b : Nat) (k : KeptLine) (resent : Bool) : Dev :=
  let lane := d.lineLane b k.head
  let x := d.ls b
  let n := mapGet 0 x.laneSeq lane
  let d1 := d.setLs b { x with laneSeq := mapSet 0 x.laneSeq lane ((n + 1) % 0x100000000) }
  let d2 := d1.send (.line b k.head (b2n (d.masterOn b) + 2 * b2n resent) k.fine k.line (d.epochOn b) k.job lane n k.data)
  let r := d2.br b
  d2.setBr b { r with kept := r.kept ++ [{ k with lane := lane }] }

/-- A fire-permit token on every lane that is up (R279, R280). -/
def Dev.sendToken (d : Dev) (b fine period line blank : Nat) : Dev :=
  if d.upLanes b = [] then d
  else d.send (.token b (d.upLanes b) (b2n (d.masterOn b)) fine (satU 24 period) (line % 0x100000000) (d.epochOn b) blank)

/-- The LINE of an INHIBIT token (R281). -/
def Dev.inhibitLine (d : Dev) (b : Nat) : Nat :=
  if (d.bf b).job ≠ 0 then (d.bf b).next % 0x100000000
  else if (d.bf b).issuedEver = 0 then 0 else (d.rd (Reg.FIRE_BAR_LINE_LO b) + 1) % 0x100000000

/-- An INHIBIT token with a LINE (R281); a local inhibit sends none (R452). -/
def Dev.inhibitTokenAt (d : Dev) (b line : Nat) : Dev :=
  if (d.laceUp b ∨ d.quarantined b) ∧ d.localInhibit b = false ∧ d.upLanes b ≠ [] then
    d.send (.token b (d.upLanes b) (b2n (d.masterOn b) + 2) 0 0 (line % 0x100000000) (d.epochOn b) 0xFFFFFF)
  else d

/-- An INHIBIT token sent between lines. -/
def Dev.inhibitToken (d : Dev) (b : Nat) : Dev := d.inhibitTokenAt b (d.inhibitLine b)

/-- Drop the kept frames up to the line of a token (R295). -/
def Dev.dropKept (d : Dev) (b job line : Nat) : Dev :=
  let r := d.br b
  d.setBr b { r with kept := r.kept.filter (fun k => !(k.job == job && decide (k.line ≤ line))) }

/-! ## Quarantine and loss (R290, R291, R299, R301) -/

/-- The session ends and the node's buffers are void. -/
def Dev.endSession (d : Dev) (b : Nat) : Dev :=
  let x := d.ls b
  let y : LaceSt := { x with key := none, echoSent := none, chal := false, hmemReq := none, senseReq := none,
                             senseWait := none }
  (d.setLs b y).setBr b { d.br b with kept := [] }

/-- R301: quarantine for a cause: 1 AUTH, 2 TAG, 3 REPLAY, 4 FLOOD, 5 RANGE, 6 NONCONFORM. -/
def Dev.quarantine (d : Dev) (b cause : Nat) : Dev :=
  if d.quarantined b then d
  else
    let d1 := ((d.endSession b).portDown (12 + b)).setPortState b 7
    let d2 := d1.wrF (Reg.LACE_STATUS b) 12 4 cause
    let d3 := (d2.barLost b false).decision (d2.bf b).next b 0xFF 8 7 0
    (d3.laceEvent .laceQuarantine b [d3.rd64 (Reg.LACE_NODE_ID b 0), d3.rd64 (Reg.LACE_NODE_ID b 2), cause]).partChanged 8

/-- An impossible value (R298), and cause RANGE of R299. -/
def Dev.impossible (d : Dev) (b : Nat) : Dev :=
  let x := d.ls b
  let now := (d.bf b).issuedEver
  let es := now :: x.rangeErrs.filter (fun e => now < e + 65536)
  let d1 := (d.setLs b { x with rangeErrs := es }).bump (Reg.LACE_RANGE_ERR_COUNT b)
  if d1.cfF (Reg.LACE_CFG b) 8 8 ≤ es.length then d1.quarantine b 5 else d1

/-- R290: a link-up step fails. -/
def Dev.linkFail (d : Dev) (b step : Nat) : Dev :=
  let d1 := ((d.endSession b).setPortState b 0).wrF (Reg.LACE_STATUS b) 16 3 step
  let x := d1.ls b
  if x.downLogged then d1 else (d1.setLs b { x with downLogged := true }).laceEvent .laceDown b [step]

/-- A job is PRINTING on the bar. -/
def Dev.printingOn (d : Dev) (b : Nat) : Bool :=
  match d.findJob (d.bf b).job with | some j => j.phase == .printing | none => false

/-- R291: an UP port with both lanes down: the session is void and the bar is lost for its jobs; R429. -/
def Dev.portLost (d : Dev) (b : Nat) : Dev :=
  let d1 := (d.endSession b).setPortState b 0
  let d2 := (d1.barLost b true).decision (d1.bf b).next b 0xFF 9 8 0
  if d2.printingOn b then d2.printFault b (d2.bf b).next else d2

/-- Resend on the surviving lane what went on the lane that is down (R295). -/
def Dev.resendKept (d : Dev) (b lane : Nat) : Dev :=
  let r := d.br b
  let again := r.kept.filter (fun k => k.lane == lane)
  let d1 := d.setBr b { r with kept := r.kept.filter (fun k => k.lane != lane) }
  again.foldl (fun acc k => (acc.sendLine b k true).bump (Reg.LACE_RESEND_COUNT b)) d1

/-- Lane k of bar b goes down (R291, R295); with both down the bar is lost, whatever state its port is in (R151). -/
def Dev.laceLaneDown (d : Dev) (b k : Nat) : Dev :=
  if d.bit (Reg.LACE_STATUS b) (4 + k) then
    let used := (d.upLanes b).contains k
    let d1 := ((d.wrBit (Reg.LACE_STATUS b) (4 + k) false).wrBit Reg.PLACE_LACE_OK (2 * b + k) false).partChanged 8
    if used && (d1.laceUp b || d1.quarantined b) then
      let d2 := d1.laceEvent .laceLaneDown b [k]
      if d2.laceUp b = false then d2
      else if d2.upLanes b = [] then d2.portLost b
      else d2.resendKept b k
    else if used && d1.upLanes b == [] then
      let d2 := d1.barLost b true
      if d2.job = d1.job then d1 else d2.decision (d2.bf b).next b 0xFF 9 8 0
    else d1
  else d

/-- Lane k of bar b is up. -/
def Dev.laceLaneUp (d : Dev) (b k : Nat) : Dev :=
  if k = 1 ∧ d.cfB (Reg.LACE_CFG b) 1 then d
  else ((d.wrBit (Reg.LACE_STATUS b) (4 + k) true).wrBit Reg.PLACE_LACE_OK (2 * b + k) true).partChanged 64

/-! ## Link-up (R282, R286, R289-R292) -/

/-- Send an ECHO. -/
def Dev.sendEcho (d : Dev) (b : Nat) : Dev :=
  (d.setLs b { d.ls b with echoSent := some d.tc }).laceSend b 2 0x01 (leBytes 8 d.tc)

/-- R289: step 2 starts on a trained port of an enabled bar. -/
def Dev.opLinkUp (d : Dev) (b : Nat) : Dev :=
  if d.barEn b && d.portState b == 1 && d.upLanes b != [] then
    let x := d.ls b
    let y : LaceSt := { bucket := x.bucket, bucketAt := x.bucketAt, flooded := x.flooded, floodRun := x.floodRun,
                        downLogged := x.downLogged }
    (((d.setLs b y).setPortState b 2).wrF (Reg.LACE_STATUS b) 12 4 0).sendEcho b
  else d

/-- Sixteen random bytes. -/
def Dev.nonce (d : Dev) : List Byte × Dev :=
  ((List.range 4).flatMap (fun i => leBytes 4 (Config.freeWord (d.freeCtr + i)).toNat), { d with freeCtr := d.freeCtr + 4 })

/-- Send an AUTH_CHALLENGE. -/
def Dev.sendChallenge (d : Dev) (b : Nat) : Dev :=
  let r := d.nonce
  let d1 := r.2.setLs b { r.2.ls b with nm := r.1, chal := true }
  d1.laceSend b 2 0x02 (r.1 ++ leBytes 4 (d1.rd Reg.SAFE_KEY_ID) ++ leBytes 1 d1.slot ++ List.replicate 11 0)

/-- Step 3: without a key the port waits (R461). -/
def Dev.startAuth (d : Dev) (b : Nat) : Dev :=
  let d1 := d.setPortState b 3
  if d1.rd Reg.SAFE_KEY_ID = 0 then d1 else d1.sendChallenge b

/-- The end of step 2: the median of 16 latencies in ns / 4, their spread, and ALIGN (R282, R286). -/
def Dev.endEcho (d : Dev) (b : Nat) (es : List Int) : Dev :=
  let s := es.mergeSort (fun x y => decide (x ≤ y))
  let two := s.getD 7 0 + s.getD 8 0
  let ns := pubI ((two : Rat) / 8)
  if 80 < s.getD 15 0 - s.getD 0 0 ∨ 6000 < two then d.linkFail b 2
  else ((d.wrS (Reg.LACE_ONEWAY_NS b) ns).wrS (Reg.LACE_ALIGN_NS b) (1960 - ns)).startAuth b

/-- HEAD_T_STOP in 1/16 degC. -/
def Dev.tStop (d : Dev) : Int := sgn 16 (d.rdF Reg.SAFE_TEMP 16 16)

/-- The body of BAR_SETUP (R285, R289). -/
def Dev.setupBody (d : Dev) (b : Nat) : List Byte :=
  leBytes 4 2000 ++ leBytes 4 (d.rd (Reg.LACE_ALIGN_NS b)) ++ leBytes 2 (uns 16 (d.tStop + 32)) ++
    leBytes 2 (uns 16 (d.tStop - 80)) ++ leBytes 1 (d.cfF Reg.FIRE_CTRL 0 2) ++ leBytes 1 d.slot ++ leBytes 2 0

/-- R292: an AUTH_RESPONSE. -/
def Dev.authBody (d : Dev) (b : Nat) (f : List Byte) : Dev :=
  let x := d.ls b
  if d.portState b ≠ 3 ∨ x.chal = false then d.impossible b
  else
    let nn := f.take 16
    let id := (f.drop 16).take 16
    let port := leBytes 1 d.slot
    let tn := aesCmac d.safe.ki (leBytes 1 0x4E ++ x.nm ++ nn ++ id ++ port)
    let d1 := d.wrWords (Reg.LACE_NODE_ID b 0) (bytesWords id)
    if numAt f 48 4 ≠ d1.rd Reg.SAFE_KEY_ID ∨ (f.drop 32).take 16 ≠ tn then d1.quarantine b 1
    else
      let tm := aesCmac d.safe.ki (leBytes 1 0x4D ++ nn ++ x.nm ++ port)
      let ks := aesCmac d.safe.ki (leBytes 1 0x53 ++ x.nm ++ nn ++ port)
      let d2 := (d1.setLs b { x with chal := false }).laceSend b 2 0x03 tm
      let d3 := (d2.setLs b { d2.ls b with key := some ks }).setPortState b 4
      d3.laceSend b 2 0x04 (d3.setupBody b)

/-- R290, R299: a step does not complete in its time. -/
def Dev.opStepTimeout (d : Dev) (b : Nat) : Dev :=
  let s := d.portState b
  if s = 1 ∨ s = 2 ∨ s = 4 ∨ s = 5 then d.linkFail b s
  else if s = 3 ∧ (d.ls b).chal then
    let d1 := d.setLs b { d.ls b with authTries := (d.ls b).authTries + 1 }
    if 3 ≤ (d1.ls b).authTries then d1.quarantine b 1 else d1.sendChallenge b
  else d

/-- R290: a DOWN port of an enabled bar tries again from step 1. -/
def Dev.opLaceRetry (d : Dev) (b : Nat) : Dev := if d.barEn b && d.portState b == 0 then d.setPortState b 1 else d

/-! ## Head memory (R287, R288) -/

/-- A record checks: its last four bytes are the CRC-32C of the others. -/
def recordOk (m : List Byte) (at_ len : Nat) : Bool := crc32c ((m.drop at_).take (len - 4)) == numAt m (at_ + len - 4) 4

/-- The maximum frequency of a rated head; none when the head is not rated. -/
def headFmax (m : List Byte) : Option Nat :=
  let f := numAt m 0x44 4
  if recordOk m 0 64 && recordOk m 0x40 128 && numAt m 0 4 == 0x48444D31 && numAt m 0x42 2 == 4096 &&
      decide (1000 ≤ f ∧ f ≤ 200000) then some f else none

/-- The defect list; none when it fails its check. -/
def defectList (m : List Byte) : Option (List Nat) :=
  let n := numAt m 0x200 2
  let es := (List.range n).map (fun i => numAt m (0x204 + 2 * i) 2)
  if n ≤ 1024 && recordOk m 0x200 (8 + 2 * n) && es.all (fun e => decide (e < 4096)) then some es else none

/-- Rate one head whose memory has been read. -/
def Dev.rateHead (d : Dev) (b h : Nat) : Dev :=
  let m := mapGet [] (d.ls b).hmem h
  match headFmax m with
  | none => d.laceEvent .headRecordBad b [h]
  | some f =>
    let d1 := (d.wrBit (Reg.LACE_HEADS_RATED b) h true).wr (Reg.LACE_HEAD_FMAX b h) f
    if (defectList m).isNone then d1.laceEvent .headRecordBad b [h] else d1

/-- The defect lists of the rated heads enter the nozzle maps (R198). -/
def Dev.enterLists (d : Dev) (b : Nat) : Dev :=
  let d0 := d.setBb b { d.bb b with waitMaps := [] }
  (bitsOf 24 (d0.rated b)).foldl
    (fun acc h =>
      match defectList (mapGet [] (acc.ls b).hmem h) with
      | some ns => acc.buildMap b h (deadMap (acc.bank b 3 h (acc.activeBank b 3 h)) ns)
      | none => acc) d0

/-- Step 6: the port is up. -/
def Dev.portIsUp (d : Dev) (b : Nat) : Dev :=
  let d0 := (List.range 24).foldl (fun acc h => acc.wr (Reg.LACE_HEAD_FMAX b h) 0) (d.wr (Reg.LACE_HEADS_RATED b) 0)
  let d1 := (bitsOf 24 (d0.present b)).foldl (fun acc h => acc.rateHead b h) d0
  let d2 := ((d1.setPortState b 6).setLs b { d1.ls b with downLogged := false }).bump (Reg.LACE_LINKUP_COUNT b)
  ((d2.laceEvent .laceUp b []).enterLists b).partChanged 64

/-- The next HMEM_READ of step 5, or its end. -/
def Dev.nextRead (d : Dev) (b : Nat) : Dev :=
  let x := d.ls b
  match (bitsOf 24 (d.present b)).find? (fun h => decide ((mapGet [] x.hmem h).length < 8192)) with
  | none => d.portIsUp b
  | some h =>
    let a := (mapGet [] x.hmem h).length
    (d.setLs b { x with hmemReq := some (h, a, 256) }).laceSend b 3 0x20
      (leBytes 1 h ++ leBytes 1 0 ++ leBytes 2 a ++ leBytes 2 256 ++ leBytes 2 0)

/-- SETUP_ACK (R289, R299). -/
def Dev.setupAck (d : Dev) (b : Nat) (f : List Byte) : Dev :=
  if d.portState b ≠ 4 then d.impossible b
  else
    let d1 := (d.wr (Reg.LACE_HEADS_PRESENT b) (numAt f 0 4)).wr (Reg.LACE_BUF_LINES b) (numAt f 4 2)
    if numAt f 4 2 < 256 then d1.quarantine b 6 else (d1.setPortState b 5).nextRead b

/-- HMEM_DATA: it answers the outstanding request (R298). -/
def Dev.hmemData (d : Dev) (b : Nat) (f : List Byte) : Dev :=
  let x := d.ls b
  match x.hmemReq with
  | none => d.impossible b
  | some (h, a, n) =>
    let req := leBytes 1 h ++ leBytes 1 0 ++ leBytes 2 a ++ leBytes 2 n ++ leBytes 2 0
    if f.take 8 ≠ req ∨ f.length ≠ 8 + n then d.impossible b
    else
      (d.setLs b { x with hmemReq := none, hmem := mapSet [] x.hmem h (mapGet [] x.hmem h ++ f.drop 8) }).nextRead b

/-- ECHO_REPLY (R286). -/
def Dev.echoReply (d : Dev) (b : Nat) (f : List Byte) : Dev :=
  let x := d.ls b
  match x.echoSent with
  | none => d.impossible b
  | some t =>
    if d.portState b ≠ 2 ∨ numAt f 0 8 ≠ t % 2 ^ 64 then d.impossible b
    else
      let lat : Int := 5 * ((d.tc : Int) - (t : Int)) - 2 * (numAt f 8 4 : Int)
      let es := x.echoes ++ [lat]
      let d1 := d.setLs b { x with echoes := es, echoSent := none }
      if es.length < 16 then d1.sendEcho b else d1.endEcho b es

/-! ## Sense requests (R296, R297) -/

/-- Start a SENSE_REQ. -/
def Dev.startSense (d : Dev) (b h : Nat) : Dev :=
  let d1 := (d.setLs b { d.ls b with senseReq := some h, senseWait := none }).wrBit (Reg.LACE_SENSE_STAT b) 16 false
  (d1.wrBit (Reg.LACE_CTRL b) 1 false).laceSend b 3 0x21 (leBytes 1 h ++ List.replicate 7 0)

/-- SENSE_REQ: at most one request is outstanding on the port. -/
def Dev.opSenseReq (d : Dev) (b : Nat) : Dev :=
  let h := d.rdF (Reg.LACE_SENSE_HEAD b) 0 5
  let x := d.ls b
  if d.laceUp b = false then d
  else if x.senseReq.isSome || x.hmemReq.isSome then
    (d.setLs b { x with senseWait := some h }).wrBit (Reg.LACE_CTRL b) 1 true
  else d.startSense b h

/-- SENSE_DATA. -/
def Dev.senseData (d : Dev) (b : Nat) (f : List Byte) : Dev :=
  let x := d.ls b
  match x.senseReq with
  | none => d.impossible b
  | some h =>
    if byteAt f 0 ≠ h ∨ bitOf (d.present b) h = false then d.impossible b
    else
      let d1 := ((d.setLs b { x with senseReq := none }).wrWords (Reg.LACE_SENSE_DATA b 0) (bytesWords (f.drop 8))).publish
        (Reg.LACE_SENSE_STAT b)
      let d2 := d1.wrF (Reg.LACE_SENSE_STAT b) 17 5 h
      match x.senseWait with
      | some k => d2.startSense b k
      | none => d2

/-! ## Receiving (R284, R294, R298, R300) -/

/-- All bytes of a part of a body are 0. -/
def zeroAt (f : List Byte) (a n : Nat) : Bool := ((f.drop a).take n).all (fun x => x == 0)

/-- The reserved fields of a body are 0. -/
def bodyZero (kind : Nat) (f : List Byte) : Bool :=
  if kind = 0x81 then zeroAt f 12 4
  else if kind = 0x82 then zeroAt f 52 12
  else if kind = 0x84 then zeroAt f 3 1 && zeroAt f 6 10
  else if kind = 0x14 then zeroAt f 1 7
  else if kind = 0x10 then zeroAt f 59 5
  else if kind = 0x12 then
    zeroAt f 3 1 && zeroAt f 7 1 && decide (byteAt f 8 < 16) && decide (byteAt f 9 < 2) && zeroAt f 10 2 && zeroAt f 24 8
  else if kind = 0x30 then decide (byteAt f 1 < 8) && zeroAt f 2 2 && zeroAt f 25 3 && zeroAt f 40 8
  else true

/-- The body size of a kind; none where the request fixes it (HMEM_DATA). -/
def bodySize (kind : Nat) : Option Nat :=
  if kind = 0x81 ∨ kind = 0x84 then some 16
  else if kind = 0x82 ∨ kind = 0x10 then some 64
  else if kind = 0x14 then some 1032
  else if kind = 0x11 then some 56
  else if kind = 0x12 then some 32
  else if kind = 0x30 then some 48
  else none

/-- The token bucket: bring its level up to now (R300), in 1/16 bytes. -/
def Dev.refill (d : Dev) (b : Nat) : Dev :=
  let x := d.ls b
  d.setLs b { x with bucket := min 1048576 (x.bucket + 5 * (d.tc - x.bucketAt)), bucketAt := d.tc }

/-- The frame is accepted as far as its tag and SEQ go (R284, R299): the state after, and whether it is. -/
def Dev.tagSeq (d : Dev) (b : Nat) (f : List Byte) : Dev × Bool :=
  let x := d.ls b
  let n := numAt f 2 2
  let seq := numAt f 8 8
  let tagged := bitOf (byteAt f 1) 0
  let tag := (f.drop (16 + n)).take 16
  let fail := d.bump (Reg.LACE_TAG_FAIL_COUNT b)
  let bad := match x.key with | some k => !tagged || tag != aesCmac k (f.take (16 + n)) | none => tagged
  if bad then (if x.key.isSome then fail.quarantine b 2 else fail, false)
  else if seq ≤ x.rxSeq then (if x.key.isSome then fail.quarantine b 3 else fail, false)
  else (d.setLs b { x with rxSeq := seq, seqGaps := x.seqGaps + b2n (decide (x.rxSeq + 1 < seq)) }, true)

/-- FILL: each value is at most BUF_LINES. -/
def Dev.fillBody (b : Nat) (d : Dev) (f : List Byte) : Dev :=
  if d.portState b < 4 then d.impossible b
  else if (List.range 24).all (fun h => decide (numAt f (8 + 2 * h) 2 ≤ d.rd (Reg.LACE_BUF_LINES b))) then d
  else d.impossible b

/-- Heads that leave HEADS_PRESENT count as not fitted (R291). -/
def Dev.removeHeads (d : Dev) (b gone : Nat) : Dev :=
  let d1 := (bitsOf 24 gone).foldl
    (fun acc h =>
      let x := acc.ls b
      let y : LaceSt := { x with hasTemp := if bitOf x.hasTemp h then x.hasTemp - 2 ^ h else x.hasTemp }
      (((acc.setLs b y).wrBit (Reg.LACE_HEADS_RATED b) h false).wr (Reg.LACE_HEAD_FMAX b h) 0).laceEvent .headRemoved b
        [h]) d
  if gone = 0 then d1
  else
    let d2 := d1.partChanged 16
    if d2.rated b = 0 ∧ d.rated b ≠ 0 then (d2.barLost b true).decision (d2.bf b).next b 0xFF 9 8 0 else d2

/-- STATUS (R285, R291). -/
def Dev.statusFrame (b : Nat) (d : Dev) (f : List Byte) : Dev :=
  if d.portState b < 4 then d.impossible b
  else
    let hp := numAt f 0 4
    let gone := ((bitsOf 24 (d.present b)).filter (fun h => !bitOf hp h)).foldl (fun m h => m + 2 ^ h) 0
    let d1 := (d.removeHeads b gone).wr (Reg.LACE_HEADS_PRESENT b) hp
    let d2 := (d1.wrBit (Reg.LACE_STATUS b) 6 (byteAt f 8 != 0)).wrF (Reg.LACE_STATUS b) 7 1 (byteAt f 9)
    d2.wr (Reg.LACE_NODE_UNDERFLOW b) (numAt f 12 4)

/-- R299: a 100 us interval ends. -/
def Dev.opFlood (d : Dev) : Dev :=
  (List.range 8).foldl
    (fun acc b =>
      let x := acc.ls b
      let n := if x.flooded then x.floodRun + 1 else 0
      let d1 := acc.setLs b { x with flooded := false, floodRun := n }
      if 100 ≤ n then (d1.setLs b { d1.ls b with floodRun := 0 }).quarantine b 4 else d1) d

/-- R301: RELINK. -/
def Dev.opRelink (d : Dev) (b : Nat) : Dev :=
  if d.inHold then
    if d.quarantined b then
      let d1 := ((d.wrF (Reg.LACE_STATUS b) 12 4 0).setPortState b 1).portUp (12 + b)
      d1.setLs b { bucketAt := d1.tc }
    else d
  else d.laceEvent .laceRelinkRefused b []

/-! ## Meanings -/

/-- LACE_LINK_UP (R289). -/
def execLaceLinkUp (bar : Fin 8) (s : State) : Host.Outcome State Fault Refusal := s.withDev (s.dev.opLinkUp bar)

/-- LACE_STEP_TIMEOUT (R290, R299). -/
def execLaceStepTimeout (bar : Fin 8) (s : State) : Host.Outcome State Fault Refusal :=
  s.withDev (s.dev.opStepTimeout bar)

/-- LACE_RETRY (R290). -/
def execLaceRetry (bar : Fin 8) (s : State) : Host.Outcome State Fault Refusal := s.withDev (s.dev.opLaceRetry bar)

/-- FLOOD_INTERVAL (R299). -/
def execFloodInterval (s : State) : Host.Outcome State Fault Refusal := s.withDev s.dev.opFlood

/-- INHIBIT_TOKEN_REPEAT (R281). -/
def execInhibitTokenRepeat (bar : Fin 8) (s : State) : Host.Outcome State Fault Refusal :=
  s.withDev (if s.dev.fieldInhibit bar || s.dev.quarantined bar then s.dev.inhibitToken bar else s.dev)

/-- RELINK (R301). -/
def execRelink (bar : Fin 8) (s : State) : Host.Outcome State Fault Refusal := s.onWrite (fun d => d.opRelink bar)

/-- SENSE_REQ (R296, R297). -/
def execSenseReq (bar : Fin 8) (s : State) : Host.Outcome State Fault Refusal := s.onWrite (fun d => d.opSenseReq bar)

end Sys2Proof.Machine
end

