-- ==== Sys2Proof/Machine/Raster.lean ====
section
/-!
DEFINITION. The raster engines (R180-R205): columns and owners, tone, compensation, screening, routing, duty limiting,
packing, and the spare engine.
-/

namespace Sys2Proof.Machine

/-! ## Columns and owners (R184-R188) -/

/-- Columns of a bar. -/
def columns : Nat := 95360

/-- R186: the hash of a line index, a column and a seed. -/
def mix (n c seed : Nat) : Nat :=
  let m := 0x100000000
  let x0 := Nat.xor (Nat.xor (n % m * 0x9E3779B1 % m) (c * 0x85EBCA6B % m)) (seed % m)
  let x1 := Nat.xor x0 (x0 / 32768) * 0x2C1B3C6D % m
  Nat.xor x1 (x1 / 4096) / 65536

/-- Who prints a column on a line. -/
structure Owner where
  head : Nat
  nozzle : Nat
  /-- Compensation treats the column as dead. -/
  dead : Bool
  deriving DecidableEq, Repr

/-- R187: the owner of column c on line n; `dead` tells which nozzle of which head counts as DEAD. -/
def ownerOf (seed n : Nat) (dead : Nat → Nat → Bool) (c : Nat) : Owner :=
  let h := min (c / 3968) 23
  let k := c - 3968 * h
  if 0 < h ∧ k < 128 then
    let right := decide (mix n c seed < 512 * k + 256)
    let r : Owner := ⟨h, k, dead h k⟩
    let l : Owner := ⟨h - 1, k + 3968, dead (h - 1) (k + 3968)⟩
    if right then (if r.dead && !l.dead then l else r) else (if l.dead && !r.dead then r else l)
  else ⟨h, k, dead h k⟩

/-! ## Input (R153-R155, R182) -/

/-- The value of a column of a line: a drop code in P1 (code `p1` for a 1) and P2, a tone in contone. -/
def columnIn (mode p1 : Nat) (bs : Array Byte) (c : Nat) : Nat :=
  let at_ : Nat → Nat := fun i => (bs.getD i 0).toNat
  if mode = 1 then fld (at_ (c / 4)) (2 * (c % 4)) 2
  else if mode = 2 then (if bitOf (at_ (c / 8)) (c % 8) then p1 else 0)
  else if mode = 3 then at_ (c / 2)
  else at_ c

/-! ## Contone compensation and screening (R193-R196, R199) -/

/-- R199, stage 5: column c of tones z. -/
def compTone (w1 w2 : Nat) (own : Array Owner) (z : Array Nat) (c : Nat) : Nat :=
  let isDead : Nat → Bool := fun i => (own.getD i ⟨0, 0, false⟩).dead
  let from_ : Nat → Nat → Nat := fun i w => if isDead i then z.getD i 0 * w / 256 else 0
  if isDead c then 0
  else
    let left := (if 2 ≤ c then from_ (c - 2) w2 else 0) + (if 1 ≤ c then from_ (c - 1) w1 else 0)
    let right := (if c + 1 < columns then from_ (c + 1) w1 else 0) + (if c + 2 < columns then from_ (c + 2) w2 else 0)
    min 4095 (z.getD c 0 + left + right)

/-- R194: TA screening of one column: the set's offsets across and along the web, its table. -/
def screenTa (dx dy : Nat) (set : Array Byte) (n c z : Nat) : Nat :=
  let x := (c + dx) % 256
  let y := (n + dy) % 256
  if threshold set 262208 x y < z then 3
  else if threshold set 131136 x y < z then 2
  else if threshold set 64 x y < z then 1
  else 0

/-- The ED parameters of a screen set (R193). -/
structure EdSet where
  w1 : Nat
  w2 : Nat
  w3 : Nat
  seed : Nat
  noise : Nat
  l1 : Nat
  l2 : Nat
  deriving DecidableEq, Repr

/-- The parameters of a set. -/
def edSet (s : List Byte) : EdSet :=
  ⟨scrFld s 5 1 3, scrFld s 6 1 5, scrFld s 7 1 1, scrFld s 8 4 0, scrFld s 12 1 0, scrFld s 14 2 1365, scrFld s 16 2 2730⟩

/-- First column of segment h, and the one past its last (R195). -/
def segFrom (h : Nat) : Nat := if h = 0 then 0 else 3968 * h + 64
def segTo (h : Nat) : Nat := if h = 23 then columns else segFrom (h + 1)

/-- The columns of segment h's error rows: the first, and the one past the last. -/
def rowFrom (h : Nat) : Nat := segFrom h - 64
def rowTo (h : Nat) : Nat := min columns (segTo h + 64)

/-- Add to a column of an error row, clamped; outside the row the error is discarded. -/
def addErr (lo : Nat) (row : Array Int) (c : Int) (p : Int) : Array Int :=
  let i := (c - (lo : Int))
  if i < 0 then row
  else row.setIfInBounds i.toNat (max (-8191) (min 8191 (row.getD i.toNat 0 + p)))

/-- What ED carries along a line: the carry, the next error row, the codes so far. -/
structure EdRun where
  carry : Int
  next : Array Int
  codes : List (Nat × Nat)

/-- R195: one column of a segment in direction `fwd`. -/
def edColumn (e : EdSet) (n : Nat) (fwd : Bool) (h : Nat) (dead : Nat → Bool) (z : Array Nat) (cur : Array Int) (r : EdRun)
    (c : Nat) : EdRun :=
  let lo := rowFrom h
  let u : Int := (z.getD c 0 : Int) + r.carry + cur.getD (c - lo) 0
  let q : Int := ((mix n c e.seed * (2 * e.noise + 1) / 65536 : Nat) : Int) - (e.noise : Int)
  let m1 : Int := ((e.l1 / 2 : Nat) : Int)
  let m2 : Int := (((e.l1 + e.l2) / 2 : Nat) : Int)
  let m3 : Int := (((e.l2 + 4095) / 2 : Nat) : Int)
  let code := if dead c then 0 else if m3 + q < u then 3 else if m2 + q < u then 2 else if m1 + q < u then 1 else 0
  let lev : Int := if code = 3 then 4095 else if code = 2 then (e.l2 : Int) else if code = 1 then (e.l1 : Int) else 0
  let err := u - lev
  let p1 := err * (e.w1 : Int) / 16
  let p2 := err * (e.w2 : Int) / 16
  let p3 := err * (e.w3 : Int) / 16
  let dir : Int := if fwd then 1 else -1
  let n1 := addErr lo r.next ((c : Int) - dir) p1
  let n2 := addErr lo n1 (c : Int) p2
  let n3 := addErr lo n2 ((c : Int) + dir) p3
  let inSpan := decide (segFrom h ≤ c ∧ c < segTo h)
  { carry := max (-8191) (min 8191 (err - p1 - p2 - p3)), next := n3, codes := if inSpan then (c, code) :: r.codes else r.codes }

/-- R195: a segment's line: its codes by column, and its next error row. -/
def edSegment (e : EdSet) (n h : Nat) (dead : Nat → Bool) (z : Array Nat) (row : List Int) : List (Nat × Nat) × List Int :=
  let fwd := n % 2 = 0
  let lo := if fwd then rowFrom h else segFrom h
  let hi := if fwd then segTo h else rowTo h
  let cols := (List.range (hi - lo)).map (fun i => if fwd then lo + i else hi - 1 - i)
  let width := rowTo h - rowFrom h
  let r := cols.foldl (edColumn e n fwd h dead z row.toArray) ⟨0, (List.replicate width 0).toArray, []⟩
  let next := r.next.toList
  ((if fwd then r.codes.reverse else r.codes), if next.all (fun x => x == 0) then [] else next)

/-! ## Prescreened compensation (R199, stage 7) -/

/-- A dead column's drop moves to a neighbour: the codes after, and the drops lost. -/
def moveDrop (n : Nat) (dead : Nat → Bool) (x : Array Nat × Nat) (c : Nat) : Array Nat × Nat :=
  let d := x.1.getD c 0
  if dead c = false ∨ d = 0 then x
  else
    let a := x.1.setIfInBounds c 0
    let left := if c = 0 ∨ dead (c - 1) then none else some (c - 1)
    let right := if columns ≤ c + 1 ∨ dead (c + 1) then none else some (c + 1)
    let target := if n % 2 = 0 then (match left with | some t => some t | none => right)
      else (match right with | some t => some t | none => left)
    match target with
    | none => (a, x.2 + 1)
    | some t =>
      let old := a.getD t 0
      if old = 0 then (a.setIfInBounds t d, x.2)
      else if old < 3 then (a.setIfInBounds t (old + 1), x.2)
      else (a, x.2 + 1)

/-! ## Stages 1 to 8 of a line -/

/-- What stages 1 to 8 use beside the line's data. -/
structure LineIn where
  mode : Nat
  /-- Bar line index of the line in its job. -/
  line : Nat
  p1 : Nat
  seed : Nat
  /-- REb_SCREEN and REb_DNC. -/
  screen : Nat
  dnc : Nat
  tone : List Byte
  set : List Byte
  maps : NMap (List Byte)
  /-- Heads that count as DEAD at every nozzle. -/
  deadHeads : Nat
  ed : NMap (List Int)

/-- What they yield: codes of the 4,096 nozzles of each head, the error rows, the drops lost. -/
structure LineOut where
  heads : NMap (List Nat)
  ed : NMap (List Int)
  lost : Nat

/-- The owners of every column. -/
def LineIn.owners (x : LineIn) : Array Owner :=
  let dead : Nat → Nat → Bool := fun h n => bitOf x.deadHeads h || mapState (mapGet [] x.maps h) n == 2
  ((List.range columns).map (ownerOf x.seed x.line dead)).toArray

/-- Compensation is enabled. -/
def LineIn.comp (x : LineIn) : Bool := bitOf x.dnc 16

/-- Stages 4 to 6 of a contone line (R190, R194, R195, R199). -/
def contoneCodes (x : LineIn) (own : Array Owner) (bs : Array Byte) : Array Nat × NMap (List Int) :=
  let o : Nat → Owner := fun c => own.getD c ⟨0, 0, false⟩
  let tone := x.tone.toArray
  let set := x.set.toArray
  let z4 := ((List.range columns).map (fun c => toneOf tone (o c).head (o c).nozzle (columnIn x.mode x.p1 bs c))).toArray
  let z5 := if x.comp then ((List.range columns).map (compTone (fld x.dnc 0 8) (fld x.dnc 8 8) own z4)).toArray else z4
  if fld x.screen 0 2 = 2 then
    let segs := (List.range 24).map
      (fun h => (h, edSegment (edSet x.set) x.line h (fun c => x.comp && (o c).dead) z5 (mapGet [] x.ed h)))
    ((segs.flatMap (fun r => r.2.1.map Prod.snd)).toArray,
     segs.foldl (fun m r => mapSet [] m r.1 r.2.2) [])
  else (((List.range columns).map (fun c => screenTa (scrFld x.set 0 2 0) (scrFld x.set 2 2 0) set x.line c (z5.getD c 0))).toArray, x.ed)

/-- Stages 1 to 8. -/
def lineCodes (x : LineIn) (data : List Byte) : LineOut :=
  let bs := data.toArray
  let own := x.owners
  let o : Nat → Owner := fun c => own.getD c ⟨0, 0, false⟩
  let pre := decide (x.mode ≤ 2)
  let raw := if pre then ((List.range columns).map (columnIn x.mode x.p1 bs)).toArray else #[]
  let s67 : (Array Nat × Nat) × NMap (List Int) :=
    if pre then
      (if x.comp then (List.range columns).foldl (moveDrop x.line (fun c => (o c).dead)) (raw, 0) else (raw, 0), x.ed)
    else
      let r := contoneCodes x own bs
      ((r.1, 0), r.2)
  let route : Nat → List Nat := fun h =>
    (List.range 4096).map (fun k =>
      let c := 3968 * h + k
      if (o c).head = h then s67.1.1.getD c 0 else 0)
  let heads := (List.range 24).foldl
    (fun m h => let l := route h; mapSet [] m h (if l.all (fun v => v == 0) then [] else l)) []
  { heads := heads, ed := s67.2, lost := s67.1.2 }

/-! ## The front half of the pipeline (R147, R180, R181, R196) -/

/-- Bar lines of a job; none for an endless repeat job (R146). -/
def Job.total (j : Job) : Option Nat :=
  if j.rep && j.cyclic then (if j.cycles = 0 then none else some (j.lines * j.cycles)) else some j.lines

/-- A line index lies within the job. -/
def Job.has (j : Job) (l : Nat) : Bool := match j.total with | some t => decide (l < t) | none => true

/-- The line lies beyond the end of a short plane (R136). -/
def Dev.pastEnd (d : Dev) (j : Job) (b l : Nat) : Bool :=
  let p := d.plane j.id b
  p.lastSeen && decide (p.nextLine ≤ l % j.lines)

/-- The line's data as the ring gives it; none while it is not decoded. -/
def Dev.ringLine (d : Dev) (j : Job) (b l : Nat) : Option LineData :=
  match mapGet (.blank 0) (d.plane j.id b).lines l with
  | .blank 0 => if d.pastEnd j b l then some (.blank 0) else none
  | x => some x

/-- Heads that count as DEAD at every nozzle (R187): not rated, quarantined or known as blanked. -/
def Dev.deadHeads (d : Dev) (b : Nat) : Nat :=
  if d.quarantined b then 0xFFFFFF
  else Nat.lor (d.bf b).dead (0xFFFFFF - d.rated b % 0x1000000)

/-- A job's bar has been lost (R151, R301): the cause of its ranges. -/
def Dev.lostCause (d : Dev) (j : Job) (b : Nat) : Option Nat :=
  if j.lostBars.contains b then some (if d.quarantined b then 7 else 8) else none

/-- Stage 3 begins line n: the heads it takes as DEAD for their temperature are kept for the line's defect ranges (R262, R269). -/
def Dev.noteDead (d : Dev) (b n : Nat) : Dev :=
  let r := d.br b
  d.setBr b { r with deadAt := mapSet 0 r.deadAt n (d.bf b).dead }

/-- What stages 1 to 8 use for line n of the bar, which is line l of job j. -/
def Dev.lineIn (d : Dev) (b n l : Nat) (j : Job) (reset : Bool) : LineIn :=
  { mode := j.mode, line := l, p1 := d.cfF Reg.DFL_P1_DROP (2 * b) 2, seed := d.cf (Reg.RE_WELT_SEED b),
    screen := d.cf (Reg.RE_SCREEN b), dnc := d.cf (Reg.RE_DNC b), tone := d.bank b 1 0 (d.bankFor b n 1 0),
    set := d.bank b 2 0 (d.bankFor b n 2 0),
    maps := (List.range 24).foldl (fun m h => mapSet [] m h (d.bank b 3 h (d.bankFor b n 3 h))) [],
    deadHeads := d.deadHeads b, ed := if reset then [] else (d.br b).ed }

/-- A line enters the pipeline blank, with the cause of its defect range (R196). -/
def Dev.frontBlank (d : Dev) (b n : Nat) (cause : Option Nat) : Dev :=
  let r := d.br b
  let d1 := d.setBr b { r with front := n + 1, mid := r.mid ++ [⟨n, []⟩], edReset := true,
                               blanks := mapSet none r.blanks n cause }
  d1.noteDead b n

/-- Item 7 of a resynchronisation: the error rows entering a line (R438). -/
def edItem (r : BarRast) : List Byte := encInts ((b2n r.edReset : Nat) :: encRows r.ed)

/-- Item 8: nozzle credits and the energy history entering a line. -/
def dutyItem (r : BarRast) : List Byte :=
  encInts ((r.dutyLines : Int) :: (encRows (r.credit.map (fun x => (x.1, x.2.map Int.ofNat))) ++
    encRows (r.energy.map (fun x => (x.1, x.2.flatMap (fun y => [(y.1 : Int), (y.2 : Int)]))))))

/-- Stages 1 to 8 of the next line of the bar. -/
def Dev.opFront (d0 : Dev) (b : Nat) : Dev :=
  let r := d0.br b
  let n := r.front
  match d0.lineJob b n with
  | none => d0
  | some (j, l) =>
    let d := if d0.itemDue b 7 l then d0.sendItem b 7 (edItem r) else d0
    if d.inService = false ∨ d.hasEngine b = false ∨ j.has l = false ∨ (d.bf b).next + 1024 ≤ n ∨
        r.handed + ringLines j.mode ≤ n ∨ d.awaits b 7 then d
    else if mapGet none r.blanks n ≠ none then d.frontBlank b n (mapGet none r.blanks n)
    else if (d.lostCause j b).isSome then d.frontBlank b n (some 0)
    else
      match d.ringLine j b l with
      | none => d
      | some (.blank k) => d.frontBlank b n (some k)
      | some (.data bs) =>
        let contone := decide (3 ≤ j.mode)
        let o := lineCodes (d.lineIn b n l j (r.edReset || l == 0 || d.screenAt b n)) bs
        let d1 := d.setBr b { r with front := n + 1, mid := r.mid ++ [⟨n, o.heads⟩], ed := o.ed, edReset := !contone }
        (d1.bumpBy (Reg.RE_DNC_LOST b) o.lost).noteDead b n

/-! ## Duty limiting (R200-R202) -/

/-- R200: the credits of a head at a line tick. -/
def tickCredit (w m k : Nat) (cs : List Nat) : List Nat :=
  (if cs = [] then List.replicate 4096 0 else cs).map (fun c => min w (c + m * k))

/-- R200: fire what the credits allow: codes and credits after. -/
def spendCredit (w : Nat) (codes cs : List Nat) : List (Nat × Nat) :=
  List.zipWith (fun v c => if v = 0 then (0, c) else if w ≤ c then (v, c - w) else (0, c)) codes cs

/-- R201: a pass over nozzles in order reduces drops of one code by 1, at most `left` of them. -/
def dutyPass (code : Nat) : Nat → List Nat → List Nat
  | _, [] => []
  | 0, vs => vs
  | left + 1, v :: vs => if v = code then (v - 1) :: dutyPass code left vs else v :: dutyPass code (left + 1) vs

/-- R201: passes in turn until the energy is at most the allowance: codes, removed, demoted. -/
def dutyPasses (allow : Nat) : List Nat → List Nat × Nat × Nat → List Nat × Nat × Nat
  | [], x => x
  | code :: rest, x =>
    let vs := dutyPass code (x.1.sum - allow) x.1
    let cut := x.1.sum - vs.sum
    dutyPasses allow rest (vs, if code = 1 then (x.2.1 + cut, x.2.2) else (x.2.1, x.2.2 + cut))

/-- R201: limit a head's line: passes start at nozzle s. -/
def limitHead (allow s : Nat) (vs : List Nat) : List Nat × Nat × Nat :=
  let r := dutyPasses allow [1, 2, 3, 1, 2, 3, 1, 2, 3] (vs.drop s ++ vs.take s, 0, 0)
  (r.1.drop (4096 - s) ++ r.1.take (4096 - s), r.2)

/-- Heads derated at line n of the bar, and heads blanked (R261, R262). -/
def Dev.deratedAt (d : Dev) (b n : Nat) : Nat := headsAt (d.bf b).derate (d.bf b).derateChg n
def Dev.blankedAt (d : Dev) (b n : Nat) : Nat := headsAt (d.bf b).blank (d.bf b).blankChg n

/-- Energy of a head over the counted lines t - w + 1 to t - 1. -/
def windowEnergy (w t : Nat) (es : List (Nat × Nat)) : Nat :=
  ((es.filter (fun e => decide (t < e.1 + w ∧ e.1 < t))).map Prod.snd).sum

/-- Stage 9 of one head for a line with codes `vs` ([] for none), derated or not: codes after, and the state. -/
def Dev.dutyHead (d : Dev) (b h l : Nat) (derated : Bool) (vs : List Nat) : List Nat × Dev :=
  let w := d.rd Reg.SAFE_NOZ_W
  let cs := tickCredit w (d.rd Reg.SAFE_NOZ_M) 1 (mapGet [] (d.br b).credit h)
  let t := (d.br b).dutyLines
  let p := spendCredit w (if vs = [] then List.replicate 4096 0 else vs) cs
  let fired := p.map Prod.fst
  let es := mapGet [] (d.br b).energy h
  let full := d.rd Reg.SAFE_HEAD_E
  let lim := if derated then full * d.rdF Reg.SAFE_LIMITS 0 8 / 100 else full
  let r := limitHead (lim - windowEnergy (d.rd Reg.SAFE_HEAD_W) t es) (61 * l % 4096) fired
  let cut := (vs.filter (fun v => v ≠ 0)).length - (fired.filter (fun v => v ≠ 0)).length
  let e := r.1.sum
  let es' := (if e = 0 then es else (t, e) :: es).filter (fun x => decide (t < x.1 + 65536))
  let x := d.br b
  let d1 := d.setBr b { x with credit := mapSet [] x.credit h (p.map Prod.snd), energy := mapSet [] x.energy h es' }
  ((if e = 0 then [] else r.1), (d1.bumpBy (Reg.RE_HEAD_REMOVED b h) (cut + r.2.1)).bumpBy (Reg.RE_HEAD_DEMOTED b h) r.2.2)

/-- Stage 9 of a line: every head in turn. -/
def Dev.dutyLine (d : Dev) (b n l : Nat) (heads : NMap (List Nat)) : NMap (List Nat) × Dev :=
  let x := d.br b
  let d0 := d.setBr b { x with dutyLines := x.dutyLines + 1 }
  let der := d.deratedAt b n
  (List.range 24).foldl
    (fun acc h =>
      let r := acc.2.dutyHead b h l (bitOf der h) (mapGet [] heads h)
      (mapSet [] acc.1 h r.1, r.2)) ([], d0)

/-- Stage 9 counts `k` lines that print blank: credits grow, no energy (R200). -/
def Dev.dutyBlank (d : Dev) (b k : Nat) : Dev :=
  let x := d.br b
  let w := d.rd Reg.SAFE_NOZ_W
  let m := d.rd Reg.SAFE_NOZ_M
  d.setBr b { x with dutyLines := x.dutyLines + k,
                     credit := (List.range 24).foldl
                       (fun acc h => mapSet [] acc h (tickCredit w m k (mapGet [] x.credit h))) ([] : NMap (List Nat)) }

/-! ## Packing and the framer (R180, R185, R249, R253, R254, R262, R278) -/

/-- The 1,024 bytes of a head line (R185). -/
def packHead : List Nat → List Byte
  | a :: b :: c :: e :: r => packFour a b c e :: packHead r
  | _ => []

/-- The head line of codes; [] packs to zeros. -/
def headLine (vs : List Nat) : List Byte := if vs = [] then List.replicate 1024 0 else packHead vs

/-- The trim target in force for line n: the last BAR_PHASE record at or before it, else the one shown (R253). -/
def Dev.trimTarget (d : Dev) (b n : Nat) : Int :=
  let cs := (d.pendOn b).filterMap (fun p =>
    match d.absLine b p.cp with
    | some l => if l ≤ n ∧ p.cp.kind = 2 then some (l, p.cp) else none
    | none => none)
  match cs with
  | [] => d.rdS (Reg.FIRE_BAR_TRIM_TARGET b)
  | c :: rest => sgn 32 (rest.foldl laterOf c).2.arg

/-- One step of a slew. -/
def slew (t target : Int) : Int := if t < target then t + 1 else if target < t then t - 1 else t

/-- The trim of the line k lines after the last one issued (R254): the trim in force for k = 0. -/
def Dev.trimIn (d : Dev) (b : Nat) : Nat → Int
  | 0 => d.rdS (Reg.FIRE_BAR_TRIM b)
  | k + 1 => slew (d.trimIn b k) (d.trimTarget b ((d.bf b).next + k))

/-- The bar offset at line n, not yet issued. -/
def Dev.omegaAt (d : Dev) (b n : Nat) : Int := d.baseOmega b + d.trimIn b (n + 1 - (d.bf b).next)

/-- The decoded lines of a bar up to line n leave the ring (R181); the lines that take their places may make a chain of the window
whole (R145). -/
def Dev.dropRing (d : Dev) (b n : Nat) : Dev :=
  match d.lineJob b n with
  | none => d
  | some (j, l) =>
    let p := d.plane j.id b
    let d1 := d.setPlane j.id b { p with lines := p.lines.filter (fun x => decide (l < x.1)) }
    (d1.freeChains j b false).kick j.id b

/-- The line digest of a line whose token blanks heads (R427). -/
def digestOf (crcs : List (Nat × Nat)) (blank : Nat) : Nat :=
  crc32c (crcs.flatMap (fun x => leBytes 4 (if bitOf blank x.1 then crc32c (List.replicate 1024 0) else x.2)))

/-- R439: a resynchronising bar joins at the first line from its resync line on that is handed on in time. -/
def Dev.joinAt (d : Dev) (b n l : Nat) : Dev :=
  if d.syncing b && decide (mapGet 0 d.pair.resync b ≤ l ∧ (d.bf b).next + 1 ≤ n) then
    let d1 : Dev := { d with pair := { d.pair with joined := d.pair.joined + 2 ^ b } }
    d1.wr64 (Reg.PAIR_BAR_JOIN_LO b) l
  else d

/-- Stages 9 and 10 of the oldest line between the halves. -/
def Dev.opBack (d0 : Dev) (b : Nat) : Dev :=
  match (d0.br b).mid with
  | [] => d0
  | m :: rest =>
    let n := m.line
    match d0.lineJob b n with
    | none => d0
    | some (j, l) =>
      let d := if d0.itemDue b 8 l then d0.sendItem b 8 (dutyItem (d0.br b)) else d0
      let next := (d.bf b).next
      if d.inService = false ∨ d.hasEngine b = false ∨ next + 4 ≤ n ∨ (n < next ∧ d.syncing b = false) ∨ d.awaits b 8 then d
      else
        let late := decide (mapGet none (d.br b).blanks n = some 5)
        let q := d.dutyLine b n l (if late then [] else m.heads)
        let lines := (bitsOf 24 (d.rated b)).map (fun h => (h, headLine (mapGet [] q.1 h)))
        let r := q.2.br b
        let d1 := q.2.setBr b { r with mid := rest, handed := n + 1,
                                       out := mapSet [] r.out n (lines.map (fun x => (x.1, crc32c x.2))) }
        let d2 := ((d1.wr (Reg.RE_LINE b) n).dropRing b n).joinAt b n l
        if d2.mayDrive b then
          let blank := d2.blankedAt b n
          let fine := (d2.omegaAt b n % 64).toNat
          lines.foldl
            (fun acc x =>
              acc.sendLine b ⟨j.id, l, x.1, fine, 0, if bitOf blank x.1 then List.replicate 1024 0 else x.2⟩ false) d2
        else d2

/-! ## The spare engine (R202, R205) -/

/-- RE8 restarts the bar at its hand-over line. -/
def Dev.handOver (d : Dev) (b : Nat) : Dev :=
  let r := d.br b
  let d1 := (d.giveRe8 b).loadCopies b
  d1.setBr b { r with front := r.handed, mid := [], ed := [], edReset := true, credit := [], energy := [],
                      blanks := r.blanks.filter (fun x => decide (x.1 < r.handed) || x.2 == some 5) }

/-- The cause of an engine's failure in its registers. -/
def Dev.markEngine (d : Dev) (e cause : Nat) : Dev := (d.wr (Reg.RE_STATUS e) 0x1F).wr (Reg.RE_FAULT_INFO e) (cause + 1)

/-- The bar that an engine serves. -/
def Dev.servedBy (d : Dev) (e : Nat) : Option Nat :=
  (List.range 8).find? (fun b => d.rdF Reg.PLACE_RE_MAP (4 * b) 4 == e)

/-- The watchdog acts only while the bar that the engine serves prints (R205). -/
def Dev.engineCan (d : Dev) (e cause : Nat) : Bool :=
  !d.bit (Reg.RE_STATUS e) 4 && (cause != 0 || (match d.servedBy e with | some b => d.printingOn b | none => false))

/-- R205: engine e fails; the event reports the map of the engines as the failure leaves it. -/
def Dev.opEngineFault (d : Dev) (e cause : Nat) : Dev :=
  if d.engineCan e cause = false then d
  else
    let d0 := d.markEngine e cause
    let log : Dev → Dev := fun x => (x.event 1 .engineFault (vals [e, cause + 1])).partChanged 4
    match d.servedBy e with
    | none => log d0
    | some b =>
      let spare := d0.re8Free && e != 8
      let d1 := log (if spare then d0.handOver b else d0.wrF Reg.PLACE_RE_MAP (4 * b) 4 0xF)
      let d2 := if spare then d1 else (d1.barLost b true).decision (d1.bf b).next b 0xFF 9 8 0
      if d2.printingOn b then d2.printFault b (d2.bf b).next else d2

/-! ## Meanings -/

/-- RASTER_LINE (R180-R205). -/
def execRasterLine (bar : Fin 8) (part : RasterPart) (s : State) : Host.Outcome State Fault Refusal :=
  match part with
  | .front => s.withDev (s.dev.opFront bar)
  | .back => s.withDev (s.dev.opBack bar)

/-- ENGINE_FAULT (R202, R205). -/
def execEngineFault (engine : Fin 9) (cause : Fin 3) (s : State) : Host.Outcome State Fault Refusal :=
  s.withDev (s.dev.opEngineFault engine cause)

end Sys2Proof.Machine
end

