-- ==== Sys2Proof/Machine/Fire.lean ====
section
/-!
DEFINITION. Line timing and firing (R246-R270): the grid, line ticks, trims, skips and overspeed, head temperatures,
defect ranges, and the observer update with the reactions that hang on it.
-/

namespace Sys2Proof.Machine

/-! ## The grid (R247, R248) -/

/-- Grid phase of a job with origin x0 (2^-16 um) at position x (um), in 1/64 line pitches (R247). -/
def gridPhase (x x0 : Rat) (dpi : Nat) : Int := ((x * 65536 - x0) * ((64 * dpi : Nat) : Rat) / 1664614400).floor

/-- The grid origin of a job is set: ticks already reached are not issued, but tick 0 is when the origin is the present
position (`here`); the STANDBY gets the origin in a JOB frame (R247, R248, R421). -/
def Dev.setOrigin (d : Dev) (id : Nat) (x0 : Rat) (here : Bool) : Dev :=
  match d.findJob id with
  | none => d
  | some j =>
    let ph := gridPhase (d.xAt d.tc) x0 (dpiOf j.pitch)
    let next := if here || decide (ph < 0) then 0 else ph.toNat / 64 + 1
    let d1 := d.modJob id (fun k => { k with x0 := some x0, startTime := none, nextTick := next })
    if d1.role = 1 then d1.shank 8 (leBytes 4 id ++ leBytes 4 0 ++ leBytes 8 (uns 64 (pubI x0))) else d1

/-- Give the idle bars of a job to it. -/
def Dev.takeBars (d : Dev) (j : Job) : Dev :=
  j.barList.foldl (fun acc b => if (acc.bf b).job = 0 then acc.setBf b { acc.bf b with job := j.id, next := 0 } else acc) d

/-- The tick that is due for a job: the last one the phase has reached, when it has not been issued (R248, R256). -/
def Dev.dueTick (d : Dev) (j : Job) : Option Nat :=
  match j.x0 with
  | none => none
  | some x0 =>
    let k := gridPhase (d.xAt d.tc) x0 (dpiOf j.pitch) / 64
    if (j.nextTick : Int) ≤ k ∧ d.lost = false ∧ d.inService ∧ j.active then some k.toNat else none

/-! ## Defect ranges of a bar (R266, R268, R269) -/

/-- A line of a bar is affected by a cause on all heads: its range opens or goes on, and the ranges whose run ends here
close. -/
def Dev.markBar (d : Dev) (b job line : Nat) (cause : Option Nat) : Dev :=
  let ends : Rng → Bool := fun r =>
    r.bar == b && r.job == job && decide (3 < r.cause ∧ cause ≠ some r.cause) ||
      (r.bar == b && r.cause == 3 && cause == some 4)
  let d1 := d.closeRanges ends
  match cause with
  | none => d1
  | some c =>
    let mine : Rng → Bool := fun r => r.bar == b && r.job == job && r.cause == c
    let ext : Rng → Rng := fun r => if mine r then { r with last := line, count := r.count + 1, clean := 0 } else r
    let new : Rng := { job := job, bar := b, head := 0xFF, cause := c, first := line, last := line, count := 1 }
    let rs := if d1.fire.ranges.any mine then d1.fire.ranges.map ext else d1.fire.ranges ++ [new]
    { d1 with fire := { d1.fire with ranges := rs } }

/-- A line fired without a skip: a SKIPPED range closes after 1,024 of them. -/
def Dev.cleanLine (d : Dev) (b : Nat) : Dev :=
  let f : Rng → Rng := fun r => if r.bar = b ∧ r.cause = 3 then { r with clean := r.clean + 1 } else r
  let d1 : Dev := { d with fire := { d.fire with ranges := d.fire.ranges.map f } }
  d1.closeRanges (fun r => r.bar == b && r.cause == 3 && decide (1024 ≤ r.clean))

/-- Heads that print nothing at line n for their temperature: those the token blanks, and those stage 3 took as DEAD when it began the
line, which is not routed to them (R262). -/
def Dev.stoppedAt (d : Dev) (b n : Nat) : Nat :=
  let r := d.br b
  Nat.lor (d.blankedAt b n) (if n < r.front then mapGet 0 r.deadAt n else (d.bf b).dead)

/-- The temperature ranges of a bar at a line: those of stopped heads open or go on where nothing of a higher order prevents the line
(R266), and a range closes at the line before the first one routed to its head again (R269). -/
def Dev.markHeads (d : Dev) (b job line stopped : Nat) (affected : Bool) : Dev :=
  let mine : Rng → Bool := fun r => r.bar == b && r.job == job && decide (r.cause ≤ 2)
  let ends : Rng → Bool := fun r => mine r && !bitOf stopped r.head
  let ext : Rng → Rng := fun r =>
    if ends r then { r with last := max r.last (line - 1) }
    else if mine r && affected then { r with last := line, count := r.count + 1 } else r
  let fresh := (bitsOf 24 stopped).filter (fun h => !d.fire.ranges.any (fun r => mine r && r.head == h))
  let new : Nat → Rng := fun h =>
    { job := job, bar := b, head := h, cause := if bitOf (d.bf b).stale h then 2 else 1, first := line, last := line, count := 1 }
  let rs := d.fire.ranges.map ext ++ (if affected then fresh.map new else [])
  let d1 : Dev := { d with fire := { d.fire with ranges := rs } }
  d1.closeRanges ends

/-! ## Changes that take effect at a line (R31, R34, R35, R254) -/

/-- Re-number what is counted in the outgoing job's lines once a JOB_SWITCH has taken effect at its line m (R514). -/
def Dev.renumber (d : Dev) (b m : Nat) : Dev :=
  let f := d.bf b
  let r := d.br b
  let sh : HeadChg → HeadChg := fun c => { c with line := c.line - m }
  let d1 := d.setBf b { f with derateChg := f.derateChg.map sh, blankChg := f.blankChg.map sh }
  d1.setBr b { r with front := r.front - m, handed := r.handed - m,
                      mid := r.mid.map (fun x => { x with line := x.line - m }),
                      blanks := (r.blanks.filter (fun x => decide (m ≤ x.1))).map (fun x => (x.1 - m, x.2)),
                      deadAt := (r.deadAt.filter (fun x => decide (m ≤ x.1))).map (fun x => (x.1 - m, x.2)),
                      starvedTo := if m ≤ r.starvedTo.getD 0 then r.starvedTo.map (fun x => x - m) else none,
                      out := (r.out.filter (fun x => decide (m ≤ x.1))).map (fun x => (x.1 - m, x.2)) }

/-- R35: the outgoing job leaves the bar at a JOB_SWITCH: its ranges close, and its records expire but those of the switch's
own line, which carry over to line 0 of the incoming job; `carry` is the next tick of the grid in the incoming job's numbers. -/
def Dev.switchBar (d : Dev) (b m out inc : Nat) (carry : Nat) : Dev :=
  let d1 := d.closeRanges (fun r => r.job == out && r.bar == b)
  let late := (d1.pendOn b).filter (fun p => p.cp.job == out && p.cp.line != m)
  let d2 := late.foldl (fun acc p => acc.expire p b 3) d1
  let d3 := d2.modJob out (fun j => { j with bars := mapMod {} j.bars b (fun x => { x with left := true }) })
  let own := mapErase b d3.pair.own
  let theirs := mapErase b d3.pair.theirs
  let d4 : Dev := { d3 with pair := { d3.pair with own := own, theirs := theirs } }
  let d5 := d4.setBf b { d4.bf b with job := inc, next := 0 }
  let d6 := d5.renumber b m
  match d6.findJob out, d6.findJob inc with
  | some j, some k =>
    if k.x0.isSome then d6.takeBars k
    else
      let x0 := j.x0.map (fun x => x + (m : Rat) * 1664614400 / ((dpiOf j.pitch : Nat) : Rat))
      let next := carry
      let d7 := d6.modJob inc (fun y => { y with x0 := x0, nextTick := next })
      let d8 := if d7.role = 1 then d7.shank 8 (leBytes 4 inc ++ leBytes 4 0 ++ leBytes 8 (uns 64 (pubI (x0.getD 0)))) else d7
      d8.takeBars k
  | _, _ => d6

/-- A record takes effect on a bar (R30, R31, R37, R203, R254, R435). -/
def Dev.applyRecord (d : Dev) (b t : Nat) (p : Pend) : Dev :=
  let c := p.cp
  let x := commitBank c
  let d1 := if x.1 ≠ 0 then d.activate b x.1 x.2.1 x.2.2
    else if c.kind = 2 then d.wrS (Reg.FIRE_BAR_TRIM_TARGET b) (sgn 32 c.arg)
    else if c.kind = 6 then d.takeoverAt b c (p.bars == [b])
    else d
  (d1.dropPend c.seq b).append 1 .commitApplied (commitBytes c ++ vals [b, t])

/-- The JOB_SWITCH records of the job in progress on a bar that fall on its line n, in ascending SEQ (R34). -/
def Dev.dueSwitches (d : Dev) (b n : Nat) : List Pend :=
  ((d.pendOn b).filter (fun p => p.cp.kind == 5 && p.cp.job == (d.bf b).job && p.cp.line == n)).mergeSort
    (fun x y => decide (x.cp.seq ≤ y.cp.seq))

/-- The records of a bar that take effect at line n, in ascending SEQ; a job that one switch brings and the next takes away on the same
line has its records of line 0 among them (R35). -/
def Dev.dueRecords (d : Dev) (b n : Nat) : List Pend :=
  let sws := d.dueSwitches b n
  ((d.pendOn b).filter (fun p => p.cp.kind != 5 && (d.absLine b p.cp == some n ||
    (p.cp.line == 0 && sws.any (fun q => q.cp.arg == p.cp.job))))).mergeSort (fun x y => decide (x.cp.seq ≤ y.cp.seq))

/-- R35: every JOB_SWITCH of line n takes effect, in ascending SEQ; the job of an earlier one leaves the bar again at its line 0. -/
def Dev.applySwitches (b k t : Nat) : Nat → List Pend → Dev → Dev
  | _, [], d => d
  | m, p :: ps, d =>
    let out := (d.bf b).job
    let d1 := (d.applyRecord b t p).switchBar b m out p.cp.arg (k + 1 - m)
    Dev.applySwitches b (k - m) t 0 ps (if out = p.cp.job then d1 else d1.endIfDone out)

/-- Everything that takes effect at the line boundary before line n of a bar: the JOB_SWITCH first, then the others; the
tick of the reference grid is `k`, and the answer tells by how much the lines are re-numbered. -/
def Dev.boundary (d : Dev) (b n k t : Nat) : Dev × Nat :=
  let due := d.dueRecords b n
  let sws := d.dueSwitches b n
  let trim := d.trimIn b 1
  let d1 := Dev.applySwitches b k t n sws d
  let d2 := due.foldl (fun acc p => acc.applyRecord b t p) d1
  let d3 := d2.wrS (Reg.FIRE_BAR_TRIM b) trim
  let d4 := (d3.wrBit (Reg.FIRE_BAR_STATUS b) 2 (trim != d3.rdS (Reg.FIRE_BAR_TRIM_TARGET b))).wrS (Reg.FIRE_BAR_OMEGA b)
    (d3.omega b)
  (d4, if sws.isEmpty then 0 else n)

/-! ## Starvation (R148, R180) -/

/-- Line n of the bar, which may lie ahead, has not reached the ring in time. -/
def Dev.isLate (d : Dev) (b : Nat) (must : Bool) (n : Nat) : Bool :=
  let r := d.br b
  match d.lineJob b n with
  | none => false
  | some (j, l) =>
    j.has l && mapGet none r.blanks n == none && (d.lostCause j b).isNone &&
      (if must then decide (r.handed ≤ n)
       else decide (r.front ≤ n) && ((d.ringLine j b l).isNone || decide (r.handed + ringLines j.mode ≤ n)))

/-- A line is starved: it prints blank, and a run of starved lines is reported once. -/
def Dev.starve (d : Dev) (b n : Nat) : Dev :=
  let r := d.br b
  let d1 := d.setBr b { r with blanks := mapSet none r.blanks n (some 5) }
  let near : Bool := r.starvedTo == some n || mapGet none r.blanks (n + 1) == some 5 ||
    (n != 0 && mapGet none r.blanks (n - 1) == some 5)
  if near then d1 else (d1.event 1 .dataStarved (vals [(d1.bf b).job, b, n])).printFault b n

/-- At a tick whose position on the bar is line v: lines up to v + 8 must have reached the ring, and lines up to v + 2 the
framer. -/
def Dev.checkStarved (d : Dev) (b : Nat) (v : Int) : Dev :=
  if d.syncing b then d
  else
    let first := min (d.br b).handed (d.bf b).next
    let lines : List Nat := (List.range ((v + 9).toNat - first)).map (fun i => first + i)
    lines.foldl
      (fun acc (n : Nat) =>
        if acc.isLate b (decide ((n : Int) ≤ v + 2)) n then acc.starve b n else acc) d

/-! ## Line rate and SPEED_LIMIT (R246, R258) -/

/-- L in lines/s at the observer's speed (R246), which the thresholds compare; 0 while no ticks are issued. -/
def Dev.lineSpeed (d : Dev) : Rat := if d.bit Reg.FIRE_STATUS 3 then 0 else d.pos.v * (d.dpi : Rat) / 25400

/-- L rounded down, as FIRE_LINE_RATE shows it; 0 in reverse. -/
def Dev.lineRate (d : Dev) : Nat := (d.lineSpeed.floor).toNat

/-- Bars that carry a SCHEDULED or PRINTING job. -/
def Dev.rateBars (d : Dev) : List Nat := (List.range 8).filter (fun b => (d.barJob b).isSome)

/-- R258: assert or release SPEED_LIMIT. -/
def Dev.speedLimit (d : Dev) : Dev :=
  let l := d.lineSpeed
  let rmin := d.rd Reg.FIRE_LINE_RATE_MAX
  let carries := !d.rateBars.isEmpty
  let held := !d.inService || d.bit Reg.FIRE_STATUS 1 || d.bit Reg.FIRE_STATUS 3
  let fast := carries && decide (((rmin * 97 / 100 : Nat) : Rat) ≤ l)
  let slow := !carries || decide (l ≤ ((rmin * 95 / 100 : Nat) : Rat))
  let now := d.bit Reg.FIRE_STATUS 0
  let next := if held || fast then true else if slow then false else now
  if next = now then d
  else
    let d1 := (d.wrBit Reg.FIRE_STATUS 0 next).speedPin
    if next && fast && d.inService then d1.event 1 .speedWarn (vals [d.lineRate]) else d1

/-! ## Skips (R259) and what the STANDBY is told (R267, R426) -/

/-- The firing instant of a line, in 2.5 ns / 64: its tick plus the fine delay (R249). -/
def fireInstant (t fine period : Nat) : Nat := 64 * t + fine * period

/-- R259: a firing instant lies too soon after the last one at rate R. -/
def tooSoon (now : Nat) (last : Option Nat) (rate : Nat) : Bool :=
  match last with
  | none => false
  | some l => decide ((now - l) * 25 * rate + 6400 * rate < 640000000000)

/-- Decisions of the ACTIVE for a bar that take effect by line n are carried out on a STANDBY: suppression and its end, which
FIRE_STATUS.OVERSPEED_STOP follows; the answer tells whether line n is skipped. -/
def Dev.takeDecisions (d : Dev) (b n : Nat) : Dev × Bool :=
  let due := d.pair.decisions.filter (fun x => x.bar == b && decide (x.line ≤ n))
  let rest := d.pair.decisions.filter (fun x => !(x.bar == b &&
    decide (if x.dkind = 1 then x.line + x.count ≤ n + 1 else x.line ≤ n)))
  let sup := due.foldl (fun s x => if x.dkind = 2 then true else if x.dkind = 3 then false else s) (d.bf b).suppressed
  let d1 := ({ d with pair := { d.pair with decisions := rest } } : Dev).setBf b { d.bf b with suppressed := sup }
  let told := due.any (fun x => x.dkind == 2 || x.dkind == 3)
  let d2 := if told then
      (d1.wrBit Reg.FIRE_STATUS 1 ((List.range 8).any (fun c => (d1.bf c).suppressed))).speedLimit
    else d1
  (d2, due.any (fun x => x.dkind == 1 && decide (n < x.line + x.count)))

/-! ## One line of a bar -/

/-- What becomes of a line (R266): 1 inhibited, 2 suppressed, 3 skipped, 4 fired. -/
def Dev.fate (d : Dev) (b : Nat) (onTime : Bool) (now : Nat) (told : Bool) : Nat :=
  if d.fieldInhibit b || d.localInhibit b then 1
  else if (d.bf b).suppressed then 2
  else if told then 3
  else if d.role = 2 then 4
  else if onTime = false ∨ tooSoon now (d.bf b).fired (d.rateOf b) then 3
  else 4

/-- Stage 9 has counted, and the framer has let go of, every line up to n (R200, R259). -/
def Dev.consumeTo (d : Dev) (b n : Nat) : Dev :=
  if d.syncing b then d
  else
    let r := d.br b
    let d1 := if r.handed ≤ n then d.dutyBlank b (n + 1 - r.handed) else d
    let x := d1.br b
    let d2 := d1.setBr b { x with handed := max x.handed (n + 1), front := max x.front (n + 1),
                                  edReset := x.edReset || decide (x.front ≤ n),
                                  mid := x.mid.filter (fun m => decide (n < m.line)),
                                  blanks := x.blanks.filter (fun y => decide (n < y.1)),
                                  deadAt := x.deadAt.filter (fun y => decide (n < y.1)),
                                  starvedTo := if mapGet none x.blanks n = some 5 then some (n + 1) else x.starvedTo,
                                  out := x.out.filter (fun y => decide (n < y.1)) }
    d2.dropRing b n

/-- A line of a job fires: the job is PRINTING from its line 0 on its first bar, and the JOB_RUN completes then (R114, R115, R130); a
job whose line 0 did not fire is PRINTING from the first line that does (log entry 106). -/
def Dev.beginJob (d : Dev) (id line : Nat) : Dev :=
  match d.findJob id with
  | some j =>
    let d1 := if j.phase = JobPhase.scheduled then (d.modJob id (fun k => { k with phase := .printing })).showRates else d
    if line = 0 then
      d1.completeWhere (fun o => entOpcode o.entry == 0x0121 && numAt o.entry 8 4 == id) OK (fun _ => 0)
    else d1
  | none => d

/-- Lines since the last valid report of each head (R264). -/
def Dev.ageHeads (d : Dev) (b : Nat) : Dev :=
  let f := d.bf b
  let ages := (List.range 24).foldl (fun m h => mapMod 0 m h (fun n => n + 1)) f.age
  let d1 := d.setBf b { f with age := ages }
  (List.range 24).foldl
    (fun acc h => acc.wrF (Reg.FIRE_HEAD_TEMP (24 * b + h)) 16 11 (min 2047 (acc.rdF (Reg.FIRE_HEAD_TEMP (24 * b + h)) 16 11 + 1)))
    d1

/-- A line of a bar fires, with its token; the cause of its blank print is recorded (R266, R280). -/
def Dev.fireLine (d : Dev) (b l now fine : Nat) (j : Job) (n : Nat) : Dev :=
  let blank := d.blankedAt b n
  let why := match d.lostCause j b with
    | some c => some c
    | none => match mapGet none (d.br b).blanks n with | some 0 => none | x => x
  let period := (d.bf b).period.getD 0 * 5 / 2
  let d1 := if d.quarantined b then d.inhibitTokenAt b (l + 1)
    else if d.mayDrive b then d.sendToken b fine period l blank else d
  let d2 := d1.setBf b { d1.bf b with fired := some now }
  let d3 := if why = some 5 then d2.bump (Reg.PLACE_BAR_STARVED b) else d2
  ((((d3.markBar b j.id l why).cleanLine b).markHeads b j.id l (d.stoppedAt b n) why.isNone).lineDigest b l
    (digestOf (mapGet [] (d3.br b).out n) blank))

/-- A line of a bar that does not fire, by its fate (R259, R260, R452, R456); the INHIBIT token in place of its token counts the
line as issued (R281). -/
def Dev.holdLine (d : Dev) (b l fate : Nat) (j : Job) (n : Nat) : Dev :=
  let d1 :=
    if fate = 1 then (if d.localInhibit b then d else d.inhibitTokenAt b (l + 1))
    else if fate = 2 then d.bump (Reg.FIRE_BAR_SUPPRESSED b)
    else
      ((d.bump (Reg.FIRE_BAR_SKIPPED b)).modJob j.id (fun k => { k with skipped := k.skipped + 1 })).decision l b 0xFF 1 3 1
  let cause := if fate = 1 then 9 else if fate = 2 then 4 else 3
  ((d1.markBar b j.id l (some cause)).markHeads b j.id l (d.stoppedAt b n) false).lineDigest b l 0

/-- The bar has no measured line period yet: the one that travels with this line is left open. -/
def Dev.ensurePeriod (d : Dev) (b : Nat) : Dev :=
  if (d.bf b).period.isSome then d
  else (d.setBf b { d.bf b with period := some (Config.freeWord d.freeCtr).toNat }).tick

/-- Line n of a bar is issued at tick k, at counter value t; `onTime` is false for a line whose tick was passed over among
several of one sample (R31, R248-R250, R259). -/
def Dev.issueLine (d : Dev) (b n k t : Nat) (onTime : Bool) : Dev × Nat :=
  let r := d.boundary b n k t
  let n' := n - r.2
  let d0 := r.1
  match d0.findJob (d0.bf b).job with
  | none => (d0, r.2)
  | some j =>
    let q := d0.takeDecisions b n'
    let d1 := if n' = 0 then (q.1.wrBit (Reg.FIRE_BAR_STATUS b) 1 true).showRates else q.1
    let fine := (d1.omega b % 64).toNat
    let d2 := if fine = 0 then d1 else d1.ensurePeriod b
    let now := fireInstant t fine ((d2.bf b).period.getD 0)
    let fate := d2.fate b onTime now q.2
    let d3 := if fate = 4 then (d2.fireLine b n' now fine j n').beginJob j.id n' else d2.holdLine b n' fate j n'
    let f := d3.bf b
    let d4 := d3.setBf b { f with next := n' + 1, issuedEver := f.issuedEver + 1,
                                  derate := headsAt f.derate f.derateChg n', blank := headsAt f.blank f.blankChg n',
                                  derateChg := f.derateChg.filter (fun c => decide (n' < c.line)),
                                  blankChg := f.blankChg.filter (fun c => decide (n' < c.line)) }
    let d5 := (d4.modJob j.id (fun x => { x with bars := mapMod {} x.bars b (fun y => { y with issued := n' + 1 }) })).dropKept
      b j.id n'
    let d6 := (((d5.wr64 (Reg.FIRE_BAR_LINE_LO b) n').wr64 (Reg.FIRE_BAR_TICK_LO b) t).consumeTo b n').ageHeads b
    let d7 := (d6.showSkipping b).showFill b
    let d8 := if j.has (n' + 1) = false ∧ (d7.switchOn b).map Prod.fst ≠ some (n' + 1)
      then (d7.leaveBar j.id b 1).endIfDone j.id else d7
    let d9 := d8.endIfDone (d.bf b).job
    ((d9.retryMaps b).showSkipping b, r.2)

/-! ## LINE_TICK (R248-R250, R256) -/

/-- The lines of a bar that fall due at tick k, in order: the earlier ones were passed over in this sample. -/
def Dev.tickLines (b t : Nat) : Nat → Nat → Dev → Dev
  | 0, _, d => d
  | fuel + 1, k, d =>
    let n := (d.bf b).next
    match d.lineJob b n with
    | none => d
    | some (j, l) =>
      let at_ := (n : Int) + d.omegaAt b n / 64
      if j.has l = false ∨ (k : Int) < at_ then d
      else
        let r := d.issueLine b n k t (decide (at_ = (k : Int)))
        Dev.tickLines b t fuel (k - r.2) r.1

/-- A reference tick reaches a bar: its line period is measured, starvation is decided, and its lines are issued. -/
def Dev.tickBar (d : Dev) (b k t : Nat) : Dev :=
  let f := d.bf b
  let d1 := match f.tick with
    | some t0 => if t0 = t then d else d.setBf b { f with tick := some t, period := some (t - t0) }
    | none => d.setBf b { f with tick := some t }
  let v : Int := (k : Int) - d1.omegaAt b f.next / 64
  (d1.checkStarved b v).tickLines b t ((v - (f.next : Int)).toNat + 2) k

/-- PAIR_TAKEOVER with its cause, the epoch and the nodes' counters (R434). -/
def Dev.reportTakeover (d : Dev) (cause : Nat) : Dev :=
  let nodes := (List.range 8).flatMap (fun b => [d.rd (Reg.LACE_NODE_BRIDGED b), d.rd (Reg.LACE_NODE_UNDERFLOW b)])
  let d1 : Dev := { d with pair := { d.pair with tkWait := none } }
  (d1.event 2 .pairTakeover (vals ([d1.rd Reg.PAIR_EPOCH, cause, d1.rd Reg.PAIR_EPOCH] ++ nodes))).bump
    Reg.PAIR_TAKEOVER_COUNT

/-- R434: a line has been issued after a takeover; after 64 the takeover is reported. -/
def Dev.countTakeover (d : Dev) : Dev :=
  match d.pair.tkWait with
  | none => d
  | some (cause, n) =>
    if n ≤ 1 then d.reportTakeover cause else { d with pair := { d.pair with tkWait := some (cause, n - 1) } }

/-- LINE_TICK of a job. -/
def Dev.opLineTick (d : Dev) (id : Nat) : Dev :=
  match d.findJob id with
  | none => d
  | some j =>
    match d.dueTick j with
    | none => d
    | some k =>
      let d1 := d.modJob id (fun x => { x with nextTick := k + 1 })
      let bars := j.barList.filter (fun b => (d.bf b).job == id)
      ((bars.foldl (fun acc b => acc.tickBar b k acc.tc) d1).countTakeover).tryTakeback

/-! ## Speed reactions (R256, R260) -/

/-- R260: suppression begins on every bar. -/
def Dev.overspeedStop (d : Dev) : Dev :=
  let d1 := ((d.wrBit Reg.FIRE_STATUS 1 true).bump Reg.FIRE_OVERSTOP_COUNT).event 1 .overspeedStop (vals [d.lineRate])
  let d2 : Dev := { d1 with fire := { d1.fire with slowFrom := none } }
  (List.range 8).foldl
    (fun acc b => (acc.setBf b { acc.bf b with suppressed := true }).decision (acc.bf b).next b 0xFF 2 4 0) d2

/-- R260: the overspeed stop and the count of the web's advance toward its end; a STANDBY decides nothing (R267). -/
def Dev.overspeed (d : Dev) : Dev :=
  if d.role = 2 ∨ d.inService = false then d
  else if d.bit Reg.FIRE_STATUS 1 then
    let calm := d.rateBars.all (fun b => decide (d.lineRate < d.rateOf b))
    let from_ := if calm then (match d.fire.slowFrom with | some x => some x | none => some d.pos.x) else none
    { d with fire := { d.fire with slowFrom := from_ } }
  else if d.rateBars.any (fun b => decide (((d.rateOf b * d.rdF Reg.SAFE_LIMITS 8 8 / 100 : Nat) : Rat) < d.lineSpeed)) then d.overspeedStop
  else d

/-- R260: the web has advanced 1,000 pitches below every rate limit: firing resumes. -/
def Dev.opOverspeedResume (d : Dev) : Dev :=
  match d.fire.slowFrom with
  | none => d
  | some x0 =>
    if d.bit Reg.FIRE_STATUS 1 ∧ d.role ≠ 2 ∧ (25400000 : Rat) / (d.dpi : Rat) ≤ d.pos.x - x0 then
      let d1 : Dev := { d with fire := { d.fire with slowFrom := none } }
      let d2 := (List.range 8).foldl
        (fun acc b => (acc.setBf b { acc.bf b with suppressed := false }).decision (acc.bf b).next b 0xFF 3 0 0) d1
      ((d2.wrBit Reg.FIRE_STATUS 1 false).event 1 .overspeedResume (vals [d2.lineRate])).speedLimit
    else d

/-- FIRE_LINE_RATE, REVERSE_HOLD and the speed reactions of an update. -/
def Dev.speedReact (d : Dev) : Dev :=
  let d1 := d.wr Reg.FIRE_LINE_RATE d.lineRate
  let rev := d1.bit Reg.POS_STATUS 6 && d1.job.jobs.any (fun j => j.phase == .printing)
  ((d1.wrBit Reg.FIRE_STATUS 2 rev).overspeed).speedLimit

/-- R247: jobs that wait for their start time take the position of this update as their origin. -/
def Dev.lateOrigins (d : Dev) : Dev :=
  let due := d.job.jobs.filter (fun j => j.active && (match j.startTime with | some t => decide (t ≤ d.tc) | none => false))
  due.foldl (fun acc j => acc.setOrigin j.id (acc.pos.x * 65536) true) d

/-- OBSERVER_UPDATE. -/
def Dev.opObserver (d : Dev) : Dev :=
  (((((d.obsCore.obsDir).obsCheck).obsHist).lateOrigins).speedReact).obsSnap

/-! ## Position lost (R220, R257) -/

/-- Abort every SCHEDULED or PRINTING job for the loss of position. -/
def Dev.abortPosition (d : Dev) : Dev :=
  d.activeIds.foldl (fun acc i => (acc.abortJob i).event 1 .jobAbortedPosition (vals [i])) d

/-- POSITION_LOST: coasting has lasted its time. -/
def Dev.opPositionLost (d : Dev) : Dev :=
  if d.bit Reg.POS_STATUS 4 && !d.lost then
    let d0 : Dev := { d with pos := { d.pos with x := d.xAt d.tc, v := 0, a := 0, sample := d.tc } }
    let d1 := ((d0.wrBit Reg.POS_STATUS 4 false).setLost true).showObs.event 1 .positionLost (ivals [pubI (d0.pos.x * 65536)])
    d1.abortPosition.speedReact
  else d

/-! ## Head temperatures (R261-R265, R514, R515) -/

/-- The line from which a decision made now counts: k + 1 of R261, where k is the highest line whose reference tick lies
no later than 4 us ahead; 0 while no line has been issued (R514). -/
def Dev.nextLine (d : Dev) (b : Nat) : Nat :=
  let n := (d.bf b).next
  if n = 0 then 0
  else
    match d.findJob (d.bf b).job with
    | none => n
    | some j =>
      match j.x0 with
      | none => n
      | some x0 =>
        let k := gridPhase (d.xAt (d.tc + 1600)) x0 (dpiOf j.pitch) / 64 - d.omegaAt b n / 64
        max n (k + 1).toNat

/-- Head bit of a mask register. -/
def Dev.headBit (d : Dev) (reg h : Nat) : Bool := d.bit reg h

/-- Derating of a head begins or ends at a line. -/
def Dev.setDerate (d : Dev) (b h line : Nat) (on : Bool) : Dev :=
  let f := d.bf b
  let d1 := d.setBf b { f with derateChg := f.derateChg ++ [⟨line, h, on⟩] }
  ((d1.wrBit (Reg.FIRE_BAR_DERATED b) h on).event 1 (if on then .headDerate else .headDerateEnd) (vals [b, h, line]))

/-- A head stops at a line for a cause, 1 TEMP_STOP or 2 TEMP_STALE; stage 3 is told at once (R262). -/
def Dev.stopHead (d : Dev) (b h line cause : Nat) : Dev :=
  let f := d.bf b
  let set : Nat → Bool → Nat := fun m on => if bitOf m h = on then m else if on then m + 2 ^ h else m - 2 ^ h
  let d1 := d.setBf b { f with blankChg := f.blankChg ++ [⟨line, h, true⟩], dead := set f.dead true,
                               stale := set f.stale (cause == 2) }
  ((d1.wrBit (Reg.FIRE_BAR_STOPPED b) h true).event 1 (if cause = 2 then .headTempStale else .headTempStop)
    (vals [b, h, line]))

/-- A stopped head resumes at a line. -/
def Dev.resumeHead (d : Dev) (b h line : Nat) : Dev :=
  let f := d.bf b
  let d1 := d.setBf b { f with blankChg := f.blankChg ++ [⟨line, h, false⟩],
                               dead := if bitOf f.dead h then f.dead - 2 ^ h else f.dead }
  (d1.wrBit (Reg.FIRE_BAR_STOPPED b) h false).event 1 .headResume (vals [b, h, line])

/-- HEAD_T_DERATE in 1/16 degC. -/
def Dev.tDerate (d : Dev) : Int := sgn 16 (d.rdF Reg.SAFE_TEMP 0 16)

/-- The reactions of R261 to a head's report. -/
def Dev.headReport (d : Dev) (b : Nat) (d0 : Dev) (h : Nat) (x : Int) : Dev :=
  let line := d.nextLine b
  let der := d0.bit (Reg.FIRE_BAR_DERATED b) h
  let d1 :=
    if der = false ∧ d0.tDerate ≤ x then (d0.setDerate b h (line + 4) true).decision (line + 4) b h 4 0 0
    else if der ∧ x ≤ d0.tDerate - 48 then (d0.setDerate b h (line + 4) false).decision (line + 4) b h 5 0 0
    else d0
  let st := d1.bit (Reg.FIRE_BAR_STOPPED b) h
  if st = false ∧ d1.tStop ≤ x then (d1.stopHead b h line 1).decision line b h 6 1 0
  else if st ∧ x ≤ d1.tStop - 80 ∧ d1.cfB Reg.FIRE_CTRL 2 = false then
    (d1.resumeHead b h line).decision line b h 7 0 0
  else d1

/-- Record a valid report of a head. -/
def Dev.recordTemp (d : Dev) (b h : Nat) (x : Int) : Dev :=
  let l := d.ls b
  let d1 := d.setLs b { l with lastTemp := mapSet 0 l.lastTemp h x,
                               hasTemp := if bitOf l.hasTemp h then l.hasTemp else l.hasTemp + 2 ^ h }
  let f := d1.bf b
  let d2 := d1.setBf b { f with age := mapSet 0 f.age h 0 }
  d2.wr (Reg.FIRE_HEAD_TEMP (24 * b + h)) (uns 16 x + 0x8000000)

/-- Temperature of a head in a TEMPS body. -/
def tempOf (f : List Byte) (h : Nat) : Int := sgn 16 (numAt f (8 + 2 * h) 2)

/-- R298: the values of a TEMPS body are possible. -/
def Dev.tempsOk (d : Dev) (b : Nat) (f : List Byte) : Bool :=
  numAt f 0 8 % 8 == 0 &&
    (bitsOf 24 (d.present b)).all (fun h =>
      let x := tempOf f h
      decide (-320 ≤ x ∧ x ≤ 1920) &&
        (!bitOf (d.ls b).hasTemp h ||
          decide (x - mapGet 0 (d.ls b).lastTemp h ≤ 64 ∧ mapGet 0 (d.ls b).lastTemp h - x ≤ 64)))

/-- TEMPS: the partition's copy port gets the report, and the firing block reacts (R261, R298, R443). -/
def Dev.tempsBody (b : Nat) (d : Dev) (f : List Byte) : Dev :=
  if d.portState b < 4 ∨ d.tempsOk b f = false ∨ fld (numAt f 56 4) 24 8 ≠ 0 then d.impossible b
  else if numAt f 0 8 + 17 ≤ (d.bf b).next then d
  else
    let local_ := numAt f 56 4
    let d1 := d.wr (Reg.LACE_LOCAL_STOP b) local_
    let d2 : Dev := { d1 with safe := { d1.safe with
      copies := d1.safe.copies ++ [(b, (List.range 24).map (tempOf f), local_)] } }
    let d3 := (bitsOf 24 (d2.present b)).foldl (fun acc h => acc.recordTemp b h (tempOf f h)) d2
    if d3.role = 2 then d3
    else (bitsOf 24 (d3.present b)).foldl (fun acc h => d3.headReport b acc h (tempOf f h)) d3

/-- HEAD_TEMP_STALE (R264). -/
def Dev.opTempStale (d : Dev) (b h : Nat) : Dev :=
  if d.printingOn b && decide (d.cf Reg.FIRE_TEMP_STALE ≤ mapGet 0 (d.bf b).age h) && bitOf (d.rated b) h &&
      !d.bit (Reg.FIRE_BAR_STOPPED b) h && d.role != 2 then
    let line := d.nextLine b
    (d.stopHead b h line 2).decision line b h 6 2 0
  else d

/-- R265: the write of one head's RESUME bit.  A STANDBY accepts none, since the ACTIVE alone decides a resume (R267; log entry 107). -/
def Dev.resumeWrite (d : Dev) (b h : Nat) : Dev :=
  let t := d.rd (Reg.FIRE_HEAD_TEMP (24 * b + h))
  if d.role != 2 && d.cfB Reg.FIRE_CTRL 2 && d.bit (Reg.FIRE_BAR_STOPPED b) h && bitOf t 27 &&
      decide (sgn 16 t ≤ d.tStop - 80) && decide (mapGet 0 (d.bf b).age h < d.cf Reg.FIRE_TEMP_STALE) then
    (d.resumeHead b h (d.bf b).next).decision (d.bf b).next b h 7 0 0
  else d.event 1 .headResumeRefused (vals [b, h])

/-- HEAD_RESUME_WRITE: every head whose bit is written 1. -/
def Dev.opResumeWrite (d : Dev) (b v : Nat) : Dev := (bitsOf 24 v).foldl (fun acc h => acc.resumeWrite b h) d

/-! ## Meanings -/

/-- OBSERVER_UPDATE (R217, R219, R221-R225, R247, R256, R258, R260). -/
def execObserverUpdate (s : State) : Host.Outcome State Fault Refusal := s.withDev s.dev.opObserver

/-- OVERSPEED_RESUME (R260). -/
def execOverspeedResume (s : State) : Host.Outcome State Fault Refusal := s.withDev s.dev.opOverspeedResume

/-- HEAD_TEMP_STALE (R264, R515). -/
def execHeadTempStale (bar : Fin 8) (head : Fin 24) (s : State) : Host.Outcome State Fault Refusal :=
  s.withDev (s.dev.opTempStale bar head)

/-- HEAD_RESUME_WRITE (R265, R515). -/
def execHeadResumeWrite (bar : Fin 8) (value : Word) (s : State) : Host.Outcome State Fault Refusal :=
  s.onWrite (fun d => d.opResumeWrite bar value.toNat)

end Sys2Proof.Machine
end

