-- ==== Sys2Proof/Machine/JobCmds.lean ====
section
/-!
DEFINITION. Job commands: admission (R133-R138), placement (R137), JOB_RUN (R118, R247, R251), JOB_ABORT and JOB_STATUS
(R115, R131, R132).
-/

namespace Sys2Proof.Machine

/-! ## The job record (R133, R134) -/

/-- Number of bars of a mask. -/
def popBars (m : Nat) : Nat := (bitsOf 8 m).length

/-- The plane entry at 32 bytes. -/
def planeOf (bs : List Byte) : PlaneRec where
  pre := byteAt bs 1
  strips := numAt bs 4 4
  compBytes := numAt bs 8 8
  peakBytes := numAt bs 16 8
  chainMax := numAt bs 24 4

/-- The plane entries of a record: bar and its 32 bytes. -/
def planeEntries (r : List Byte) : List (Nat × List Byte) :=
  let bars := bitsOf 8 (byteAt r 6)
  (List.range bars.length).map (fun i => (bars.getD i 0, (r.drop (64 + 32 * i)).take 32))

/-- Reserved values and fields of the record (R135). -/
def recordFieldsOk (r : List Byte) : Bool :=
  decide (1 ≤ byteAt r 4 ∧ byteAt r 4 ≤ 4) && decide (byteAt r 5 ≤ 3) && decide (byteAt r 7 ≤ 1) &&
    ((r.drop 20).take 44).all (fun b => b == 0) && (byteAt r 7 == 1 || numAt r 16 4 == 0) &&
    (planeEntries r).all (fun x => byteAt x.2 0 == x.1 && decide (byteAt x.2 1 ≤ 2) && numAt x.2 2 2 == 0 &&
      numAt x.2 28 4 == 0)

/-- The feature of a mode, and of a pre-transform code (R152, R159). -/
def modeFeat (mode : Nat) : Nat := 7 + mode
def preFeat (pre : Nat) : Nat := 11 + pre

/-- The features that MODE and PRE need are accepted. -/
def Dev.recordFeatsOk (d : Dev) (r : List Byte) : Bool :=
  d.feat (modeFeat (byteAt r 4)) &&
    (planeEntries r).all (fun x => byteAt x.2 1 == 0 || d.feat (preFeat (byteAt x.2 1)))

/-- PRE is allowed for the mode (R159). -/
def preModeOk (mode pre : Nat) : Bool := pre == 0 || (pre == 1 && decide (mode ≤ 2)) || (pre == 2 && decide (3 ≤ mode))

/-- Ranges of the record (R135). -/
def Dev.recordRangesOk (d : Dev) (r : List Byte) (id : Nat) (rep : Bool) : Bool :=
  let mode := byteAt r 4
  numAt r 0 4 == id && byteAt r 6 != 0 && (bitsOf 8 (byteAt r 6)).all d.barEn &&
    byteAt r 5 == d.cfF Reg.FIRE_CTRL 0 2 && (decide (mode ≤ 2) || byteAt r 5 == 0) && (byteAt r 7 == 0 || rep) &&
    decide (1 ≤ numAt r 8 8 ∧ numAt r 8 8 ≤ 2 ^ 48) &&
    (planeEntries r).all (fun x =>
      let p := planeOf x.2
      preModeOk mode p.pre && decide (1 ≤ p.strips) && decide (1 ≤ p.chainMax) && decide (1 ≤ p.compBytes) &&
        decide (1 ≤ p.peakBytes ∧ p.peakBytes ≤ p.compBytes))

/-- The job of a record. -/
def jobOf (r : List Byte) (rep : Bool) : Job :=
  { id := numAt r 0 4, phase := .admitted, mode := byteAt r 4, pitch := byteAt r 5, barMask := byteAt r 6,
    cyclic := byteAt r 7 == 1, lines := numAt r 8 8, cycles := numAt r 16 4, rep := rep,
    planes := (planeEntries r).foldl (fun m x => mapSet {} m x.1 (planeOf x.2)) [] }

/-- The 512 bytes of a descriptor table entry (R138). -/
def jdtBytes (r : List Byte) (rep : Bool) (seq ceiling : Nat) : List Byte :=
  let plane : Nat → List Byte := fun b =>
    match (planeEntries r).find? (fun x => x.1 == b) with | some x => x.2 | none => List.replicate 32 0
  r.take 64 ++ (List.range 8).flatMap plane ++ leBytes 8 (b2n rep) ++ leBytes 8 seq ++ leBytes 4 ceiling ++
    List.replicate 172 0

/-- The eight bar ceilings as JOB_ADMIT returns them (R140). -/
def barCeilData (j : Job) (c : List (Nat × Nat × Nat)) : List Byte :=
  (List.range 8).flatMap (fun b =>
    match c.find? (fun x => x.1 == b) with
    | some x => leBytes 4 (toMmMin x.2.1 (dpiOf j.pitch))
    | none => leBytes 4 0xFFFFFFFF)

/-- R135: the resource checks of a checked record; RE8 is the raster engine of at most one bar without its own. -/
def Dev.admitRefusal (d : Dev) (j : Job) (c : List (Nat × Nat × Nat) × Nat) : Option Nat :=
  let want := (j.planes.map (fun x => x.2.compBytes)).sum
  if 64 ≤ d.job.jobs.length then some NO_JOB_SLOT
  else if j.rep ∧ d.repeatStore < d.repeatUsed + want then some REPEAT_STORE_FULL
  else if c.2 < d.cf Reg.PLACE_RATE_FLOOR ∨ j.barList.any (fun b => !d.barCan b) ∨
      b2n d.re8Free < (j.barList.filter (fun b => !d.hasEngine b)).length ∨
      d.dflLanes.length < j.barList.length then some NO_CAPACITY
  else none

/-- Publish an admitted job. -/
def Dev.publishJob (d : Dev) (j : Job) (r : List Byte) (c : List (Nat × Nat × Nat) × Nat) : Dev :=
  let v := toMmMin c.2 (dpiOf j.pitch)
  let j' : Job := { j with rate := c.2, ceiling := v,
                           barRate := c.1.foldl (fun m x => mapSet 0 m x.1 x.2.1) ([] : NMap Nat) }
  let entry : JdtEntry := ⟨j.id, jdtBytes r j.rep d.ctl.seq v⟩
  let ended := d.job.ended.filter (fun k => k.id ≠ j.id)
  let want := (j.planes.map (fun x => x.2.compBytes)).sum
  let use := if j.rep then mapSet 0 d.strip.repeatUse j.id want else d.strip.repeatUse
  ({ d with job := { d.job with jobs := d.job.jobs ++ [j'], ended := ended, jdt := d.job.jdt ++ [entry] },
            strip := { d.strip with repeatUse := use } }).showRepeat

/-- The body of JOB_ADMIT (R135): the ceiling and the capacity follow from the health that the control plane holds (R137). -/
def Dev.admitBody (dma : Dma) (d : Dev) (o : Out) : Dev :=
  let id := numAt o.entry 8 4
  let rep := bitOf (byteAt o.entry 12) 0
  if (d.findJob id).isSome then d.complete o JOB_ID_IN_USE 0 []
  else
    d.dmaIn o dma (fun _ => none) (fun x r =>
      if r.length ≠ 64 + 32 * popBars (byteAt r 6) then x.complete o OUT_OF_RANGE 0 []
      else if recordFieldsOk r = false then x.complete o RESERVED_FIELD 0 []
      else if x.recordFeatsOk r = false then x.complete o FEATURE_NOT_ACCEPTED 0 []
      else if x.recordRangesOk r id rep = false then x.complete o OUT_OF_RANGE 0 []
      else
        let j := jobOf r rep
        let c := x.asKnown.ceilings j
        match x.asKnown.admitRefusal j c with
        | some st => x.complete o st 0 []
        | none => (x.publishJob j r c).complete o OK (toMmMin c.2 (dpiOf j.pitch)) (barCeilData j c.1))

/-- JOB_PLACEMENT: the placement engine reads the oldest published entry it has not read (R137). -/
def Dev.opPlacement (d : Dev) : Dev :=
  match d.job.jobs.find? (fun j => !j.placed) with
  | some j => d.place j.id
  | none => d

/-! ## JOB_RUN -/

/-- Lowest bar offset among the bars of a job. -/
def Dev.minOmega (d : Dev) (j : Job) : Int :=
  match (j.barList.map d.omega) with
  | [] => 0
  | o :: os => os.foldl min o

/-- The bars of the job still carry another job (R118); a job that waits for a JOB_SWITCH is not yet on its bars. -/
def Dev.barsBusy (d : Dev) (j : Job) : Bool :=
  j.barList.any (fun b =>
    ((d.bf b).job != 0 && (d.bf b).job != j.id) ||
      d.job.jobs.any (fun k => k.id != j.id && k.active && k.run && bitOf k.barMask b && !(k.onBar b).left))

/-- The job becomes SCHEDULED by JOB_RUN (R130). -/
def Dev.schedule (d : Dev) (j : Job) (start : Option Nat) : Dev :=
  ((d.modJob j.id (fun k => { k with phase := .scheduled, run := true, startTime := start })).takeBars j).assignLanes.showRates

/-- The body of JOB_RUN (R118, R247, R251). -/
def Dev.runBody (d : Dev) (o : Out) : Dev :=
  let id := numAt o.entry 8 4
  let at_ := numAt o.entry 16 8
  match d.findJob id with
  | none => d.complete o NO_SUCH_JOB 0 []
  | some j =>
    if d.role = 2 ∧ o.actRes.isSome then
      -- the STANDBY learns the origin from the JOB frame (R425)
      if j.phase = .admitted then
        let d1 := (d.schedule j none).modJob id (fun k => { k with own := some (byteAt o.entry 12, at_) })
        let d2 := if d1.pair.jobX.any (fun x => x.1 == id)
          then d1.setOrigin id (mapGet 0 d1.pair.jobX id) false else d1
        d2.complete o OK 0 []
      else d.complete o OK 0 []
    else if j.phase ≠ .admitted then d.complete o NO_SUCH_JOB 0 []
    else if d.barsBusy j then d.complete o BARS_BUSY 0 []
    else if byteAt o.entry 12 = 0 then
      let x0 : Rat := ((sgn 64 at_ * 65536 : Int) : Rat)
      if 64 * (d.minOmega j / 64) ≤ gridPhase (d.xAt d.tc) x0 (dpiOf j.pitch) then d.complete o START_PASSED 0 []
      else ((d.schedule j none).setOrigin id x0 false).keep o
    else if at_ < d.tc then d.complete o START_PASSED 0 []
    else (d.schedule j (some at_)).keep o

/-! ## JOB_ABORT and JOB_STATUS -/

/-- RESULT of JOB_ABORT: the lowest, over the bars, of the last line issued + 1 (R115). -/
def abortResult (j : Job) : Nat :=
  match j.barList.map (fun b => (j.onBar b).issued) with
  | [] => 0
  | n :: ns => min (ns.foldl min n) 0xFFFFFFFF

/-- Low bits of the last line issued on a bar, all ones when none. -/
def lastLine (j : Job) (bits b : Nat) : Nat :=
  if bitOf j.barMask b = false ∨ (j.onBar b).issued = 0 then 2 ^ bits - 1 else ((j.onBar b).issued - 1) % 2 ^ bits

/-- Mailbox data of JOB_ABORT. -/
def abortData (j : Job) : List Byte := (List.range 8).flatMap (fun b => leBytes 4 (lastLine j 32 b))

/-- The body of JOB_ABORT (R115, R118, R131). -/
def Dev.abortBody (d : Dev) (o : Out) : Dev :=
  let id := numAt o.entry 8 4
  match d.findJob id with
  | some j => (d.abortJob id).complete o OK (abortResult j) (abortData j)
  | none =>
    match d.anyJob id with
    | some j => d.complete o OK (abortResult j) (abortData j)
    | none => d.complete o NO_SUCH_JOB 0 []

/-- State code of JOB_STATUS. -/
def phaseCode : JobPhase → Nat
  | .admitted => 1
  | .scheduled => 2
  | .printing => 3
  | .ended => 4
  | .aborted => 5

/-- The body of JOB_STATUS (R115, R132). -/
def Dev.statusBody (d : Dev) (o : Out) : Dev :=
  match d.anyJob (numAt o.entry 8 4) with
  | none => d.complete o NO_SUCH_JOB 0 []
  | some j =>
    let data := (List.range 8).flatMap (fun b => leBytes 3 (lastLine j 24 b)) ++ leBytes 4 (satU 32 j.skipped) ++
      leBytes 4 (satU 32 j.stripFaults)
    d.complete o OK (phaseCode j.phase + satU 28 j.defects * 16) data

/-! ## Meanings -/

/-- JOB_ADMIT (R115, R133-R140). -/
def execJobAdmit (q : Fin 16) (dma : Dma) (s : State) : Host.Outcome State Fault Refusal :=
  s.withDev (s.dev.runMatched q 0x0120 dma (Dev.admitBody dma))

/-- JOB_PLACEMENT (R137, R142). -/
def execJobPlacement (s : State) : Host.Outcome State Fault Refusal := s.withDev s.dev.opPlacement

/-- JOB_RUN (R118, R247, R251). -/
def execJobRun (q : Fin 16) (s : State) : Host.Outcome State Fault Refusal :=
  s.withDev (s.dev.runMatched q 0x0121 ⟨[], [], none⟩ Dev.runBody)

/-- JOB_STATUS (R115, R132). -/
def execJobStatus (q : Fin 16) (s : State) : Host.Outcome State Fault Refusal :=
  s.withDev (s.dev.runCmd q 0x0123 Dev.statusBody)

end Sys2Proof.Machine
end

