-- ==== Sys2Proof/Machine/Vision.lean ====
section
/-!
DEFINITION. The vision pipeline's arithmetic (R342-R349, R368): correction orders, spectral conversion, the measurement of
regions, and the results of an Awl check.
-/

namespace Sys2Proof.Machine

/-! ## Numbers -/

/-- The nearest integer; the result of a tie is not stated, so it is a free value. -/
def nearestI (q : Rat) : Int := if (q - 1 / 2).den = 1 then Config.roundRat q else (q + 1 / 2).floor

/-- The power 2^e. -/
def pow2 (e : Int) : Rat := if 0 ≤ e then ((2 ^ e.toNat : Nat) : Rat) else 1 / ((2 ^ (-e).toNat : Nat) : Rat)

/-- floor(log2 q) of a positive q. -/
def log2Rat (q : Rat) : Int :=
  let e : Int := (Nat.log2 q.num.natAbs : Int) - (Nat.log2 q.den : Int)
  if q < pow2 e then e - 1 else if pow2 (e + 1) ≤ q then e + 1 else e

/-- Rounding to IEEE 754 binary32, to nearest even. -/
def f32 (q : Rat) : Rat :=
  if q = 0 then 0
  else
    let m := if q < 0 then -q else q
    let u := pow2 (max (log2Rat m) (-126) - 23)
    let k := (m / u).floor
    let r := m / u - (k : Rat)
    let k' := if r < 1 / 2 then k else if 1 / 2 < r then k + 1 else if k % 2 = 0 then k else k + 1
    if q < 0 then -((k' : Rat) * u) else (k' : Rat) * u

/-! ## Cameras and their tables -/

/-- A camera, and its replacement. -/
def Dev.cs (d : Dev) (c : Nat) : CamSt := mapGet {} d.cam c
def Dev.setCs (d : Dev) (c : Nat) (x : CamSt) : Dev := { d with cam := mapSet {} d.cam c x }

/-- The bytes of a configuration table in force. -/
def Dev.table (d : Dev) (id : Nat) : List Host.Cell := (mapGet {} d.cfg.force.tables id : Table).bytes

/-- A little-endian number of a table in force. -/
def Dev.tableNum (d : Dev) (id o n : Nat) : Nat := leNat (mapRead 0 (d.table id) o n)

/-- A number of bank k of a camera's correction data (R344). -/
def Dev.corrNum (d : Dev) (c k o n : Nat) : Nat :=
  let bs := mapGet [] (d.cs c).banks k
  if bs = [] then d.tableNum (0x2410 + c) o n else numAt bs o n

/-- Pixels of a line. -/
def camPixels : Nat := 12288

/-! ## Correction (R342, R343) -/

/-- What the correction of a line uses. -/
structure CorrIn where
  cal : Bool
  nrK : Nat
  spatial : Bool
  /-- The noise-reduced samples of the line before, when the line is continued. -/
  prev : Option (Array Nat)
  black : Nat → Nat → Nat
  gain : Nat → Nat → Nat
  defect : Nat → Nat → Bool

/-- Noise reduction of pixel p, band k, from the samples of the line. -/
def CorrIn.noise (x : CorrIn) (xs : Array Nat) (p k : Nat) : Nat :=
  let v : Nat → Nat := fun q => 16 * xs.getD (6 * q + k) 0
  let nb : Nat → Nat := fun q => if x.defect q k then p else q
  let l := if p = 0 then p else nb (p - 1)
  let r := if p + 1 = camPixels then p else nb (p + 1)
  let sp := if x.spatial && !x.defect p k then (v l + 2 * v p + v r + 2) / 4 else v p
  match x.prev with
  | some ys =>
    let y := ys.getD (6 * p + k) 0
    ((y : Int) + ((sp : Int) - (y : Int)) / ((2 ^ x.nrK : Nat) : Int)).toNat
  | none => sp

/-- The nearest unflagged pixel of a list. -/
def CorrIn.near (x : CorrIn) (k : Nat) (ps : List Nat) : Option Nat := ps.find? (fun q => !x.defect q k)

/-- Pixels within 4 of p on each side, nearest first. -/
def leftOf (p : Nat) : List Nat := (List.range (min 4 p)).map (fun i => p - 1 - i)
def rightOf (p : Nat) : List Nat := (List.range (min 4 (camPixels - 1 - p))).map (fun i => p + 1 + i)

/-- Black level, defective pixels and shading of pixel p, band k, from the stage-1 values. -/
def CorrIn.reflect (x : CorrIn) (ys : Array Nat) (p k : Nat) : Nat :=
  let b : Nat → Nat := fun q => ys.getD (6 * q + k) 0 - x.black q k
  let v :=
    if x.defect p k then
      match x.near k (leftOf p), x.near k (rightOf p) with
      | some l, some r => (b l + b r) / 2
      | some l, none => b l
      | none, some r => b r
      | none, none => 0
    else b p
  min 65535 ((v * x.gain p k + 8192) / 16384)

/-- Stage 1 of a line: noise reduction in service order, the samples alone in calibration order. -/
def CorrIn.stage1 (x : CorrIn) (xs : Array Nat) : Array Nat :=
  ((List.range (6 * camPixels)).map
    (fun i => if x.cal then 16 * xs.getD i 0 else x.noise xs (i / 6) (i % 6))).toArray

/-- R of every pixel and band. -/
def CorrIn.refl (x : CorrIn) (ys : Array Nat) : Array Nat :=
  ((List.range (6 * camPixels)).map (fun i => x.reflect ys (i / 6) (i % 6))).toArray

/-- The correction inputs of a camera for bank k and an order. -/
def Dev.corrIn (d : Dev) (c k : Nat) (cal : Bool) (prev : Option (Array Nat)) : CorrIn where
  cal := cal
  nrK := d.cfF Reg.VPIPE_NR 0 4
  spatial := d.cfB Reg.VPIPE_NR 4
  prev := prev
  black := fun p b => d.corrNum c k (128 + 32 * p + 2 * b) 2
  gain := fun p b => d.corrNum c k (140 + 32 * p + 2 * b) 2
  defect := fun p b => bitOf (d.corrNum c k (152 + 32 * p) 1) b

/-! ## Spectral conversion (R345) -/

/-- Row j of the spectral matrix applied to a mean reflectance. -/
def Dev.tristim (d : Dev) (c k j : Nat) (r : List Rat) : Rat :=
  ((List.range 6).foldl (fun acc b =>
    let m : Rat := ((sgn 32 (d.corrNum c k (8 + 4 * (6 * j + b)) 4) : Int) : Rat) / 1048576
    f32 (acc + f32 (f32 (f32 m * f32 (r.getD b 0)) / 32768))) 0)

/-- f(t) of R345. -/
def labF (t : Rat) : Rat :=
  let a := f32 (6 / 29)
  if f32 (f32 (a * a) * a) < t then f32 (Config.cbrt32 t) else f32 (f32 (t / f32 (3 * f32 (a * a))) + f32 (4 / 29))

/-- L*, a*, b* in 1/256, saturated to 16 bits. -/
def Dev.toLab (d : Dev) (c k : Nat) (r : List Rat) : Int × Int × Int :=
  let fx := labF (f32 (d.tristim c k 0 r / f32 (96422 / 100000)))
  let fy := labF (d.tristim c k 1 r)
  let fz := labF (f32 (d.tristim c k 2 r / f32 (82521 / 100000)))
  let l := f32 (f32 (116 * fy) - 16)
  let a := f32 (500 * f32 (fx - fy))
  let b := f32 (200 * f32 (fy - fz))
  (max 0 (min 65535 (nearestI (l * 256))), satS 16 (nearestI (a * 256)), satS 16 (nearestI (b * 256)))

/-! ## Regions (R346) -/

/-- An entry of the region table. -/
structure Region where
  kind : Nat
  bar : Nat
  head : Nat
  band : Nat
  p0 : Nat
  p1 : Nat
  line0 : Nat
  lines : Nat
  period : Nat
  thr : Nat
  deriving DecidableEq, Repr

/-- Region i of a camera; kind 0 when unused or beyond COUNT. -/
def Dev.region (d : Dev) (c i : Nat) : Region :=
  let t := 0x2420 + c
  let o := 32 + 32 * i
  let used := decide (i < d.tableNum t 6 2)
  { kind := if used then d.tableNum t o 1 else 0, bar := d.tableNum t (o + 1) 1, head := d.tableNum t (o + 2) 1,
    band := d.tableNum t (o + 3) 1, p0 := d.tableNum t (o + 4) 2, p1 := d.tableNum t (o + 6) 2,
    line0 := d.tableNum t (o + 8) 8, lines := d.tableNum t (o + 16) 4, period := d.tableNum t (o + 20) 4,
    thr := d.tableNum t (o + 24) 2 }

/-- The line pitch of a job in um (R246). -/
def Job.pitchUm (j : Job) : Rat := 25400 / ((dpiOf j.pitch : Nat) : Rat)

/-- The distance of a camera downstream of the reference position in um. -/
def Dev.camOffset (d : Dev) (c : Nat) : Rat := ((d.cf (Reg.CXP_CAM_OFFSET c) : Nat) : Rat) / 100

/-- The line of a job under camera c at position x in um. -/
def Dev.lineUnder (d : Dev) (c : Nat) (j : Job) (x : Rat) : Option Int :=
  j.x0.map (fun x0 => ((x - x0 / 65536 - d.camOffset c) / j.pitchUm).floor)

/-- The job that printed on a bar the web point under camera c at x, and its line (R346). -/
def Dev.webJob (d : Dev) (c b : Nat) (x : Rat) : Option (Job × Nat) :=
  let on : Job → Bool := fun j =>
    match d.lineUnder c j x with
    | some n => decide (0 ≤ n) && bitOf j.barMask b && decide (n.toNat < (j.onBar b).issued)
    | none => false
  match (d.job.jobs.reverse ++ d.job.ended).find? on with
  | some j => (d.lineUnder c j x).map (fun n => (j, n.toNat))
  | none => none

/-- The occurrence of a region that line n lies in. -/
def Region.occ (r : Region) (n : Nat) : Option Nat :=
  if n < r.line0 then none
  else
    let m := n - r.line0
    if r.period = 0 then (if m < r.lines then some 0 else none)
    else if m % r.period < r.lines then some (m / r.period) else none

/-- Job, line and occurrence of a region at a position. -/
def Dev.regKey (d : Dev) (c : Nat) (r : Region) (x : Rat) : Option (Job × Nat × Nat) :=
  if r.kind = 0 then none
  else
    match d.webJob c r.bar x with
    | some (j, n) => (r.occ n).map (fun k => (j, n, k))
    | none => none

/-- The occurrence at a grid index is the one given. -/
def Dev.sameOcc (d : Dev) (c : Nat) (r : Region) (job k : Nat) (g : Int) : Bool :=
  match d.regKey c r ((g : Rat) * ((d.cf (Reg.CXP_CAM_PITCH c) : Nat) : Rat) / 65536) with
  | some (j, _, k') => j.id == job && k' == k
  | none => false

/-- Row of dashes of line n in an occurrence of an AWL region (R368). -/
def Region.row (r : Region) (n k : Nat) : Nat := (n - (r.line0 + k * r.period)) / (max 1 (r.lines / 16))

/-- Element-wise sum, the first list as long as needed. -/
def addLists (a b : List Nat) : List Nat := if a = [] then b else List.zipWith (fun x y => x + y) a b

/-- Add a good line to what an occurrence gathers. -/
def Region.gather (r : Region) (a : RegAcc) (rs : Array Nat) (n : Nat) (pos : Rat) : RegAcc :=
  let at_ : Nat → Nat → Nat := fun p k => rs.getD (6 * p + k) 0
  let ps := (List.range (r.p1 - r.p0)).map (fun i => r.p0 + i)
  if r.kind = 1 then
    let sums := (List.range 6).map (fun k => (ps.map (fun p => at_ p k)).sum)
    { a with good := a.good + 1, sums := addLists a.sums sums }
  else if r.kind = 2 then
    let ws := ps.map (fun p => (p, r.thr - at_ p r.band))
    let w := (ws.map Prod.snd).sum
    { a with good := a.good + 1, w := a.w + w, wp := a.wp + (ws.map (fun x => x.1 * x.2)).sum, wx := a.wx + (w : Rat) * pos }
  else
    let row := r.row n a.k
    let px := (List.range 6144).map (fun i => at_ (r.p0 + i / 6) (i % 6))
    let rows := mapSet [] a.rows row (addLists (mapGet [] a.rows row) px)
    { a with good := a.good + 1, rows := rows, lines := mapMod 0 a.lines row (fun x => x + 1) }

/-- An occurrence ends. -/
def RegRes.finish (x : RegRes) (a : RegAcc) : RegRes :=
  if a.cut then { x with count := x.count + 1, cut := true } else { x with count := x.count + 1, last := some a }

/-! ## Region entries (R349) -/

/-- VALUE of a PATCH. -/
def Dev.patchValue (d : Dev) (c bank : Nat) (r : Region) (a : RegAcc) : Nat :=
  let m : List Rat := a.sums.map (fun s => (s : Rat) / (((r.p1 - r.p0) * a.good : Nat) : Rat))
  let x := d.toLab c bank m
  uns 16 x.1 + uns 16 x.2.1 * 0x10000 + uns 16 x.2.2 * 0x100000000

/-- VALUE of a MARK. -/
def Dev.markValue (d : Dev) (c : Nat) (r : Region) (a : RegAcc) : Nat :=
  match d.anyJob a.job with
  | none => 0
  | some j =>
    let nom : Rat := (j.x0.getD 0) / 65536 +
      (((r.line0 + a.k * r.period : Nat) : Rat) + ((r.lines - 1 : Nat) : Rat) / 2) * j.pitchUm + d.camOffset c
    let along := satS 32 (pubI ((a.wx / (a.w : Rat) - nom) * 1000))
    let across := pubI ((a.wp : Rat) * 256 / (a.w : Rat))
    uns 32 along + across.toNat % 0x100000000 * 0x100000000

/-- A nozzle owned its column on at least half of the bar lines of its dash (R368). -/
def Dev.ownsDash (d : Dev) (r : Region) (k n : Nat) : Bool :=
  let rows := r.lines / 16
  let first := r.line0 + k * r.period + n % 16 * rows
  let dead : Nat → Nat → Bool := fun h z =>
    bitOf (d.deadHeads r.bar) h || mapState (d.bank r.bar 3 h (d.activeBank r.bar 3 h)) z == 2
  let seed := d.cf (Reg.RE_WELT_SEED r.bar)
  let mine := (List.range rows).filter (fun i =>
    let o := ownerOf seed (first + i) dead (3968 * r.head + n)
    o.head == r.head && o.nozzle == n)
  decide (rows ≤ 2 * mine.length)

/-- The result of nozzle n of an Awl check: 0 FIRING, 1 WEAK, 2 NOT_FIRING, 3 NOT_TESTED (R368). -/
def Dev.awlNozzle (d : Dev) (r : Region) (a : RegAcc) (n : Nat) : Nat :=
  let own := n % 16
  let near := ((List.range 9).filter (fun i => decide (4 ≤ n + i) && decide (n + i - 4 < 4096))).map (fun i => (n + i - 4) % 16)
  let far := (List.range 16).filter (fun q => !near.contains q)
  let farLines := (far.map (fun q => mapGet 0 a.lines q)).sum
  let ownLines := mapGet 0 a.lines own
  let at_ : Nat → Nat → Nat := fun q k => (mapGet [] a.rows q).getD (6 * (n / 4) + k) 0
  if mapState (d.bank r.bar 3 r.head (d.activeBank r.bar 3 r.head)) n = 2 ∨ camPixels ≤ r.p0 + n / 4 ∨ ownLines = 0 ∨
      farLines = 0 ∨ d.ownsDash r a.k n = false then 3
  else
    let ink : Nat → Rat := fun k => (at_ own k : Rat) / (ownLines : Rat)
    let k := (List.range 6).foldl (fun best k => if ink k < ink best then k else best) 0
    let white : Rat := ((far.map (fun q => at_ q k)).sum : Rat) / (farLines : Rat)
    let con := white - ink k
    if ((d.cfF Reg.LOOP_AWL_THR 0 16 : Nat) : Rat) ≤ con then 0
    else if ((d.cfF Reg.LOOP_AWL_THR 16 16 : Nat) : Rat) ≤ con then 1
    else 2

/-- The results of the 4,096 nozzles of a region's head. -/
def Dev.awlResults (d : Dev) (r : Region) (a : RegAcc) : List Nat := (List.range 4096).map (d.awlNozzle r a)

/-- How many results have a value. -/
def countOf (v : Nat) (xs : List Nat) : Nat := (xs.filter (fun x => x == v)).length

/-- The measurement of a region is valid (R347). -/
def Region.valid (r : Region) (a : RegAcc) : Bool :=
  decide (0 < a.good) && (r.kind != 2 || decide (0 < a.w)) && (r.kind != 3 || decide (r.head < 24))

/-- Samples measured. -/
def Region.samples (r : Region) (a : RegAcc) : Nat :=
  a.good * (if r.kind = 1 then 6 * (r.p1 - r.p0) else if r.kind = 2 then r.p1 - r.p0 else 6144)

/-- The 16 bytes of a region's entry. -/
def Dev.regEntry (d : Dev) (c bank i : Nat) (x : RegRes) : List Byte :=
  let r := d.region c i
  if r.kind = 0 ∨ x.count = 0 then List.replicate 16 0
  else
    let flags : RegAcc → Bool → Nat := fun a v =>
      b2n v + 2 * b2n x.cut + 4 * b2n (decide (1 < x.count)) + 8 * b2n (decide (0 < a.bad))
    match x.last with
    | none => leBytes 1 r.kind ++ leBytes 1 (2 + 4 * b2n (decide (1 < x.count))) ++ List.replicate 14 0
    | some a =>
      let v := r.valid a
      let value :=
        if v = false then 0
        else if r.kind = 1 then d.patchValue c bank r a
        else if r.kind = 2 then d.markValue c r a
        else
          let rs := d.awlResults r a
          (List.range 4).foldl (fun acc q => acc + countOf q rs * 0x10000 ^ q) 0
      leBytes 1 r.kind ++ leBytes 1 (flags a v) ++ leBytes 2 (satU 16 a.good) ++ leBytes 4 (satU 32 (r.samples a)) ++ leBytes 8 value

end Sys2Proof.Machine
end

