-- ==== Sys2Proof/Machine/Awl.lean ====
section
/-!
DEFINITION. The evaluation of an Awl check into LOOP_AWL_DATA and the nozzle map (R369, R370), the release of held loops
(R371), and the end of a calibration (R497).
-/

namespace Sys2Proof.Machine

/-- R369: the new state and not-firing count of a nozzle for a result; states 0 OK, 1 WEAK, 2 DEAD, 3 SUSPECT. -/
def awlState (confirm res st cnt : Nat) : Nat × Nat :=
  if st = 2 ∨ res = 3 then (st, cnt)
  else if res = 0 ∨ res = 1 then (res, if st = 3 then 0 else cnt)
  else if st = 3 then (if confirm ≤ cnt + 1 then 2 else 3, cnt + 1)
  else (3, 1)

/-- Pack nozzle states as a head line (R185). -/
def packStates : List Nat → List Byte
  | a :: b :: c :: e :: r => BitVec.ofNat 8 (a + 4 * b + 16 * c + 64 * e) :: packStates r
  | _ => []

/-- LOOP_AWL_DATA and LOOP_AWL_STAT (R369, by the steps of R297). -/
def Dev.showAwl (d : Dev) (b h : Nat) (rs : List Nat) : Dev :=
  let d1 := (d.wrBit Reg.LOOP_AWL_STAT 16 false).wrWords (Reg.LOOP_AWL_DATA 0) (bytesWords (packStates rs))
  ((d1.wrF Reg.LOOP_AWL_STAT 17 3 b).wrF Reg.LOOP_AWL_STAT 20 5 h).publish Reg.LOOP_AWL_STAT

/-- Cycle stamps of a loop's event (R372). -/
def Dev.loopStamp (d : Dev) : List Byte := vals [d.tc, d.rd64 Reg.POS_X_LO]

/-- The loop forms a new map of a head from an Awl check's results and posts it (R369); only a module that is not STANDBY
does (R370), and nothing is posted while the loops are held (R371).  A check that finds no job on the bar, or whose record is refused, is
deferred like one whose bank is taken (log entry 113). -/
def Dev.awlMap (d : Dev) (b h : Nat) (rs : List Nat) : Dev :=
  let k := d.activeBank b 3 h
  let old := (List.range 4096).map (mapState (d.bank b 3 h k))
  let cnts := mapGet [] d.loop.awl (24 * b + h)
  let new := (List.range 4096).map (fun n =>
    awlState (d.cfF Reg.LOOP_AWL 4 4) (rs.getD n 3) (old.getD n 0) (cnts.getD n 0))
  let sts := new.map Prod.fst
  let deferred := d.event 2 .awlDeferred (vals [b, h] ++ d.loopStamp)
  if d.bankPending b 3 h (1 - k) || d.loadHolds b 3 h (1 - k) || d.bit Reg.LOOP_HELD 0 then deferred
  else
    let d1 : Dev := { d with loop := { d.loop with awl := mapSet [] d.loop.awl (24 * b + h) (new.map Prod.snd) } }
    if sts = old then d1
    else
      let m := packStates sts
      match d1.barJob b with
      | none => deferred
      | some j =>
        let d2 := if d1.role = 1 then d1.shank 5 (leBytes 1 2 ++ leBytes 1 b ++ leBytes 2 0 ++ leBytes 4 0 ++ m) else d1
        let r := (d2.setBank b 3 h (1 - k) m).postOwn ⟨4, b, 2, 0, 0, j.id, 0, d2.horizon j.id b, h + 256 * (1 - k)⟩
        let changed := (List.zipWith (fun x y => b2n (x != y)) sts old).sum
        if r.2 = OK then
          r.1.event 2 .awlResult (vals ([b, h] ++ (List.range 4).map (fun q => countOf q rs) ++ [changed]) ++ r.1.loopStamp)
        else deferred

/-- An AWL region has been evaluated in a closed frame. -/
def Dev.awlDone (d : Dev) (r : Region) (a : RegAcc) (usable : Bool) : Dev :=
  let rs := d.awlResults r a
  let d1 := d.showAwl r.bar r.head rs
  if usable && d.cfB Reg.LOOP_AWL 0 && d.feat 34 && d.inService && d.role != 2 then d1.awlMap r.bar r.head rs else d1

/-- R371: the first usable frame of a camera releases its loops; every settle line becomes the print line of the frame. -/
def Dev.loopFirstFrame (d : Dev) (c job : Nat) (pos : Option Rat) : Dev :=
  if d.bit Reg.LOOP_HELD (1 + c) = false then d
  else
    let d1 := d.wrBit Reg.LOOP_HELD (1 + c) false
    let line : Nat :=
      match d.anyJob job, pos with
      | some j, some x => (match d.lineUnder c j x with | some n => n.toNat | none => 0)
      | _, _ => 0
    let s : NMap Settle := (List.range 8).map (fun b => (b, { job := job, line := line }))
    let s' : NMap Settle := if job = 0 ∧ line = 0 then [] else s
    let loop' : LoopSt := { d1.loop with settle := s', headSettle := [], segSettle := [], regSettle := s' }
    let d2 : Dev := { d1 with loop := loop' }
    let d3 := (List.range 8).foldl (fun acc b => acc.wr64 (Reg.LOOP_BAR_SETTLE_LO b) line) d2
    let d4 := if d3.rdF Reg.LOOP_HELD 1 2 = 0 then d3.wrBit Reg.LOOP_HELD 0 false else d3
    d4.event 2 .loopResumed (vals [d4.loop.heldCause, c] ++ d4.loopStamp)

/-- R494, R497: a calibration completes with its quality figure, and so does every CAL_RUN that waits for it. -/
def Dev.calDone (d : Dev) (cal unit fig : Nat) : Dev :=
  let d1 := (d.wrBit Reg.HLTH_CAL_STAT 16 false).wr Reg.HLTH_CAL_RESULT fig
  let d2 := d1.event 2 .calDone (vals [cal, unit, fig])
  let d3 := ((d2.wrF Reg.HLTH_CAL_STAT 17 4 cal).wrF Reg.HLTH_CAL_STAT 21 6 unit).publish Reg.HLTH_CAL_STAT
  d3.completeWhere (fun o => entOpcode o.entry == 0x0360 && byteAt o.entry 8 == cal && numAt o.entry 12 4 == unit) OK
    (fun _ => fig)

end Sys2Proof.Machine
end

