-- ==== Sys2Proof/Machine/Cameras.lean ====
section
/-!
DEFINITION. The camera host (R332-R341, R348-R352): control accesses, bring-up, line triggers, frames and their records,
the archive, and the commands that read them.
-/

namespace Sys2Proof.Machine

/-! ## Status (CXP_STATUS) -/

/-- CAM_UP and STREAMING of a camera. -/
def Dev.camUp (d : Dev) (c : Nat) : Bool := d.bit Reg.CXP_STATUS c
def Dev.streaming (d : Dev) (c : Nat) : Bool := d.bit Reg.CXP_STATUS (2 + c)

/-- The camera is enabled. -/
def Dev.camEn (d : Dev) (c : Nat) : Bool := d.cfB (Reg.CXP_CAM_CFG c) 0 && d.feat 32

/-- Links of a camera. -/
def Dev.camLinks (d : Dev) (c : Nat) : Nat := 2 ^ d.cfF (Reg.CXP_CAM_CFG c) 1 2

/-- VPIPE_CAMc_FIFO from the lines that wait: the FIFO refills from the overflow ring at once (R341). -/
def Dev.showFifo (d : Dev) (c : Nat) : Dev :=
  let n := (d.cs c).queue.length
  d.wr (Reg.VPIPE_CAM_FIFO c) (min n 64 + (n - 64) * 0x10000)

/-! ## Control window (R334) -/

/-- A GO, written as `v`, starts an access, or is ignored and logged. -/
def Dev.opControl (d : Dev) (write : Bool) (v : Nat) : Dev :=
  let c := d.rdF Reg.CXP_CTL_SEL 0 1
  if d.rd Reg.CXP_CTL_GO ≠ 0 ∨ d.camUp c = false then d.writeIgnored Reg.CXP_CTL_GO v
  else
    ((d.wr Reg.CXP_CTL_GO (if write then 2 else 1)).wrBit Reg.CXP_CTL_STAT 16 false).send
      (.camControl c write (d.rd Reg.CXP_CTL_ADDR) (d.rd Reg.CXP_CTL_DATA))

/-- The camera acknowledges with a code and, for a read, data; or 200 ms pass (none).  The data of a write, and of an
access without an acknowledgement, is not stated: a free value. -/
def Dev.opControlDone (d : Dev) (res : Option (BitVec 8 × Word)) : Dev :=
  if d.rd Reg.CXP_CTL_GO = 0 then d
  else
    let code := match res with | some (x, _) => x.toNat | none => 0xFF
    let data := match res with
      | some (_, w) => if d.rd Reg.CXP_CTL_GO = 1 then w.toNat else (Config.freeWord d.freeCtr).toNat
      | none => (Config.freeWord d.freeCtr).toNat
    let d1 := (d.tick.wr Reg.CXP_CTL_RDATA data).wrF Reg.CXP_CTL_STAT 17 8 code
    (d1.publish Reg.CXP_CTL_STAT).wr Reg.CXP_CTL_GO 0

/-! ## Lines through the pipeline (R341-R347) -/

/-- The line triggers of a frame. -/
def CamSt.trigOf (x : CamSt) (f : FrameSt) : Option TrigFrame :=
  match f.trig with
  | some t => x.trigs.find? (fun y => y.id == t)
  | none => none

/-- The stamps of line i of a frame. -/
def CamSt.stampOf (x : CamSt) (f : FrameSt) (i : Nat) : Option Stamp := (x.trigOf f).bind (fun t => t.stamps[i]?)

/-- One region at one line of a frame that starts at grid index g0. -/
def Dev.regionLine (d : Dev) (c : Nat) (g0 : Int) (st : Stamp) (good : Bool) (rs : Array Nat) (f : FrameSt) (i : Nat) : FrameSt :=
  let r := d.region c i
  if r.kind = 0 then f
  else
    let cur := mapGet none f.acc i
    match d.regKey c r st.pos with
    | none =>
      match cur with
      | none => f
      | some a => { f with acc := mapErase i f.acc, res := mapMod {} f.res i (fun x => x.finish a) }
    | some (j, n, k) =>
      let new : RegAcc := { job := j.id, k := k, cut := d.sameOcc c r j.id k (g0 - 1), g := st.g }
      let same := match cur with | some a => a.job == j.id && a.k == k | none => false
      let a0 := match cur with | some a => if same then a else new | none => new
      let res := match cur with | some a => if same then f.res else mapMod {} f.res i (fun x => x.finish a) | none => f.res
      let a1 := if good then r.gather a0 rs n st.pos else { a0 with bad := a0.bad + 1 }
      let a2 : RegAcc := { a1 with g := st.g }
      { f with res := res, acc := mapSet none f.acc i (some a2) }

/-- Every region at one line. -/
def Dev.regionsLine (d : Dev) (c : Nat) (x : CamSt) (f : FrameSt) (st : Option Stamp) (good : Bool) (rs : Array Nat) : FrameSt :=
  match st with
  | none => f
  | some s =>
    let g0 := match x.stampOf f 0 with | some z => z.g | none => s.g
    (List.range 80).foldl (fun acc i => d.regionLine c g0 s good rs acc i) f

/-- The 12-bit samples of an archived line, two in three bytes (R351). -/
def packSamples : List Nat → List Byte
  | a :: b :: r => leBytes 3 (a % 4096 + b % 4096 * 4096) ++ packSamples r
  | [a] => leBytes 3 (a % 4096)
  | [] => []

/-- The line record of the archive; the position of a line that no trigger stamped is a free value. -/
def Dev.lineRecord (d : Dev) (st : Option Stamp) (flags : Nat) (xs : List Nat) : List Byte :=
  (match st with
   | some s => leBytes 8 (uns 64 (pubI (s.pos * 65536)))
   | none => (List.range 8).map (fun i => Config.freeByte (d.freeCtr + i))) ++
    leBytes 4 flags ++ leBytes 4 0 ++ packSamples xs

/-- Count R values into histogram bins (R348). -/
def countBins (rs : Array Nat) (h : NMap Nat) : NMap Nat :=
  (List.range (6 * camPixels)).foldl
    (fun acc (i : Nat) => mapMod 0 acc (64 * (i % 6) + min 63 (rs.getD i 0 / 1024)) (fun (n : Nat) => n + 1)) h

/-- One line through the pipeline: one pixel in each cycle, and 8 cycles for a change of the camera (R341). -/
def Dev.useCycles (d : Dev) (c : Nat) : Dev :=
  let n := match d.visUse with | u :: _ => (if u.2.2 = c then camPixels else camPixels + 8) | [] => camPixels
  { d with visUse := (d.tc, n, c) :: d.visUse.filter (fun x => decide (d.tc < x.1 + 400000000)) }

/-- The pipeline takes the oldest line that waits of a camera. -/
def Dev.takeLine (d : Dev) (c : Nat) : Dev :=
  let x := d.cs c
  match x.queue, x.frame with
  | l :: rest, some f =>
    let st := x.stampOf f l.index
    let cont := decide (0 < d.cfF Reg.VPIPE_NR 0 4) && !f.cal && !l.bad &&
      (match x.prev, st with | some (g, _), some s => g + 1 == s.g | _, _ => false)
    let prev := if cont then x.prev.map (fun y => y.2.toArray) else none
    let flags := b2n l.bad + 2 * b2n cont + 4 * b2n l.dropBefore
    let arch := if f.slot.isSome then f.archive ++ d.lineRecord st flags l.samples else f.archive
    let d1 := (if st.isNone then { d with freeCtr := d.freeCtr + 8 } else d : Dev).useCycles c
    if l.bad then
      let f1 := d.regionsLine c x f st false #[]
      let f2 : FrameSt := { f1 with archive := arch }
      (d1.setCs c { x with queue := rest, prev := none, frame := some f2 }).showFifo c
    else
      let ci := d.corrIn c f.bank f.cal prev
      let ys := ci.stage1 l.samples.toArray
      let rs := ci.refl ys
      let f1 := d.regionsLine c x f st true rs
      let keep := x.cal.isSome && f.cal
      let sums := if keep then addLists f.calSums (l.samples.map (fun s => 16 * s)) else f.calSums
      let calLines := f.calLines + b2n keep
      let hist := countBins rs f.hist
      let f2 : FrameSt := { f1 with archive := arch, hist := hist, calSums := sums, calLines := calLines }
      let nextPrev := if f.cal then none else st.map (fun s => (s.g, ys.toList))
      (d1.setCs c { x with queue := rest, prev := nextPrev, frame := some f2 }).showFifo c
  | _, _ => d

/-- Take every line that waits. -/
def Dev.drainLines (c : Nat) : Nat → Dev → Dev
  | 0, d => d
  | n + 1, d => Dev.drainLines c n (d.takeLine c)

/-- VISION_LINE: the camera with more lines waiting, camera 0 on a tie. -/
def Dev.opVisionLine (d : Dev) : Dev :=
  if (d.cs 0).queue.length < (d.cs 1).queue.length then d.takeLine 1 else d.takeLine 0

/-! ## Calibration of a camera (R496) -/

/-- The bank in force of a camera, as bytes. -/
def Dev.corrBytes (d : Dev) (c : Nat) : List Byte :=
  let bs := mapGet [] (d.cs c).banks (d.rdF (Reg.VPIPE_CAM_ORDER c) 2 1)
  if bs = [] then mapRead 0 (d.table (0x2410 + c)) 0 393344 else bs

/-- The mean of a sample over the frames counted, in 1/16 count. -/
def CamCal.mean (x : CamCal) (i : Nat) : Rat := if x.lines = 0 then 0 else (x.sums.getD i 0 : Rat) / (x.lines : Rat)

/-- The pixel entry that a calibration leaves: BLACK, or GAIN and DEFECT. -/
def Dev.calPixel (d : Dev) (x : CamCal) (bs : List Byte) (p : Nat) : List Byte :=
  let e := (bs.drop (128 + 32 * p)).take 32
  let black : Nat → Nat := fun k => numAt e (2 * k) 2
  if x.kind = 7 then
    (List.range 6).flatMap (fun k => leBytes 2 (min 0xFFFF (nearestI (x.mean (6 * p + k))).toNat)) ++ e.drop 12
  else
    let diff : Nat → Rat := fun k => x.mean (6 * p + k) - (black k : Rat)
    let white : Rat := (d.rdF Reg.HLTH_CAL_CFG 16 16 : Rat)
    let gain : Nat → Nat := fun k =>
      if diff k ≤ 16 then numAt e (12 + 2 * k) 2 else min 0xFFFF (nearestI (white * 16384 / diff k)).toNat
    let defect := (List.range 6).foldl
      (fun acc k => if diff k ≤ 16 ∧ bitOf acc k = false then acc + 2 ^ k else acc) (byteAt e 24)
    e.take 12 ++ (List.range 6).flatMap (fun k => leBytes 2 (gain k)) ++ leBytes 1 defect ++ e.drop 25

/-- The calibration has its frames: the inactive bank is written and waits for a frame opening, the order goes back, and
the calibration completes.  R494 names the quality figure without a formula: a free value. -/
def Dev.camCalEnd (d : Dev) (c : Nat) (x : CamCal) : Dev :=
  let bs := d.corrBytes c
  let body := (List.range camPixels).flatMap (d.calPixel x bs)
  let raw := putNum (bs.take 128) 124 4 0 ++ body
  let new := putNum raw 124 4 (crc32c raw)
  let k := 1 - d.rdF (Reg.VPIPE_CAM_ORDER c) 2 1
  let s := d.cs c
  let d1 := d.setCs c { s with cal := none, banks := mapSet [] s.banks k new }
  let d2 := (d1.wrBit (Reg.VPIPE_CAM_ORDER c) 3 true).wrF (Reg.VPIPE_CAM_ORDER c) 0 1 x.order
  d2.tick.calDone x.kind c (Config.freeWord d.freeCtr).toNat

/-- A frame processed in calibration order counts for the running calibration when nothing but its order keeps it from
being usable. -/
def Dev.camCalFrame (d : Dev) (c : Nat) (f : FrameSt) (good : Bool) : Dev :=
  let s := d.cs c
  match s.cal with
  | none => d
  | some x =>
    if f.cal && good then
      let x1 : CamCal := { x with left := x.left - 1, sums := addLists x.sums f.calSums, lines := x.lines + f.calLines }
      if x1.left = 0 then d.camCalEnd c x1 else d.setCs c { s with cal := some x1 }
    else d

/-! ## Closing a frame (R338-R340, R348-R351) -/

/-- Occurrences still open at a frame's end: cut when the next grid index lies in them too. -/
def Dev.endRegions (d : Dev) (c : Nat) (gLast : Option Int) (f : FrameSt) : FrameSt :=
  f.acc.foldl (fun acc e =>
    match e.2 with
    | none => acc
    | some a =>
      let next := match gLast with | some g => g + 1 | none => a.g + 1
      let cut := a.cut || d.sameOcc c (d.region c e.1) a.job a.k next
      { acc with res := mapMod {} acc.res e.1 (fun x => x.finish { a with cut := cut }) }) { f with acc := [] }

/-- FLAGS of a frame without USABLE, and whether nothing but its order keeps it from being usable (R340). -/
def Dev.frameFlags (d : Dev) (f : FrameSt) (skipped : Nat) (linkLost : Bool) : Nat × Bool :=
  let short := decide (f.arrived < d.cf Reg.VPIPE_FRAME_LINES)
  let long := decide (0 < f.discarded)
  let good := !f.formatBad && !linkLost && (!short || d.cfB Reg.VPIPE_FAULT_LIM 12) && (!long || d.cfB Reg.VPIPE_FAULT_LIM 13) &&
    decide (f.badLines + f.dropped ≤ d.cfF Reg.VPIPE_FAULT_LIM 0 12)
  (b2n short + 2 * b2n long + 4 * b2n (decide (0 < f.dropped)) + 8 * b2n (decide (0 < f.badLines)) + 16 * b2n linkLost +
    32 * b2n f.cal + 128 * b2n (decide (0 < skipped)) + 256 * f.bank + 512 * b2n f.formatBad, good)

/-- The 64-byte header of a record, with REC_CRC as given. -/
def recordHeader (c flags : Nat) (f : FrameSt) (posTime : List Byte) (job skipped crc : Nat) : List Byte :=
  leBytes 1 c ++ leBytes 3 0 ++ leBytes 4 flags ++ leBytes 8 f.no ++ leBytes 4 f.kept ++ leBytes 4 f.discarded ++
    leBytes 4 f.badLines ++ leBytes 4 f.dropped ++ posTime ++ leBytes 4 job ++ leBytes 4 skipped ++ leBytes 4 0 ++ leBytes 4 crc

/-- Count a flag of a closed frame. -/
def Dev.bumpIf (d : Dev) (b : Bool) (a : Nat) : Dev := if b then d.bump a else d

/-- The open frame of a camera closes. -/
def Dev.closeFrame (d0 : Dev) (c : Nat) (linkLost : Bool) : Dev :=
  let d := Dev.drainLines c (d0.cs c).queue.length d0
  let x := d.cs c
  match x.frame with
  | none => d
  | some f0 =>
    let gLast := (x.stampOf f0 (f0.arrived - 1)).map Stamp.g
    let f := d.endRegions c gLast f0
    let skipped := match x.trigOf f with | some t => t.skipped | none => 0
    let fl := d.frameFlags f skipped linkLost
    let usable := fl.2 && !f.cal
    let flags := fl.1 + 64 * b2n usable
    let st := x.stampOf f 0
    let job := match st with
      | some s =>
        if d.inHold then 0
        else (match d.enBars with | b :: _ => (match d.webJob c b s.pos with | some (j, _) => j.id | none => 0) | [] => 0)
      | none => 0
    let posTime := match st with
      | some s => leBytes 8 (uns 64 (pubI (s.pos * 65536))) ++ leBytes 8 s.time
      | none => (List.range 16).map (fun i => Config.freeByte (d.freeCtr + i))
    let bins := (List.range 384).flatMap (fun i => leBytes 4 (mapGet 0 f.hist i))
    let ents := (List.range 80).flatMap (fun i => d.regEntry c f.bank i (mapGet {} f.res i))
    let crc := crc32c (recordHeader c flags f posTime job skipped 0 ++ bins ++ ents)
    let head := recordHeader c flags f posTime job skipped crc
    let ring := x.ring ++ [(f.no, head ++ bins ++ ents)]
    let slots := match f.slot with | some k => mapSet none x.slots k (some (f.no, head ++ f.archive)) | none => x.slots
    let trigs := x.trigs.filter (fun t => decide (x.bound ≤ t.id) || t.id + 1 == x.nextTrig)
    let x1 : CamSt := { x with frame := none, ring := ring.drop (ring.length - 4096), slots := slots, trigs := trigs }
    let d1 := (if st.isNone then { d with freeCtr := d.freeCtr + 16 } else d).setCs c x1
    let d2 := d1.event 2 .visionFrame (head ++ ents)
    let d3 := ((d2.bump (Reg.VPIPE_CAM_FRAMES c)).bumpIf usable (Reg.VPIPE_CAM_USABLE c)).wr64 (Reg.CXP_CAM_FRAME_LO c) f.no
    let d4 := ((d3.bumpIf (bitOf flags 0) (Reg.VPIPE_CAM_SHORT_COUNT c)).bumpIf (bitOf flags 1) (Reg.VPIPE_CAM_LONG_COUNT c)).wr
      (Reg.VPIPE_CAM_LAST_FLAGS c) flags
    let d5 := if usable then d4.loopFirstFrame c job (st.map Stamp.pos) else d4
    let d6 := (List.range 80).foldl (fun acc i =>
      let r := acc.region c i
      match (mapGet {} f.res i : RegRes).last with
      | some a => if r.kind = 3 ∧ r.valid a then acc.awlDone r a usable else acc
      | none => acc) d5
    d6.camCalFrame c f fl.2

/-! ## Opening a frame and receiving lines (R337, R338, R341) -/

/-- FRAME_READ still reads an archive slot (R351). -/
def Dev.slotHeld (d : Dev) (c k : Nat) : Bool := d.strip.cmpWait.any (fun w => w.use == 3 && w.item == 16 * c + k)

/-- An image header opens a frame. -/
def Dev.openFrame (d : Dev) (c : Nat) (good : Bool) : Dev :=
  let x := d.cs c
  let reg := Reg.VPIPE_CAM_ORDER c
  let pend := d.bit reg 3
  let bank := if pend then 1 - d.rdF reg 2 1 else d.rdF reg 2 1
  let cal := d.bit reg 0
  let d1 := ((d.wrF reg 2 1 bank).wrBit reg 3 false).wrBit reg 1 cal
  let frames := d.cfF Reg.VPIPE_ARCHIVE 0 4
  let every := max 1 (d.cfF Reg.VPIPE_ARCHIVE 4 16)
  let due := decide (0 < frames) && x.nextNo % every == 0
  let k := if frames = 0 then 0 else x.nextNo / every % frames
  let held := due && d.slotHeld c k
  let slot := if due && !held then some k else none
  let slots := match slot with | some j => mapErase j x.slots | none => x.slots
  let trig := if x.trigs.any (fun t => t.id == x.bound) then some x.bound else none
  let f : FrameSt := { no := x.nextNo, trig := trig, cal := cal, bank := bank, formatBad := !good, slot := slot }
  let bound := if trig.isSome then x.bound + 1 else x.bound
  let d2 := d1.setCs c { x with frame := some f, nextNo := (x.nextNo + 1) % 2 ^ 64, slots := slots, bound := bound }
  let d3 := d2.bumpIf held (Reg.VPIPE_CAM_ARCHIVE_SKIP c)
  if good then d3 else d3.event 1 .visionFormat (vals [c, x.nextNo])

/-- A line arrives for the open frame. -/
def Dev.lineIn13 (d : Dev) (c : Nat) (f : FrameSt) (samples : List Nat) (bad : Bool) : Dev :=
  let x := d.cs c
  let i := f.arrived
  let f1 : FrameSt := { f with arrived := i + 1, badLines := f.badLines + b2n bad, lastDropped := false }
  let d1 := d.bumpIf bad (Reg.VPIPE_CAM_CRC_LINES c)
  if d.cf Reg.VPIPE_FRAME_LINES ≤ i then
    let f2 : FrameSt := { f1 with discarded := f.discarded + 1 }
    (d1.setCs c { x with frame := some f2 }).bump (Reg.VPIPE_CAM_DISCARD_LINES c)
  else if f.formatBad then d1.setCs c { x with frame := some f1 }
  else if 64 + d.cf Reg.VPIPE_OVF_LINES ≤ x.queue.length then
    let f2 : FrameSt := { f1 with dropped := f.dropped + 1, lastDropped := true }
    let d2 := (d1.setCs c { x with frame := some f2 }).bump (Reg.VPIPE_CAM_DROP_LINES c)
    if f.dropped = 0 then d2.event 1 .visionDrop (vals [c, f.no, i]) else d2
  else
    let f2 : FrameSt := { f1 with kept := f.kept + 1 }
    let l : CamLine := { index := i, bad := bad, dropBefore := f.lastDropped, samples := samples }
    (d1.setCs c { x with frame := some f2, queue := x.queue ++ [l] }).showFifo c

/-- CAMERA_LINE: an image header, or a line. -/
def Dev.opCameraItem (d : Dev) (c : Nat) (it : CamItem) : Dev :=
  if d.streaming c = false then d
  else
    match it with
    | .header w ok => (d.closeFrame c false).openFrame c (w == camPixels && ok)
    | .line ss bad errs =>
      let d1 := errs.foldl (fun acc (k : Fin 4) => acc.bump (Reg.CXP_CAM_LINK_CRC_ERR c k)) d
      match (d1.cs c).frame with
      | some f => d1.lineIn13 c f ((ss.take 73728).map BitVec.toNat ++ List.replicate (73728 - ss.length) 0) bad
      | none => d1

/-! ## Triggers (R336, R337) -/

/-- The grid index of a camera now. -/
def Dev.gridIndex (d : Dev) (c : Nat) : Int := (d.xAt d.tc * 65536 / ((d.cf (Reg.CXP_CAM_PITCH c) : Nat) : Rat)).floor

/-- Add stamps to the last frame's triggers, at most as many as a frame has lines. -/
def addStamp (n : Nat) (s : Stamp) : List TrigFrame → List TrigFrame
  | [] => []
  | [t] => [if t.stamps.length < n then { t with stamps := t.stamps ++ [s] } else t]
  | t :: ts => t :: addStamp n s ts

/-- Count a skipped index in the last frame's triggers. -/
def addSkip : List TrigFrame → List TrigFrame
  | [] => []
  | [t] => [{ t with skipped := t.skipped + 1 }]
  | t :: ts => t :: addSkip ts

/-- The next line trigger is a frame-start trigger. -/
def Dev.frameStarts (d : Dev) (c : Nat) (x : CamSt) : Bool :=
  if d.cfB (Reg.CXP_CAM_TRIG c) 0 then x.armed
  else
    match x.trigs.getLast? with
    | some t => x.fresh || decide (d.cf Reg.VPIPE_FRAME_LINES ≤ t.stamps.length)
    | none => true

/-- CAMERA_LINE_TRIGGER. -/
def Dev.opLineTrigger (d : Dev) (c : Nat) : Dev :=
  let x := d.cs c
  let g := d.gridIndex c
  let top := match x.gTop with | some t => decide (g ≤ t) | none => false
  if !d.streaming c || d.lost || top then d
  else
    let soon := match x.lastTrig with
      | some t => decide ((d.tc - t) * d.cf (Reg.CXP_CAM_RATE_MAX c) < 400000000)
      | none => false
    if soon then (d.setCs c { x with gTop := some g, trigs := addSkip x.trigs }).bump (Reg.CXP_CAM_TRIG_SKIP c)
    else
      let lt := d.tc + (pubI (((d.cf (Reg.CXP_CAM_TRIG_LAT c) : Nat) : Rat) * 2 / 5)).toNat
      let st : Stamp := ⟨g, d.xAt lt, lt⟩
      let start := d.frameStarts c x
      let n := d.cf Reg.VPIPE_FRAME_LINES
      let trigs := if start then x.trigs ++ [({ id := x.nextTrig, stamps := [st] } : TrigFrame)] else addStamp n st x.trigs
      let next := if start then x.nextTrig + 1 else x.nextTrig
      let x1 : CamSt := { x with gTop := some g, lastTrig := some d.tc, trigs := trigs, nextTrig := next,
                                 fresh := false, armed := x.armed && !start }
      (d.setCs c x1).send (.camTrigger c start g lt)

/-- A trigger unit fires to the cameras that name it (R337). -/
def Dev.camUnit (d : Dev) (u : Nat) : Dev :=
  [0, 1].foldl (fun acc c =>
    if acc.cfB (Reg.CXP_CAM_TRIG c) 0 && acc.cfF (Reg.CXP_CAM_TRIG c) 1 4 == u && acc.streaming c then
      acc.setCs c { acc.cs c with armed := true }
    else acc) d

/-! ## Bring-up and loss (R335, R352) -/

/-- Acquisition of a streaming camera stops: its frame closes. -/
def Dev.stopAcq (d : Dev) (c : Nat) (linkLost : Bool) : Dev :=
  let d1 := (d.closeFrame c linkLost).wrBit Reg.CXP_STATUS (2 + c) false
  let x := d1.cs c
  d1.setCs c { x with trigs := [], bound := x.nextTrig, queue := [] }

/-- The camera is down. -/
def Dev.camDown (d : Dev) (c : Nat) : Dev :=
  ((if d.streaming c then d.stopAcq c true else d).wrBit Reg.CXP_STATUS c false).event 1 .camDown (vals [c])

/-- CAMERA_BRINGUP. -/
def Dev.opBringup (d : Dev) (c : Nat) (find : CamFind) : Dev :=
  if d.camEn c = false ∨ d.role = 2 then d
  else
    let d0 :=
      if d.streaming c then
        (d.send (.camControl c true (d.cf (Reg.CXP_CAM_STOP_ADDR c)) (d.cf (Reg.CXP_CAM_STOP_VAL c)))).stopAcq c false
      else d
    match find with
    | .none => d0.camDown c
    | .wiring => ((d0.wrBit Reg.CXP_STATUS c false).wrBit Reg.CXP_STATUS (4 + c) true).event 1 .camWiring (vals [c])
    | .ok p =>
      let d1 := (d0.wrBit Reg.CXP_STATUS (4 + c) false).send
        (.camConnect c (d.camLinks c) (d.cfF (Reg.CXP_CAM_CFG c) 3 3) (min p 16384))
      let d2 := (d1.wrBit Reg.CXP_STATUS c true).send
        (.camControl c true (d.cf (Reg.CXP_CAM_ACQ_ADDR c)) (d.cf (Reg.CXP_CAM_ACQ_VAL c)))
      let x := d2.cs c
      let d3 := d2.setCs c { x with gTop := some (d2.gridIndex c), lastTrig := none, fresh := true, prev := none }
      (d3.wrBit Reg.CXP_STATUS (2 + c) true).bump (Reg.CXP_CAM_BRINGUP_COUNT c)

/-! ## Reading frames and records (R122, R350, R351) -/

/-- The body of FRAME_READ. -/
def Dev.frameBody (dma : Dma) (d : Dev) (o : Out) : Dev :=
  let e := o.entry
  let c := byteAt e 8
  let hit := (d.cs c).slots.find? (fun s => match s.2 with | some (n, _) => n % 0x100000000 == numAt e 12 4 | none => false)
  match hit with
  | some (k, some (_, bs)) =>
    if bitOf (byteAt e 16) 0 then
      match d.buffer e dma with
      | .ok els =>
        if d.rd Reg.DFL_CMP_OK = 0 then d.complete o LANE_FAULT 0 []
        else
          d.addStream { use := 3, input := bs, verify := d.cfB Reg.DFL_CMP_CTRL 3, out := some o, item := 16 * c + k, els := els,
                        err := dataErr dma }
      | _ => d.dmaOut o dma (fun _ => []) (fun y _ => y)
    else d.dmaOut o dma (fun _ => bs) (fun y n => y.complete o OK n [])
  | _ => d.complete o (if c ≤ 1 then FRAME_GONE else OUT_OF_RANGE) 0 []

/-- The body of STATS_READ: whole records from FIRST upward that fit the buffer.  With no record stored it completes OK with none: the
spec gives that case no status (log entry 102). -/
def Dev.statsBody (dma : Dma) (d : Dev) (o : Out) : Dev :=
  let e := o.entry
  let c := byteAt e 8
  let first := numAt e 12 4
  let count := numAt e 16 2
  let ring := (d.cs c).ring
  if 1 < c ∨ count = 0 ∨ 1024 < count then d.complete o OUT_OF_RANGE 0 []
  else if ring.any (fun r => decide (first < r.1)) && ring.all (fun r => decide (first < r.1)) then d.complete o FRAME_GONE 0 []
  else
    let sel := ((ring.filter (fun r => decide (first ≤ r.1))).take count).map Prod.snd
    d.dmaOut o dma (fun n => (sel.take (n / 2880)).flatten) (fun y n => y.complete o OK (n / 2880) [])

/-! ## Meanings -/

/-- CXP_CTL_READ (R334). -/
def execCxpCtlRead (s : State) : Host.Outcome State Fault Refusal := s.onWrite (fun d => d.opControl false 1)

/-- CXP_CTL_WRITE (R334). -/
def execCxpCtlWrite (s : State) : Host.Outcome State Fault Refusal := s.onWrite (fun d => d.opControl true 2)

/-- CONTROL_ACCESS_DONE (R334). -/
def execControlAccessDone (res : Option (BitVec 8 × Word)) (s : State) : Host.Outcome State Fault Refusal :=
  s.withDev (s.dev.opControlDone res)

/-- CAMERA_BRINGUP (R335, R352). -/
def execCameraBringup (cam : Fin 2) (find : CamFind) (s : State) : Host.Outcome State Fault Refusal :=
  s.withDev (s.dev.opBringup cam find)

/-- CAM_DOWN (R335, R338, R353). -/
def execCamDown (cam : Fin 2) (s : State) : Host.Outcome State Fault Refusal :=
  s.withDev (if s.dev.camUp cam then s.dev.camDown cam else s.dev)

/-- CAMERA_LINE_TRIGGER (R336, R337). -/
def execCameraLineTrigger (cam : Fin 2) (s : State) : Host.Outcome State Fault Refusal := s.withDev (s.dev.opLineTrigger cam)

/-- CAMERA_LINE (R337-R341, R348-R351). -/
def execCameraLine (cam : Fin 2) (item : CamItem) (s : State) : Host.Outcome State Fault Refusal :=
  s.withDev (s.dev.opCameraItem cam item)

/-- FRAME_CLOSE_TIMEOUT (R338). -/
def execFrameCloseTimeout (cam : Fin 2) (s : State) : Host.Outcome State Fault Refusal :=
  s.withDev (s.dev.closeFrame cam false)

/-- VISION_LINE (R341-R347). -/
def execVisionLine (s : State) : Host.Outcome State Fault Refusal := s.withDev s.dev.opVisionLine

/-- FRAME_READ (R120, R351). -/
def execFrameRead (q : Fin 16) (dma : Dma) (s : State) : Host.Outcome State Fault Refusal :=
  s.withDev (s.dev.runCmd q 0x0220 (Dev.frameBody dma))

/-- STATS_READ (R120, R350). -/
def execStatsRead (q : Fin 16) (dma : Dma) (s : State) : Host.Outcome State Fault Refusal :=
  s.withDev (s.dev.runCmd q 0x0221 (Dev.statsBody dma))

end Sys2Proof.Machine
end

