-- ==== Sys2Proof/Machine/Loops.lean ====
section
/-!
DEFINITION. The colour and register loops (R354-R372): the switches, the measurements a cycle accepts, the control laws,
ramps, freezes and holds.
-/

namespace Sys2Proof.Machine

/-! ## Switches and variables -/

/-- State of the colour or register loop of a bar: 0 OFF, 1 ON, 2 HOLD. -/
def Dev.loopState (d : Dev) (loop b : Nat) : Nat := d.rdF Reg.LOOP_STATUS (16 * loop + 2 * b) 2
def Dev.setLoopState (d : Dev) (loop b v : Nat) : Dev := d.wrF Reg.LOOP_STATUS (16 * loop + 2 * b) 2 v

/-- The loops are held. -/
def Dev.loopsHeld (d : Dev) : Bool := d.bit Reg.LOOP_HELD 0

/-- Keys of the head-level and segment-level variables. -/
def deltaKey (b h j : Nat) : Nat := (b * 24 + h) * 8 + j
def epsKey (b s j : Nat) : Nat := (b * 1536 + s) * 8 + j

/-- Knots of the colour targets and their tones (R358). -/
def Dev.knots (d : Dev) : Nat := d.tableNum 0x2500 5 1
def Dev.knotTone (d : Dev) (j : Nat) : Nat := d.tableNum 0x2500 (8 + j) 1

/-- LOOP_HEADg_DELTAi of a bar. -/
def Dev.showDelta (d : Dev) (b : Nat) : Dev :=
  (List.range 96).foldl (fun acc n =>
    let h := n / 4
    let i := n % 4
    let v : Nat → Nat := fun j => uns 16 (mapGet 0 acc.loop.delta (deltaKey b h j))
    acc.wr (Reg.LOOP_HEAD_DELTA (24 * b + h) i) (v (2 * i) + v (2 * i + 1) * 0x10000)) d

/-- Settle line of a variable set in the lines of a job: 0 when it counts in another job's lines. -/
def Settle.inJob (s : Settle) (job : Nat) : Nat := if s.job = job then s.line else 0

/-- Settle line of head h of a bar, or of one of its segments. -/
def Dev.settleHead (d : Dev) (b h job : Nat) : Nat :=
  max ((mapGet {} d.loop.settle b).inJob job) ((mapGet {} d.loop.headSettle (24 * b + h)).inJob job)
def Dev.settleSeg (d : Dev) (b s job : Nat) : Nat :=
  max (d.settleHead b (s / 64) job) ((mapGet {} d.loop.segSettle (1536 * b + s)).inJob job)

/-! ## Curves (R361) -/

/-- L(v) for the corrections C_0 .. C_(J-1) at the knots' tones. -/
def curveShift (tones : List Nat) (cs : List Int) (v : Nat) : Int :=
  let below := (List.range tones.length).filter (fun j => decide (tones.getD j 0 < v))
  match below.getLast? with
  | none => if v = 0 then 0 else (cs.getD 0 0 * (v : Int)).tdiv ((tones.getD 0 1 : Nat) : Int)
  | some j =>
    if j + 1 = tones.length then cs.getD j 0
    else
      let t := tones.getD j 0
      cs.getD j 0 + ((cs.getD (j + 1) 0 - cs.getD j 0) * ((v : Int) - (t : Int))).tdiv
        ((tones.getD (j + 1) 0 : Int) - (t : Int))

/-- The Last table bank that a base and corrections give. -/
def toneBank (base : List Byte) (tones : List Nat) (c : Nat → Nat → Int) : List Byte :=
  let bank := base.toArray
  let seg : Nat → List Byte := fun s =>
    let cs := (List.range tones.length).map (c s)
    let y : Nat → Nat := fun v => (max 0 (min 4095 ((curveAt bank s v : Int) + curveShift tones cs v))).toNat
    (List.range 128).flatMap (fun k => leBytes 3 (y (2 * k) + y (2 * k + 1) * 4096))
  (List.range 1536).flatMap seg ++ (if base = [] then List.replicate 98304 0 else base.drop 589824)

/-- The bank of a bar for the corrections now held. -/
def Dev.loopBank (d : Dev) (b : Nat) : List Byte :=
  toneBank (mapGet [] d.loop.base b) ((List.range d.knots).map d.knotTone)
    (fun s j => mapGet 0 d.loop.delta (deltaKey b (s / 64) j) + mapGet 0 d.loop.eps (epsKey b s j))

/-! ## Ramps (R362, R363) -/

/-- The value of a variable at step k of S. -/
def rampAt (k s : Nat) (old new : Int) : Int := old + ((new - old) * (k : Int)).tdiv (s : Int)

/-- Take the values of step k as the corrections held. -/
def Dev.takeStep (d : Dev) (b k : Nat) (r : Ramp) : Dev :=
  let de := r.deltas.foldl (fun m x => mapSet 0 m x.1 (rampAt k r.steps x.2.1 x.2.2)) d.loop.delta
  let ep := r.epss.foldl (fun m x => mapSet 0 m x.1 (rampAt k r.steps x.2.1 x.2.2)) d.loop.eps
  ({ d with loop := { d.loop with delta := de, eps := ep } }).showDelta b

/-- An 8-byte entry of a variable (R372): head, segment or 0xFF, knot, flags, old and new value. -/
def varBytes (head seg knot flags : Nat) (old new : Int) : List Byte :=
  leBytes 1 head ++ leBytes 1 seg ++ leBytes 1 knot ++ leBytes 1 flags ++ leBytes 2 (uns 16 old) ++ leBytes 2 (uns 16 new)

/-- The entries of a ramp's step, or of the whole change (k = S). -/
def Ramp.entries (r : Ramp) (k : Nat) (limited : List Nat) : List (List Byte) :=
  r.deltas.map (fun x => varBytes (x.1 / 8 % 24) 0xFF (x.1 % 8) (b2n (limited.contains (2 * x.1))) x.2.1
    (rampAt k r.steps x.2.1 x.2.2)) ++
  r.epss.map (fun x => varBytes (x.1 / 8 % 1536 / 64) (x.1 / 8 % 64) (x.1 % 8) (b2n (limited.contains (2 * x.1 + 1))) x.2.1
    (rampAt k r.steps x.2.1 x.2.2))

/-- Replace the ramp of a bar, with RAMPING. -/
def Dev.setRamp (d : Dev) (b : Nat) (r : Option Ramp) : Dev :=
  let d1 : Dev := { d with loop := { d.loop with ramps := mapSet none d.loop.ramps b r } }
  d1.wrBit (Reg.LOOP_BAR_RAMP b) 0 r.isSome

/-- Post step r.k of a ramp: the LOOP frame, the table, the TONE_MAP at a line not below `low` and not below H(b). -/
def Dev.postStep (d : Dev) (b low : Nat) (r : Ramp) : Dev :=
  match d.barJob b with
  | none => d.setRamp b (some { r with seq := 0 })
  | some j =>
    let d1 := if d.role = 1 then
        d.shank 5 (leBytes 1 0 ++ leBytes 1 b ++ leBytes 2 0 ++ leBytes 4 (d.rd Reg.LOOP_COL_CYCLES) ++ (r.entries r.k []).flatten)
      else d
    let k := 1 - d1.activeBank b 1 0
    let bytes := (d1.takeStep b r.k r).loopBank b
    let line := max low (d1.horizon j.id b)
    let p := (d1.setBank b 1 0 k bytes).postOwn ⟨1, b, 2, 1, 0, j.id, 0, line, k⟩
    p.1.setRamp b (some { r with line := line, job := j.id, bank := k, seq := if p.2 = OK then p.1.job.commitSeq else 0 })

/-- The colour loop of a bar lets go of the bank (R354, R364). -/
def Dev.releaseBank (d : Dev) (b : Nat) : Dev :=
  { d with rast := { d.rast with owned := if bitOf d.rast.owned b then d.rast.owned - 2 ^ b else d.rast.owned } }

/-- A ramp ends at its step r.k, which took effect at r.line. -/
def Dev.endRamp (d : Dev) (b : Nat) (r : Ramp) : Dev :=
  let loop' : LoopSt := { d.loop with settle := mapSet {} d.loop.settle b ⟨r.job, r.line⟩,
                                      headSettle := d.loop.headSettle.filter (fun x => x.1 / 24 ≠ b),
                                      segSettle := d.loop.segSettle.filter (fun x => x.1 / 1536 ≠ b) }
  let d1 : Dev := { d with loop := loop' }
  let d2 := (d1.setRamp b none).wr64 (Reg.LOOP_BAR_SETTLE_LO b) r.line
  if d2.loopState 0 b = 0 then d2.releaseBank b else d2

/-- RAMP_STEP: the step posted last has taken effect, or has expired. -/
def Dev.opRampStep (d : Dev) (b : Nat) : Dev :=
  match mapGet none d.loop.ramps b with
  | none => d
  | some r =>
    if d.role = 2 ∨ d.job.commits.any (fun p => p.cp.seq == r.seq && r.seq != 0) then d
    else if r.seq = 0 ∨ d.activeBank b 1 0 ≠ r.bank then (if r.stop then d.setRamp b none else d.postStep b 0 r)
    else
      let d1 := (d.takeStep b r.k r).wrF (Reg.LOOP_BAR_RAMP b) 1 7 r.k
      if r.k = r.steps ∨ r.stop then d1.endRamp b r else d1.postStep b (r.line + r.dist) { r with k := r.k + 1 }

/-! ## Measurements (R355-R357) -/

/-- A frame as its VISION_FRAME record gives it. -/
structure FrameRec where
  cam : Nat
  usable : Bool
  linesRx : Nat
  pos : Rat
  job : Nat
  bytes : List Byte

/-- The frame of a record's payload. -/
def frameRec (p : List Byte) : FrameRec where
  cam := byteAt p 0
  usable := bitOf (numAt p 4 4) 6
  linesRx := numAt p 16 4
  pos := ((sgn 64 (numAt p 32 8) : Int) : Rat) / 65536
  job := numAt p 48 4
  bytes := p

/-- Entry i of a frame: KIND, VALID and not SPLIT, VALUE. -/
def FrameRec.entry (f : FrameRec) (i : Nat) : Nat × Bool × Nat :=
  let o := 64 + 16 * i
  (byteAt f.bytes o, byteAt f.bytes (o + 1) % 4 == 1, numAt f.bytes (o + 8) 8)

/-- The frames logged from a SEQ on. -/
def Dev.framesFrom (d : Dev) (seq : Nat) : List FrameRec :=
  ((d.log.ring ++ d.log.staging).filter (fun r => r.ev == .visionFrame && decide (seq ≤ r.seq))).map (fun r => frameRec r.payload)

/-- The print line of a frame on a bar, when the bar may use the frame (R355, R356): its job is in progress there. -/
def Dev.frameLine (d : Dev) (b : Nat) (f : FrameRec) : Option Nat :=
  if f.usable && f.job != 0 && f.job == (d.bf b).job then
    match d.findJob f.job with
    | some j => (match d.lineUnder f.cam j f.pos with | some n => if 0 ≤ n then some n.toNat else none | none => none)
    | none => none
  else none

/-- A closed defect range of the head, or of all heads, overlaps the frame's lines (R356). -/
def Dev.defective (d : Dev) (b h : Nat) (f : FrameRec) (n : Nat) : Bool :=
  match d.findJob f.job with
  | none => false
  | some j =>
    let span := (((f.linesRx : Rat) * ((d.cf (Reg.CXP_CAM_PITCH f.cam) : Nat) : Rat) / 65536) / j.pitchUm).ceil.toNat
    (d.log.ring ++ d.log.staging).any (fun r =>
      r.ev == .defectRange && numAt r.payload 0 4 == f.job && byteAt r.payload 4 == b &&
        (byteAt r.payload 5 == h || byteAt r.payload 5 == 0xFF) && decide (numAt r.payload 8 8 ≤ n + span) &&
        decide (n ≤ numAt r.payload 16 8))

/-! ## Freeze (R366) -/

/-- Causes for which head h of a bar is frozen: bit cause - 1. -/
def Dev.freezeMask (d : Dev) (b h : Nat) : Nat :=
  let sts := (List.range 4096).map (mapState (d.bank b 3 h (d.activeBank b 3 h)))
  let lost := match d.barJob b with | some j => j.lostBars.contains b | none => false
  b2n (d.bit (Reg.FIRE_BAR_DERATED b) h) + 2 * b2n (d.bit (Reg.FIRE_BAR_STOPPED b) h) +
    4 * b2n (decide (d.cfF Reg.LOOP_COL_SUSPECT_MAX 0 12 < countOf 3 sts)) + 8 * b2n (d.quarantined b || lost)

/-- A segment holds a SUSPECT nozzle. -/
def Dev.segSuspect (d : Dev) (b s : Nat) : Bool :=
  let m := d.bank b 3 (s / 64) (d.activeBank b 3 (s / 64))
  (List.range 64).any (fun i => mapState m (64 * (s % 64) + i) == 3)

/-- The lowest cause of a mask. -/
def causeOf (m : Nat) : Nat := ((bitsOf 4 m).headD 0) + 1

/-- Bring one head's freeze up to date. -/
def Dev.freezeHead (d : Dev) (b h : Nat) : Dev :=
  let k := 24 * b + h
  let old := mapGet 0 d.loop.frozen k
  let new := d.freezeMask b h
  let d1 := ({ d with loop := { d.loop with frozen := mapSet 0 d.loop.frozen k new } } : Dev).wrBit
    (Reg.LOOP_BAR_FROZEN b) h (new != 0)
  if old = 0 ∧ new ≠ 0 then d1.event 2 .loopFreeze (vals [b, h, 0xFF, causeOf new] ++ d1.loopStamp)
  else if old ≠ 0 ∧ new = 0 then
    let job := (d1.bf b).job
    let line := max (d1.nextLine b) ((mapGet {} d1.loop.headSettle k).inJob job)
    let hs := mapSet {} d1.loop.headSettle k ⟨job, line⟩
    ({ d1 with loop := { d1.loop with headSettle := hs } } : Dev).event 2 .loopUnfreeze
      (vals [b, h, 0xFF, causeOf old] ++ d1.loopStamp)
  else d1

/-- Bring one segment's freeze up to date. -/
def Dev.freezeSeg (d : Dev) (b s : Nat) : Dev :=
  let k := 1536 * b + s
  let old := mapGet false d.loop.segFrozen k
  let new := d.segSuspect b s
  let d1 : Dev := { d with loop := { d.loop with segFrozen := mapSet false d.loop.segFrozen k new } }
  if new && !old then d1.event 2 .loopFreeze (vals [b, s / 64, s % 64, 3] ++ d1.loopStamp)
  else if old && !new then
    let job := (d1.bf b).job
    let line := max (d1.nextLine b) ((mapGet {} d1.loop.segSettle k).inJob job)
    let ss := mapSet {} d1.loop.segSettle k ⟨job, line⟩
    ({ d1 with loop := { d1.loop with segSettle := ss } } : Dev).event 2 .loopUnfreeze (vals [b, s / 64, s % 64, 3] ++ d1.loopStamp)
  else d1

/-- The freezes of a bar. -/
def Dev.freezeBar (d : Dev) (b : Nat) : Dev :=
  (List.range 1536).foldl (fun acc s => acc.freezeSeg b s) ((List.range 24).foldl (fun acc h => acc.freezeHead b h) d)

/-- A variable's head or segment is frozen. -/
def Dev.headFrozen (d : Dev) (b h : Nat) : Bool := mapGet 0 d.loop.frozen (24 * b + h) != 0
def Dev.segIsFrozen (d : Dev) (b s : Nat) : Bool := d.headFrozen b (s / 64) || mapGet false d.loop.segFrozen (1536 * b + s)

/-! ## The colour cycle (R359, R360) -/

/-- A triple in the format of R349: L* unsigned, a* and b* signed. -/
def labOf (v : Nat) : Int × Int × Int := ((fld v 0 16 : Nat), sgn 16 (fld v 16 16), sgn 16 (fld v 32 16))

/-- The colour error of a measurement (R359). -/
def colourError (m t w : Int × Int × Int) : Rat :=
  let x := Config.deltaE00 m w - Config.deltaE00 t w
  let s : Rat := if 0 < x then 1 else if x < 0 then -1 else 0
  Config.deltaE00 m t * s

/-- An error for a variable: the variable (true for a head-level one), its key, the error. -/
abbrev VarErr := Bool × Nat × Rat

/-- The errors that entry i of the targets gives from a frame on a bar. -/
def Dev.entryErrors (d : Dev) (b i : Nat) (f : FrameRec) (n : Nat) : List VarErr :=
  let o := 64 + 16 * i
  let t : Nat → Nat → Nat := fun a k => d.tableNum 0x2500 (o + a) k
  let e := f.entry (t 1 1)
  let h := t 3 1
  let job := (d.bf b).job
  if t 0 1 ≠ f.cam ∨ t 2 1 ≠ b ∨ e.1 ≠ 1 ∨ e.2.1 = false ∨ d.defective b h f n then []
  else
    let err := colourError (labOf e.2.2) (labOf (t 8 6)) (labOf (d.tableNum 0x2500 16 6))
    if t 4 1 = 0 ∧ t 5 1 = 64 then
      if d.headFrozen b h ∨ n < d.settleHead b h job then [] else [(true, deltaKey b h (t 6 1), err)]
    else
      let segs := ((List.range (t 5 1)).map (fun k => 64 * h + t 4 1 + k)).filter (fun s => !d.segIsFrozen b s)
      if segs.any (fun s => decide (n < d.settleSeg b s job)) then []
      else segs.map (fun s => (false, epsKey b s (t 6 1), err))

/-- The errors of a bar from a frame. -/
def Dev.frameErrors (d : Dev) (b : Nat) (f : FrameRec) : List VarErr :=
  match d.frameLine b f with
  | none => []
  | some n => (List.range (d.tableNum 0x2500 6 2)).flatMap (fun i => d.entryErrors b i f n)

/-- round_away of R360. -/
def roundAway (q : Rat) : Int := if q < 0 then -((-q + 1 / 2).floor) else (q + 1 / 2).floor

/-- Clamp to a symmetric range. -/
def clampI (m v : Int) : Int := max (-m) (min m v)

/-- The new value of a variable and whether its limit clamped it (R360). -/
def Dev.colourNew (d : Dev) (old : Int) (ebar : Rat) : Int × Bool :=
  let dead : Rat := ((d.cfF Reg.LOOP_COL_DEADBAND 0 16 : Nat) : Rat) / 100
  let mag := if ebar < 0 then -ebar else ebar
  if mag ≤ dead then (old, false)
  else
    let g : Rat := ((d.cfF Reg.LOOP_COL_GAIN 0 16 : Nat) : Rat) / 16
    let k := roundAway (g * (mag - dead))
    let u := clampI (d.cfF Reg.LOOP_COL_RATE 0 11 : Nat) (if ebar < 0 then k else -k)
    let lim : Int := (d.cfF Reg.LOOP_COL_RATE 16 12 : Nat)
    (clampI lim (old + u), decide (clampI lim (old + u) ≠ old + u))

/-- The mean of a list of errors. -/
def meanOf (xs : List Rat) : Rat := if xs = [] then 0 else xs.sum / (xs.length : Rat)

/-- Per variable with an error: level, key, old value, new value, limited. -/
def Dev.colourChanges (d : Dev) (es : List VarErr) : List (Bool × Nat × Int × Int × Bool) :=
  let vars := (es.map (fun e => (e.1, e.2.1))).dedup
  vars.map (fun v =>
    let old := if v.1 then mapGet 0 d.loop.delta v.2 else mapGet 0 d.loop.eps v.2
    let mine := (es.filter (fun e => e.1 == v.1 && e.2.1 == v.2)).map (fun e => e.2.2)
    let r := d.colourNew old (meanOf mine)
    (v.1, v.2, old, r.1, r.2))

/-- LOOP_COL_UPDATE events, at most 64 variables in each (R372). -/
def Dev.colourEvents (b used line : Nat) : Nat → List (List Byte) → Dev → Dev
  | 0, _, d => d
  | k + 1, es, d =>
    let head := leBytes 8 b ++ leBytes 4 (d.rd Reg.LOOP_COL_CYCLES) ++ leBytes 4 0 ++ leBytes 8 used ++ leBytes 8 line
    let d1 := d.event 2 .loopColUpdate (head ++ (es.take 64).flatten ++ d.loopStamp)
    if es.length ≤ 64 then d1 else Dev.colourEvents b used line k (es.drop 64) d1

/-- The ramp of a cycle's changes. -/
def Dev.rampOf (d : Dev) (b : Nat) (cs : List (Bool × Nat × Int × Int × Bool)) : Ramp :=
  let s := d.cfF Reg.LOOP_COL_RAMP 16 7
  let dpi := match d.barJob b with | some j => dpiOf j.pitch | none => d.dpi
  { deltas := (cs.filter (fun c => c.1)).map (fun c => (c.2.1, c.2.2.1, c.2.2.2.1)),
    epss := (cs.filter (fun c => !c.1)).map (fun c => (c.2.1, c.2.2.1, c.2.2.2.1)),
    steps := s, dist := d.cfF Reg.LOOP_COL_RAMP 0 16 * 1000 * dpi / (s * 25400), k := 1, line := 0, job := 0, bank := 0, seq := 0 }

/-- The job on the bar takes colour corrections (R365). -/
def Dev.contoneOn (d : Dev) (b : Nat) : Bool :=
  match d.findJob (d.bf b).job with
  | some j => decide (3 ≤ j.mode)
  | none => false

/-- One bar in a colour cycle. -/
def Dev.colourBar (d0 : Dev) (fs : List FrameRec) (b : Nat) : Dev :=
  if d0.loopState 0 b = 0 then d0
  else
    let d := d0.freezeBar b
    if (mapGet none d.loop.ramps b).isSome || !d.contoneOn b || d.loopsHeld then d
    else
      let used := (fs.filter (fun f => (d.frameErrors b f) ≠ [])).length
      let cs := d.colourChanges (fs.flatMap (d.frameErrors b))
      let lims := cs.filter (fun c => c.2.2.2.2)
      let d1 := lims.foldl (fun acc c =>
        let head := if c.1 then c.2.1 / 8 % 24 else c.2.1 / 8 % 1536 / 64
        let seg := if c.1 then 0xFF else c.2.1 / 8 % 64
        (acc.bump (Reg.LOOP_BAR_LIMITED b)).event 2 .loopLimit
          (vals [0, b, head, seg, c.2.1 % 8] ++ ivals [c.2.2.2.1] ++ acc.loopStamp)) d
      let chg := cs.filter (fun c => c.2.2.1 != c.2.2.2.1)
      if chg = [] then d1
      else
        let r := d1.rampOf b chg
        let line := d1.horizon (d1.bf b).job b
        let limited := lims.map (fun c => 2 * c.2.1 + b2n (!c.1))
        let ents := r.entries r.steps limited
        let d2 := Dev.colourEvents b used line (ents.length / 64 + 1) ents d1
        if d2.loopState 0 b = 2 then d2 else (d2.postStep b 0 r).bump (Reg.LOOP_BAR_UPDATES b)

/-- COLOUR_CYCLE. -/
def Dev.opColourCycle (d : Dev) : Dev :=
  let per := usLocal (d.cf Reg.LOOP_COL_CYCLE)
  if d.inService = false ∨ d.role = 2 ∨ d.feat 35 = false ∨ d.mulDue d.loop.colServed per = false then d
  else
    let start := d.rd64 Reg.NVM_LOG_NEXT_LO
    let fs := d.framesFrom d.loop.colFrom
    let d1 := ({ d with loop := { d.loop with colFrom := start, colServed := d.mulServed per } } : Dev).bump Reg.LOOP_COL_CYCLES
    (List.range 8).foldl (fun acc b => acc.colourBar fs b) d1

/-! ## The register cycle (R367) -/

/-- The landing errors of a bar's valid MARK entries in a frame, in nm. -/
def Dev.markErrors (d : Dev) (b : Nat) (f : FrameRec) : List Int :=
  (List.range 80).filterMap (fun i =>
    let e := f.entry i
    if e.1 = 2 ∧ e.2.1 ∧ (d.region f.cam i).bar = b then some (sgn 32 (e.2.2 % 0x100000000)) else none)

/-- The pairs of a bar and the reference bar in a frame that the bar may use. -/
def Dev.markPairs (d : Dev) (b ref : Nat) (f : FrameRec) : List Rat :=
  match d.frameLine b f with
  | none => []
  | some n =>
    if n < (mapGet {} d.loop.regSettle b).inJob f.job then []
    else (d.markErrors b f).flatMap (fun x => (d.markErrors ref f).map (fun y => ((x - y : Int) : Rat)))

/-- Post a BAR_PHASE of the loop at the first line the horizon allows. -/
def Dev.postTrim (d : Dev) (b : Nat) (target : Int) : Dev :=
  match d.barJob b with
  | none => d
  | some j =>
    let d1 := if d.role = 1 then
        d.shank 5 (leBytes 1 1 ++ leBytes 1 b ++ leBytes 2 0 ++ leBytes 4 (d.rd Reg.LOOP_REG_CYCLES) ++ leBytes 8 (uns 64 target))
      else d
    let line := d1.horizon j.id b
    let p := d1.postOwn ⟨2, b, 2, 0, 0, j.id, 0, line, uns 32 target⟩
    if p.2 = OK then
      let t := d.rdS (Reg.FIRE_BAR_TRIM b)
      let s : Settle := ⟨j.id, line + (target - t).natAbs⟩
      { p.1 with loop := { p.1.loop with regSettle := mapSet {} p.1.loop.regSettle b s,
                                         regPend := mapSet none p.1.loop.regPend b (some (p.1.job.commitSeq, uns 32 target)) } }
    else p.1

/-- A BAR_PHASE of the loop that expired on a job switch is posted again (R363, R367). -/
def Dev.retryTrim (d : Dev) (b : Nat) : Dev :=
  match mapGet none d.loop.regPend b with
  | none => d
  | some (seq, t) =>
    if d.job.commits.any (fun p => p.cp.seq == seq) then d
    else
      let d1 : Dev := { d with loop := { d.loop with regPend := mapErase b d.loop.regPend } }
      if d.rd (Reg.FIRE_BAR_TRIM_TARGET b) = t ∨ d.loopState 1 b ≠ 1 then d1 else d1.postTrim b (sgn 32 t)

/-- The target that an error gives from the trim target in force, and whether the limit clamped it. -/
def Dev.regTarget (d : Dev) (b : Nat) (old : Int) (ebar : Rat) : Int × Bool :=
  let dead : Rat := ((d.cfF Reg.LOOP_REG_CFG 16 16 : Nat) : Rat)
  let mag := if ebar < 0 then -ebar else ebar
  if mag ≤ dead then (old, false)
  else
    let dpi := match d.barJob b with | some j => dpiOf j.pitch | none => d.dpi
    let q : Rat := 25400000 / ((64 * dpi : Nat) : Rat)
    let g : Rat := ((d.cfF Reg.LOOP_REG_CFG 8 8 : Nat) : Rat) / 256
    let k := roundAway (g * (mag - dead) / q)
    let u := clampI (d.cfF Reg.LOOP_REG_RATE 0 8 : Nat) (if ebar < 0 then k else -k)
    let lim : Int := (d.cfF Reg.LOOP_REG_RATE 16 13 : Nat)
    let t := clampI lim (old + u)
    (max t (-(d.baseOmega b)), decide (t ≠ old + u))

/-- One bar in a register cycle. -/
def Dev.registerBar (d0 : Dev) (fs : List FrameRec) (ref b : Nat) : Dev :=
  if d0.loopState 1 b = 0 ∨ b = ref then d0
  else
    let d := if d0.loopsHeld then d0 else d0.retryTrim b
    let ps := fs.flatMap (d.markPairs b ref)
    if ps = [] || d.loopsHeld then d
    else
      let ebar := meanOf ps
      let old := d.rdS (Reg.FIRE_BAR_TRIM_TARGET b)
      let t := d.regTarget b old ebar
      let d1 := d.wrS (Reg.LOOP_BAR_REG_ERR b) (satS 32 (pubI ebar))
      let d2 := if t.2 then (d1.bump (Reg.LOOP_BAR_LIMITED b)).event 2 .loopLimit
          (vals [1, b, 0xFF, 0xFF, 0] ++ ivals [t.1] ++ d1.loopStamp) else d1
      if t.1 = old then d2
      else
        let line := d2.horizon (d2.bf b).job b
        let d3 := d2.event 2 .loopRegUpdate (vals [b, d2.rd Reg.LOOP_REG_CYCLES, ps.length] ++ leBytes 4 (uns 32 (satS 32 (pubI ebar))) ++
          leBytes 4 (uns 32 old) ++ leBytes 4 (uns 32 t.1) ++ leBytes 4 0 ++ leBytes 8 line ++ d2.loopStamp)
        if d3.loopState 1 b = 2 then d3 else (d3.postTrim b t.1).bump (Reg.LOOP_BAR_UPDATES b)

/-- REGISTER_CYCLE. -/
def Dev.opRegisterCycle (d : Dev) : Dev :=
  let per := usLocal (d.cf Reg.LOOP_REG_CYCLE)
  if d.inService = false ∨ d.role = 2 ∨ d.feat 36 = false ∨ d.mulDue d.loop.regServed per = false then d
  else
    let start := d.rd64 Reg.NVM_LOG_NEXT_LO
    let fs := d.framesFrom d.loop.regFrom
    let d1 := ({ d with loop := { d.loop with regFrom := start, regServed := d.mulServed per } } : Dev).bump Reg.LOOP_REG_CYCLES
    (List.range 8).foldl (fun acc b => acc.registerBar fs (d.cfF Reg.LOOP_REG_CFG 0 3) b) d1

/-! ## Switches, holds and the STANDBY's copy (R354, R370, R371) -/

/-- A ramp stops at its last admitted step. -/
def Dev.stopRamp (d : Dev) (b : Nat) : Dev :=
  match mapGet none d.loop.ramps b with
  | none => d
  | some r => d.setRamp b (some { r with stop := true })

/-- Switch the colour loop of a bar. -/
def Dev.switchColour (d : Dev) (action b : Nat) : Dev :=
  if action = 0 then
    let d1 := (d.stopRamp b).setLoopState 0 b 0
    if (mapGet none d1.loop.ramps b).isSome then d1 else d1.releaseBank b
  else if action = 1 ∨ d.loopState 0 b = 0 then
    let loop' : LoopSt := { d.loop with base := mapSet [] d.loop.base b (d.bank b 1 0 (d.activeBank b 1 0)),
                                        delta := d.loop.delta.filter (fun x => x.1 / 192 ≠ b),
                                        eps := d.loop.eps.filter (fun x => x.1 / 12288 ≠ b),
                                        settle := mapErase b d.loop.settle,
                                        headSettle := d.loop.headSettle.filter (fun x => x.1 / 24 ≠ b),
                                        segSettle := d.loop.segSettle.filter (fun x => x.1 / 1536 ≠ b),
                                        ramps := mapErase b d.loop.ramps }
    let own := if action = 1 && !bitOf d.rast.owned b then d.rast.owned + 2 ^ b else d.rast.owned
    let d1 : Dev := { d with loop := loop', rast := { d.rast with owned := own } }
    ((d1.wr (Reg.LOOP_BAR_RAMP b) 0).showDelta b).setLoopState 0 b action
  else (d.stopRamp b).setLoopState 0 b 2

/-- A TABLE_LOAD of KIND 1 for the bar is running (R354). -/
def Dev.toneLoads (d : Dev) (b : Nat) : Bool := [0, 1].any (fun h => d.loadHolds b 1 0 h)

/-- The body of LOOP_CTRL. -/
def Dev.loopBody (d : Dev) (o : Out) : Dev :=
  let loop := byteAt o.entry 8
  let action := byteAt o.entry 9
  let bar := byteAt o.entry 10
  let bars := if bar = 0xFF then d.enBars else [bar]
  if bars.any (fun b => decide (8 ≤ b) || !d.barEn b) then d.complete o OUT_OF_RANGE 0 []
  else if loop = 0 ∧ action = 1 ∧ bars.any (fun b => (d.pendOn b).any (fun p => p.cp.kind == 1) || d.toneLoads b) then
    d.complete o TABLE_LOCKED 0 []
  else
    let d1 := bars.foldl (fun acc b => if loop = 0 then acc.switchColour action b else acc.setLoopState 1 b action) d
    d1.complete o OK 0 []

/-- Every loop is OFF: at START and on every entry to HOLD (R354); not-firing counts are 0 after START (R369). -/
def Dev.loopsOff (d : Dev) : Dev :=
  let d1 := (List.range 8).foldl (fun acc b => (acc.wr (Reg.LOOP_BAR_RAMP b) 0).releaseBank b) d
  let loop : LoopSt := { d1.loop with
    ramps := [], regPend := [], awl := []
    colServed := d1.mulFrom d1.loop.colServed, regServed := d1.mulFrom d1.loop.regServed }
  ({ d1 with loop := loop } : Dev).wr Reg.LOOP_STATUS 0

/-- R371: every loop is held for a cause, until the first usable frame of each enabled camera. -/
def Dev.loopsHold (d : Dev) (cause : Nat) : Dev :=
  let cams := (List.range 2).filter d.camEn
  if d.rd Reg.LOOP_STATUS = 0 ∨ cams = [] then d
  else
    let d1 := (List.range 8).foldl (fun acc b => acc.stopRamp b) d
    let d2 := ({ d1 with loop := { d1.loop with heldCause := cause } } : Dev).wr Reg.LOOP_HELD
      (1 + (cams.map (fun c => 2 ^ (1 + c))).sum)
    cams.foldl (fun acc c => acc.event 2 .loopHeld (vals [cause, c] ++ acc.loopStamp)) d2

/-- The STANDBY takes the corrections of a LOOP frame's entries (R370). -/
def Dev.takeEntries (b : Nat) : List Byte → Nat → Dev → Dev
  | _, 0, d => d
  | bs, n + 1, d =>
    let e := bs.take 8
    let v := sgn 16 (numAt e 6 2)
    let h := byteAt e 0
    let s := byteAt e 1
    let j := byteAt e 2
    let d1 : Dev :=
      if s = 0xFF then { d with loop := { d.loop with delta := mapSet 0 d.loop.delta (deltaKey b h j) v } }
      else { d with loop := { d.loop with eps := mapSet 0 d.loop.eps (epsKey b (64 * h + s) j) v } }
    Dev.takeEntries b (bs.drop 8) n d1

/-! ## Meanings -/

/-- COLOUR_CYCLE (R355-R362, R366, R371, R372). -/
def execColourCycle (s : State) : Host.Outcome State Fault Refusal := s.withDev s.dev.opColourCycle

/-- RAMP_STEP (R362, R363). -/
def execRampStep (bar : Fin 8) (s : State) : Host.Outcome State Fault Refusal := s.withDev (s.dev.opRampStep bar)

/-- REGISTER_CYCLE (R367). -/
def execRegisterCycle (s : State) : Host.Outcome State Fault Refusal := s.withDev s.dev.opRegisterCycle

/-- LOOP_CTRL (R354). -/
def execLoopCtrl (q : Fin 16) (s : State) : Host.Outcome State Fault Refusal :=
  s.withDev (s.dev.runMatched q 0x0370 ⟨[], [], none⟩ Dev.loopBody)

end Sys2Proof.Machine
end

