-- ==== Sys2Proof/Machine/Time.lean ====
section
/-!
DEFINITION. Time and network (R373-R393): the counter, local time, the servo, holdover, trigger units, PPS, the Ethernet
ports and the PTP instance.
-/

namespace Sys2Proof.Machine

/-! ## Local time (R373-R377) -/

/-- 2^-16 ns in a second. -/
def oneSec : Nat := 65536000000000

/-- TIME_STATUS fields. -/
def Dev.servoState (d : Dev) : Nat := d.rdF Reg.TIME_STATUS 0 2
def Dev.setServoState (d : Dev) (v : Nat) : Dev := d.wrF Reg.TIME_STATUS 0 2 v

/-- R377: a snapshot. -/
def Dev.opSnapshot (d : Dev) : Dev :=
  let n := d.localNow
  let d1 := ((d.wr64 Reg.TIME_SNAP_CNT_LO d.tc).wr64 Reg.TIME_SNAP_SEC_LO (n / oneSec)).wr Reg.TIME_SNAP_NS
    (n / 65536 % 1000000000)
  let d2 := d1.wr Reg.TIME_SNAP_FRAC (n % 65536 + (d.rdF Reg.TIME_SNAP_FRAC 16 16 + 1) % 65536 * 65536)
  d2.wrBit Reg.TIME_CTRL 0 false

/-! ## Servo (R378-R382) -/

/-- Move the base to now: N_base less a step, C_base and the rate (R375). -/
def Dev.rebase (d : Dev) (step : Int) (rate : Int) : Dev :=
  let t : TimeSt := { d.time with nBase := (d.localAt d.tc + step).toNat, cBase := d.tc }
  ({ d with time := t } : Dev).wrS Reg.TIME_RATE rate

/-- A step of local time by `theta` (2^-16 ns) taken away (R380), shown saturated at 2^31 - 1 ns either way (R123). -/
def Dev.stepTime (d : Dev) (theta : Int) (cause : Nat) : Dev :=
  let ns := pubI ((-theta : Rat) / 65536)
  let d1 := (d.rebase (-theta) (d.rdS Reg.TIME_RATE)).bump Reg.TIME_STEP_COUNT
  (d1.wrS Reg.TIME_LAST_STEP (max (-2147483647) (min 2147483647 ns))).event 2 .timeStepped (ivals [ns, (cause : Int)])

/-- The rate and integrator after an update (R379): theta in ns, tau in s. -/
def Dev.servoRate (d : Dev) (theta tau : Rat) : Rat × Int :=
  let kp : Rat := ((d.cfF Reg.TIME_SERVO 0 8 : Nat) : Rat) / 256
  let ki : Rat := ((d.cfF Reg.TIME_SERVO 8 8 : Nat) : Rat) / 256
  let clamp : Rat → Rat := fun q => max (-500000) (min 500000 q)
  let i := d.time.i + ki * theta / tau
  let r := clamp (-(i + kp * theta / tau))
  (clamp i, max (-549755813) (min 549755813 (roundAway (r * 1099511627776 / 1000000000))))

/-- The lock state after an update (R381). -/
def Dev.servoLock (d : Dev) (mag : Rat) (first : Bool) : Dev :=
  let near := decide (mag ≤ ((d.cf Reg.TIME_LOCK_THR : Nat) : Rat))
  let st := d.servoState
  let run := if first || st == 3 || st == 0 then b2n near else if near then d.time.lockRun + 1 else 0
  let d1 : Dev := { d with time := { d.time with lockRun := run } }
  if st = 2 then
    if ((d.cf Reg.TIME_BIG_THR : Nat) : Rat) < mag then
      (({ d1 with time := { d1.time with lockRun := 0 } } : Dev).setServoState 1).event 2 .timeOffsetLarge []
    else d1
  else if 8 ≤ run then (d1.setServoState 2).event 2 .timeLocked []
  else d1.setServoState 1

/-- An update of the source (R379-R382): theta in 2^-16 ns, tau in s. -/
def Dev.update (d : Dev) (theta : Int) (tau : Rat) : Dev :=
  let ns : Rat := (theta : Rat) / 65536
  let mag := if ns < 0 then -ns else ns
  let first := !d.time.started
  let ho := d.servoState == 3
  let i0 : Rat := if first then 0 else if ho then -((d.rdS Reg.TIME_RATE : Int) : Rat) * 1000000000 / 1099511627776 else d.time.i
  let d1 := (d.wrS Reg.TIME_OFFSET (satS 32 (pubI ns))).wrF Reg.TIME_STATUS 2 2 (d.cfF Reg.TIME_CFG 0 2)
  let d2 : Dev := { d1 with time := { d1.time with i := i0 } }
  let rate := d2.servoRate ns tau
  let d3 := if first then d2
    else ({ d2 with time := { d2.time with i := rate.1 } } : Dev).rebase 0 rate.2
  let pend := d.bit Reg.TIME_STATUS 5
  let d4 := if first then (d3.stepTime theta 1).wrBit Reg.TIME_STATUS 4 true else if pend then d3.stepTime theta 2 else d3
  let d5 := if pend then (d4.wrBit Reg.TIME_STATUS 5 false).completeWhere (fun o => entOpcode o.entry == 0x0330) OK
      (fun _ => d4.rd Reg.TIME_LAST_STEP) else d4
  let d6 := if ho then (d5.wr Reg.TIME_HO_AGE 0).wr Reg.TIME_EST_ERR 0 else d5
  let d7 := if ho && d.time.newMaster then d6.event 2 .timeMasterChange [] else d6
  let t : TimeSt := { d7.time with started := true, lastAt := d.tc, newMaster := false, thetas := (mag :: d.time.thetas).take 16 }
  ({ d7 with time := t } : Dev).servoLock mag first

/-- Show TIME_HO_AGE and TIME_EST_ERR (R382). -/
def Dev.showAge (d : Dev) : Dev :=
  if d.servoState = 3 then
    let age := (d.tc - d.time.lastAt) / 400000000
    let lock : Rat := meanOf d.time.thetas
    let e := (pubI lock).toNat + d.cf Reg.TIME_HO_DRIFT * age
    (d.wr Reg.TIME_HO_AGE (satU 32 age)).wr Reg.TIME_EST_ERR (satU 32 e)
  else d

/-- The servo enters HOLDOVER (R382). -/
def Dev.toHoldover (d : Dev) (newMaster : Bool) : Dev :=
  if d.servoState = 1 ∨ d.servoState = 2 then
    let d1 := (d.setServoState 3).wrF Reg.TIME_STATUS 2 2 0
    let d2 : Dev := { d1 with time := { d1.time with newMaster := newMaster } }
    d2.showAge.event 2 .timeHoldover []
  else if newMaster then { d with time := { d.time with newMaster := true } }
  else d

/-- One edge of the counter's clock (R373). -/
def Dev.clockEdge (d : Dev) : Dev :=
  ({ d with tc := (d.tc + d.rdF Reg.TIME_STATUS 8 3) % 2 ^ 64 } : Dev).showAge

/-- The configured source can deliver updates (R378). -/
def Dev.sourceLive (d : Dev) : Bool :=
  let s := d.cfF Reg.TIME_CFG 0 2
  (s == 1 && d.feat 37) || s == 2 || (s == 3 && d.role == 2)

/-- SERVO_UPDATE: theta in 2^-16 ns, tau in ns. -/
def Dev.opServo (d : Dev) (theta : Int) (tau : Nat) : Dev :=
  if d.sourceLive then d.update theta ((tau : Rat) / 1000000000) else d

/-- TIME_HOLDOVER: 0 no update for 4 tau, 1 a new master or parent port, 2 no longer STANDBY. -/
def Dev.opHoldover (d : Dev) (cause : Nat) : Dev :=
  let s := d.cfF Reg.TIME_CFG 0 2
  if cause = 0 then d.toHoldover false
  else if cause = 1 then (if s = 1 then d.toHoldover true else d)
  else if s = 3 ∧ d.role ≠ 2 then d.toHoldover false
  else d

/-- The body of TIME_STEP. -/
def Dev.stepBody (d : Dev) (o : Out) : Dev :=
  if d.cfF Reg.TIME_CFG 0 2 = 0 then d.complete o OUT_OF_RANGE 0 [] else (d.wrBit Reg.TIME_STATUS 5 true).keep o

/-- TIME_STEP_TIMEOUT. -/
def Dev.opStepTimeoutT (d : Dev) : Dev :=
  if d.bit Reg.TIME_STATUS 5 then
    (d.wrBit Reg.TIME_STATUS 5 false).completeWhere (fun o => entOpcode o.entry == 0x0330) OUT_OF_RANGE (fun _ => 0)
  else d

/-! ## Trigger units (R388-R390) -/

/-- State of a unit: 0 IDLE, 1 ARMED, 2 DONE. -/
def Dev.trigState (d : Dev) (u : Nat) : Nat := d.rdF (Reg.TIME_TRIG_STATUS u) 0 2

/-- Target of a unit in 2^-16 ns. -/
def Dev.trigTarget (d : Dev) (u : Nat) : Nat :=
  (d.rd64 (Reg.TIME_TRIG_SEC_LO u) * 1000000000 + d.rdF (Reg.TIME_TRIG_NS u) 0 30) * 65536

/-- Set the target, a whole number of ns. -/
def Dev.setTarget (d : Dev) (u n : Nat) : Dev :=
  (d.wr64 (Reg.TIME_TRIG_SEC_LO u) (n / oneSec)).wr (Reg.TIME_TRIG_NS u) (n / 65536 % 1000000000)

/-- The consumers of a firing inside the module: ADC bursts, serial frames and camera frame starts, while their blocks are powered. -/
def Dev.trigConsumers (d : Dev) (u : Nat) : Dev :=
  if d.halted then d else
  let d1 := (List.range 8).foldl (fun acc n => if acc.cfF (Reg.ADC_CH_CFG n) 8 4 = u then acc.adcTrigger n else acc) d
  let d2 := (List.range 2).foldl (fun acc c => if acc.ssiUnit c = some u then acc.setSsi c { acc.ssiSt c with trig := true } else acc) d1
  d2.camUnit u

/-- An armed unit whose target has been reached fires and advances (R389). -/
def Dev.fireUnit (d : Dev) (u : Nat) : Dev :=
  if d.trigState u = 1 ∧ d.trigTarget u ≤ d.localNow then
    let n := mapGet 0 d.time.fired u + 1
    let t : TimeSt := { d.time with fired := mapSet 0 d.time.fired u n }
    let d1 := (({ d with time := t } : Dev).bump (Reg.TIME_TRIG_FIRE_COUNT u)).trigConsumers u
    let per := d.rd (Reg.TIME_TRIG_PERIOD u) * (if d.bit (Reg.TIME_TRIG_CFG u) 0 then 1000 else 1) * 65536
    let cnt := d.rd (Reg.TIME_TRIG_COUNT u)
    if per = 0 ∨ (0 < cnt ∧ cnt ≤ n) then d1.wrF (Reg.TIME_TRIG_STATUS u) 0 2 2
    else
      let passed := (d.localNow - d.trigTarget u) / per
      let miss := satU 16 (d.rdF (Reg.TIME_TRIG_STATUS u) 16 16 + passed)
      (d1.setTarget u (d.trigTarget u + (passed + 1) * per)).wrF (Reg.TIME_TRIG_STATUS u) 16 16 miss
  else d

/-- Arm one unit; a target already reached fires at once and sets LATE. -/
def Dev.armUnit (d : Dev) (u : Nat) : Dev :=
  let t : TimeSt := { d.time with fired := mapErase u d.time.fired }
  let d1 := ({ d with time := t } : Dev).wrF (Reg.TIME_TRIG_STATUS u) 0 2 1
  if d1.trigTarget u ≤ d1.localNow then (d1.wrBit (Reg.TIME_TRIG_STATUS u) 2 true).fireUnit u else d1

/-- After a wake, the units that stopped in the sleep state pass over the firings it made them miss (R389, R390); a one-shot
unit so passed is DONE. -/
def Dev.wakeUnit (d : Dev) (u : Nat) : Dev :=
  if d.trigState u = 1 ∧ d.bit (Reg.TIME_TRIG_CFG u) 1 = false ∧ d.trigTarget u ≤ d.localNow then
    let per := d.rd (Reg.TIME_TRIG_PERIOD u) * (if d.bit (Reg.TIME_TRIG_CFG u) 0 then 1000 else 1) * 65536
    let n := if per = 0 then 1 else (d.localNow - d.trigTarget u) / per + 1
    let d1 := d.wrF (Reg.TIME_TRIG_STATUS u) 16 16 (satU 16 (d.rdF (Reg.TIME_TRIG_STATUS u) 16 16 + n))
    if per = 0 then d1.wrF (Reg.TIME_TRIG_STATUS u) 0 2 2 else d1.setTarget u (d.trigTarget u + n * per)
  else d

/-- TRIG_ARM and TRIG_DISARM. -/
def Dev.opTrigArm (d : Dev) (v : Nat) : Dev := (bitsOf 16 v).foldl (fun acc u => acc.armUnit u) d
def Dev.opTrigDisarm (d : Dev) (v : Nat) : Dev :=
  (bitsOf 16 v).foldl (fun acc u => acc.wrF (Reg.TIME_TRIG_STATUS u) 0 2 0) d

/-! ## PPS (R391, R392) -/

/-- PPS_IN: a rising edge of a pulse of a width. -/
def Dev.opPpsIn (d : Dev) (width : Nat) : Dev :=
  if width < 100 then d
  else
    let d1 := (d.wr64 Reg.TIME_PPS_IN_CNT_LO d.tc).wr Reg.TIME_PPS_IN_SEQ (d.rd Reg.TIME_PPS_IN_SEQ + 1)
    if d.cfF Reg.TIME_CFG 0 2 = 2 then
      let n := d.localNow % oneSec
      d1.update (if 2 * n ≤ oneSec then (n : Int) else (n : Int) - (oneSec : Int)) 1
    else d1

/-- PPS_OUT rises at a whole second that it has not pulsed yet. -/
def Dev.opPpsOut (d : Dev) : Dev :=
  let sec := d.localNow / oneSec
  let lockOk := !d.cfB Reg.TIME_PPS_OUT 11 || d.servoState == 2 || d.servoState == 3
  let new := match d.time.ppsLast with | some k => decide (k < sec) | none => true
  if d.cfB Reg.TIME_PPS_OUT 10 && d.bit Reg.TIME_STATUS 4 && lockOk && new && d.fieldDriven && d.role != 2 then
    ({ d with time := { d.time with ppsHigh := true, ppsLast := some sec } } : Dev).send (.pin "PPS_OUT" 0 1)
  else d

/-! ## Ethernet ports and the transmit time stamp queue (R383, R387) -/

/-- A port, and its replacement. -/
def Dev.np (d : Dev) (p : Nat) : NetPort := mapGet {} d.net p
def Dev.setNp (d : Dev) (p : Nat) (x : NetPort) : Dev :=
  ({ d with net := mapSet {} d.net p x } : Dev).wrF (Reg.NET_PORT_TSQ_STATUS p) 0 5 x.tsq.length

/-- The port carries PTP (R386). -/
def Dev.ptpOn (d : Dev) (p : Nat) : Bool :=
  let m := d.cfF Reg.NET_CFG 0 2
  d.cfB (Reg.NET_PORT_CFG p) 0 && ((m == 1 && p == 0) || m == 2)

/-- PTP port state, as IEEE 1588 numbers it. -/
def Dev.portPtp (d : Dev) (p : Nat) : Nat := d.rdF (Reg.NET_PORT_STATUS p) 4 4
def Dev.setPortPtp (d : Dev) (p v : Nat) : Dev := d.wrF (Reg.NET_PORT_STATUS p) 4 4 v

/-- A time stamp is dropped: the first while the queue is full is logged. -/
def Dev.tsqDrop (d : Dev) (p : Nat) : Dev :=
  let d1 := ((d.bump (Reg.NET_PORT_TSQ_DROP p)).bump (Reg.NET_PORT_TS_LOST p)).setNp p { d.np p with req := none }
  if d.bit (Reg.NET_PORT_TSQ_STATUS p) 5 then d1
  else (d1.wrBit (Reg.NET_PORT_TSQ_STATUS p) 5 true).event 2 .tsqOverflow (vals [p])

/-- The MAC returns the egress time of a frame sent now. -/
def Dev.tsqPush (d : Dev) (p id : Nat) : Dev :=
  let x := d.np p
  if 16 ≤ x.tsq.length then d.tsqDrop p
  else d.setNp p { x with tsq := x.tsq ++ [⟨id, d.localNow + d.cfF (Reg.NET_PORT_LAT p) 16 16 * 65536⟩] }

/-- TSQ_OVERFLOW. -/
def Dev.opTsqOverflow (d : Dev) (p : Nat) : Dev := if 16 ≤ (d.np p).tsq.length then d.tsqDrop p else d

/-- TSQ_POP: the oldest entry goes to the message that waits for it. -/
def Dev.opTsqPop (d : Dev) (p : Nat) : Dev :=
  let x := d.np p
  match x.tsq with
  | [] => d
  | e :: rest =>
    let req := match x.req with
      | some (s, none) => if s = e.id then some (s, some e.time) else some (s, none)
      | r => r
    d.setNp p { x with tsq := rest, req := req }

/-- NET_LINK_UP. -/
def Dev.opNetUp (d : Dev) (p : Nat) : Dev :=
  if d.cfB (Reg.NET_PORT_CFG p) 0 && !d.bit (Reg.NET_PORT_STATUS p) 0 then
    let d1 := d.wrBit (Reg.NET_PORT_STATUS p) 0 true
    (if d1.ptpOn p then d1.setPortPtp p 4 else d1).event 2 .netLinkUp (vals [p])
  else d

/-- NET_LINK_DOWN. -/
def Dev.opNetDown (d : Dev) (p : Nat) : Dev :=
  if d.bit (Reg.NET_PORT_STATUS p) 0 then
    let x := d.np p
    let d1 := (d.wrBit (Reg.NET_PORT_STATUS p) 0 false).setNp p { x with best := none, sync := none, ms := none, req := none, resp := none }
    (if d1.ptpOn p then d1.setPortPtp p 2 else d1).event 2 .netLinkDown (vals [p])
  else d

/-! ## The PTP instance (R384-R386) -/

/-- The module's clockIdentity: its first MAC address as an EUI-64. -/
def Dev.clockId (d : Dev) : Nat :=
  let lo := d.rd (Reg.NET_PORT_MAC_LO 0)
  let hi := d.rd (Reg.NET_PORT_MAC_HI 0)
  let b : Nat → Nat := fun i => if i < 4 then fld lo (8 * i) 8 else fld hi (8 * (i - 4)) 8
  [b 0, b 1, b 2, 0xFF, 0xFE, b 3, b 4, b 5].foldl (fun acc x => acc * 256 + x) 0

/-- The portIdentity of a port. -/
def Dev.portId (d : Dev) (p : Nat) : Nat := d.clockId * 65536 + p + 1

/-- What the default data set comparison orders an Announce by. -/
def annKey (src : Nat) (a : PtpAnnounce) : List Nat :=
  [a.priority1.toNat, a.clockClass.toNat, a.accuracy.toNat, a.variance.toNat, a.priority2.toNat, a.gm.toNat, a.steps.toNat, src]

/-- The module's own data set. -/
def Dev.ownKey (d : Dev) : List Nat :=
  [d.cfF Reg.NET_PRIO 0 8, d.cfF Reg.NET_PRIO 16 8, 0xFE, 0xFFFF, d.cfF Reg.NET_PRIO 8 8, d.clockId, 0, d.clockId * 65536]

/-- Lexicographic order. -/
def lexLt : List Nat → List Nat → Bool
  | a :: as_, b :: bs => decide (a < b) || (a == b && lexLt as_ bs)
  | [], _ :: _ => true
  | _, [] => false

/-- Ports that carry PTP and have a link. -/
def Dev.ptpPorts (d : Dev) : List Nat := [0, 1].filter (fun p => d.ptpOn p && d.bit (Reg.NET_PORT_STATUS p) 0)

/-- The port with the best foreign master. -/
def Dev.bestPort (d : Dev) : Option (Nat × Nat × PtpAnnounce) :=
  d.ptpPorts.foldl (fun acc p =>
    match (d.np p).best, acc with
    | some (s, a), some (q, s', a') => if lexLt (annKey s a) (annKey s' a') then some (p, s, a) else some (q, s', a')
    | some (s, a), none => some (p, s, a)
    | none, r => r) none

/-- A port the algorithm would make MASTER (R386). -/
def Dev.masterState (d : Dev) : Nat :=
  if d.cfB Reg.NET_CFG 2 then 4 else if d.role = 2 ∨ (d.inHold ∧ d.bit Reg.SYS_STRAPS 6) then 7 else 6

/-- The state decision of one port. -/
def Dev.decidePort (d : Dev) (best : Option (Nat × Nat × PtpAnnounce)) (p : Nat) : Dev :=
  let own := d.ownKey
  let mine := (d.np p).best
  let lowClass := decide (d.cfF Reg.NET_PRIO 16 8 < 128)
  let st : Nat :=
    if lowClass then
      (match mine with
       | some (s, a) => if lexLt own (annKey s a) then d.masterState else 7
       | none => d.masterState)
    else
      (match best with
       | none => d.masterState
       | some (q, s, a) =>
         if lexLt own (annKey s a) then d.masterState
         else if q = p then (if d.portPtp p = 9 ∧ d.time.master = some (a.gm.toNat, s) then 9 else 8)
         else (match mine with
           | some (s', a') => if a'.gm = a.gm then 7 else if lexLt (annKey s' a') own then 7 else d.masterState
           | none => d.masterState))
  d.setPortPtp p st

/-- The state decision of every port; the new parent, grandmaster and timescale are shown, and a change of the source in
use puts the servo into holdover (R382). -/
def Dev.bmca (d : Dev) : Dev :=
  let best := d.bestPort
  let d1 := d.ptpPorts.foldl (fun acc p => acc.decidePort best p) d
  match best with
  | some (q, s, a) =>
    if d1.portPtp q = 8 ∨ d1.portPtp q = 9 then
      let utc := a.utcOffset.toNat + b2n a.utcValid * 0x10000 + b2n a.ptpTimescale * 0x20000
      let d2 := (d1.wr64 Reg.NET_GM_ID_LO a.gm.toNat).wr Reg.NET_UTC utc
      let key := some (a.gm.toNat, s)
      if d2.time.master = key then d2
      else
        let d3 : Dev := { d2 with time := { d2.time with master := key } }
        if d2.time.master.isSome && d2.cfF Reg.TIME_CFG 0 2 == 1 then d3.toHoldover true else d3
    else d1
  | none => d1

/-- Ingress time of a frame that arrives now (R385). -/
def Dev.ingress (d : Dev) (p : Nat) : Nat := d.localNow - d.cfF (Reg.NET_PORT_LAT p) 0 16 * 65536

/-- Send a PTP message; an event message asks for its egress time. -/
def Dev.ptpSend (d : Dev) (p type seq : Nat) (body : List Int) (stamp : Bool) : Dev :=
  let d1 := (d.send (.ptp p type seq body)).bump (Reg.NET_PORT_TX_COUNT p)
  if stamp then d1.tsqPush p seq else d1

/-- A path delay has been measured, in 2^-16 ns. -/
def Dev.setDelay (d : Dev) (p : Nat) (v : Rat) : Dev := d.wr (Reg.NET_PORT_MEAN_DELAY p) (uns 32 (satS 32 (pubI (v / 65536))))

/-- A Sync is complete on the slave port: t1 corrected, t2, interval.  The offset is an update when the source is PTP, and
the port asks for the path delay. -/
def Dev.syncDone (d : Dev) (p : Nat) (t1 t2 : Int) (logInt : Int) : Dev :=
  let ms := t2 - t1
  let delay := d.rdS (Reg.NET_PORT_MEAN_DELAY p) * 65536
  let seq := ((d.np p).seq + 1) % 65536
  let d1 := (d.setNp p { d.np p with sync := none, ms := some ms, req := some (seq, none), seq := seq }).setPortPtp p 9
  let d2 := d1.ptpSend p (if d.cfB Reg.NET_CFG 3 then 2 else 1) seq [] true
  if d2.cfF Reg.TIME_CFG 0 2 = 1 then d2.update (ms - delay) (pow2 logInt) else d2

/-- An accepted PTP message. -/
def Dev.ptpBody (d : Dev) (p : Nat) (h : PtpHead) (body : PtpBody) : Dev :=
  let x := d.np p
  let src := h.source.toNat
  let seq := h.seq.toNat
  let t2 := d.ingress p
  let slave := d.portPtp p == 8 || d.portPtp p == 9
  let parent := match x.best with | some (s, _) => s == src | none => false
  let mine := decide (h.requesting.toNat = d.portId p)
  match body with
  | .announce a =>
    let better := match x.best with
      | some (s, b) => s == src || lexLt (annKey src a) (annKey s b)
      | none => true
    if better then (d.setNp p { x with best := some (src, a) }).bmca else d
  | .sync two origin li =>
    if slave && parent then
      if two then d.setNp p { x with sync := some (src, seq, t2, h.correction, li) }
      else d.syncDone p ((origin : Int) + h.correction) t2 li
    else d
  | .followUp origin =>
    match x.sync with
    | some (s, q, t, c, li) =>
      if slave && parent && s == src && q == seq then d.syncDone p ((origin : Int) + c + h.correction) t li else d
    | none => d
  | .delayReq =>
    if d.portPtp p = 6 ∧ d.cfB Reg.NET_CFG 3 = false then
      d.ptpSend p 9 seq [(t2 : Int), h.correction, (src : Int)] false
    else d
  | .delayResp rx =>
    match x.req, x.ms with
    | some (s, some t3), some ms =>
      if slave && parent && mine && s == seq && !d.cfB Reg.NET_CFG 3 then
        (d.setNp p { x with req := none }).setDelay p ((((ms + ((rx : Int) - h.correction - (t3 : Int))) : Int) : Rat) / 2)
      else d
    | _, _ => d
  | .pdelayReq =>
    if d.cfB Reg.NET_CFG 3 then
      d.ptpSend p 3 seq [(t2 : Int), h.correction, (src : Int)] (!d.cfB Reg.NET_CFG 4)
    else d
  | .pdelayResp two rx =>
    match x.req with
    | some (s, some t1) =>
      if mine && s == seq && d.cfB Reg.NET_CFG 3 then
        if two then d.setNp p { x with resp := some (seq, rx, t2, h.correction) }
        else (d.setNp p { x with req := none }).setDelay p ((((t2 : Int) - (t1 : Int) - h.correction : Int) : Rat) / 2)
      else d
    | _ => d
  | .pdelayRespFollowUp origin =>
    match x.req, x.resp with
    | some (_, some t1), some (s, rx, t4, c) =>
      if mine && s == seq && d.cfB Reg.NET_CFG 3 then
        (d.setNp p { x with req := none, resp := none }).setDelay p
          ((((t4 : Int) - (t1 : Int) - ((origin : Int) - (rx : Int)) - c - h.correction : Int) : Rat) / 2)
      else d
    | _, _ => d
  | .other => d

/-- PTP_MESSAGE: an accepted message is processed; a message of another kind, domain or transport, or on a port without
PTP, is discarded and counted (R383, R384). -/
def Dev.opPtp (d : Dev) (p : Nat) (h : PtpHead) (body : PtpBody) : Dev :=
  if d.bit (Reg.NET_PORT_STATUS p) 0 = false then d
  else if d.ptpOn p = false ∨ h.transportOk = false ∨ h.domain.toNat ≠ d.cfF Reg.NET_CFG 8 8 ∨ body = .other then
    d.bump (Reg.NET_PORT_RX_DISCARD p)
  else (d.bump (Reg.NET_PORT_RX_COUNT p)).ptpBody p h body

/-! ## Meanings -/

/-- TIME_SNAPSHOT (R377). -/
def execTimeSnapshot (s : State) : Host.Outcome State Fault Refusal := s.onWrite Dev.opSnapshot

/-- SERVO_UPDATE (R378-R382). -/
def execServoUpdate (theta : Int) (tau : Nat) (s : State) : Host.Outcome State Fault Refusal :=
  s.withDev (s.dev.opServo theta (max 1 tau))

/-- TIME_STEP (R380). -/
def execTimeStep (q : Fin 16) (s : State) : Host.Outcome State Fault Refusal :=
  s.withDev (s.dev.runCmd q 0x0330 Dev.stepBody)

/-- TIME_STEP_TIMEOUT (R380). -/
def execTimeStepTimeout (s : State) : Host.Outcome State Fault Refusal := s.withDev s.dev.opStepTimeoutT

/-- TIME_HOLDOVER (R382). -/
def execTimeHoldover (cause : Fin 3) (s : State) : Host.Outcome State Fault Refusal := s.withDev (s.dev.opHoldover cause)

/-- PTP_MESSAGE (R384-R386). -/
def execPtpMessage (port : Fin 2) (head : PtpHead) (body : PtpBody) (s : State) : Host.Outcome State Fault Refusal :=
  s.withDev (s.dev.opPtp port head body)

/-- NET_LINK_UP (R393). -/
def execNetLinkUp (port : Fin 2) (s : State) : Host.Outcome State Fault Refusal := s.withDev (s.dev.opNetUp port)

/-- NET_LINK_DOWN (R393). -/
def execNetLinkDown (port : Fin 2) (s : State) : Host.Outcome State Fault Refusal := s.withDev (s.dev.opNetDown port)

/-- TSQ_POP (R387). -/
def execTsqPop (port : Fin 2) (s : State) : Host.Outcome State Fault Refusal := s.onWrite (fun d => d.opTsqPop port)

/-- TSQ_OVERFLOW (R387). -/
def execTsqOverflow (port : Fin 2) (s : State) : Host.Outcome State Fault Refusal := s.withDev (s.dev.opTsqOverflow port)

/-- TRIG_ARM (R388, R389). -/
def execTrigArm (value : Word) (s : State) : Host.Outcome State Fault Refusal := s.onWrite (fun d => d.opTrigArm value.toNat)

/-- TRIG_DISARM (R388). -/
def execTrigDisarm (value : Word) (s : State) : Host.Outcome State Fault Refusal := s.onWrite (fun d => d.opTrigDisarm value.toNat)

/-- PPS_IN (R391). -/
def execPpsIn (widthNs : Nat) (s : State) : Host.Outcome State Fault Refusal := s.withDev (s.dev.opPpsIn widthNs)

/-- PPS_OUT (R392). -/
def execPpsOut (s : State) : Host.Outcome State Fault Refusal := s.withDev s.dev.opPpsOut

/-- PPS_OUT_FALL (R392). -/
def execPpsOutFall (s : State) : Host.Outcome State Fault Refusal := s.withDev s.dev.opPpsFall

end Sys2Proof.Machine
end

