-- ==== Sys2Proof/Machine/Hold.lean ====
section
/-!
DEFINITION. Entry to HOLD and what leads there (R41, R69, R75, R76, R115): the fire permit, the end of the role, STOP, and
the commands after which a waiting STOP completes.
-/

namespace Sys2Proof.Machine

/-- Command both FIRE_PERMIT outputs on or off (R447). -/
def Dev.setPermit (d : Dev) (on : Bool) : Dev :=
  if d.bit Reg.SAFE_STATUS 0 == on && d.bit Reg.SAFE_STATUS 1 == on then d
  else
    let d1 := ((d.wrF Reg.SAFE_STATUS 0 2 (if on then 3 else 0)).send (.pin "FIRE_PERMIT" 1 (b2n on))).send
      (.pin "FIRE_PERMIT" 2 (b2n on))
    { d1 with safe := { d1.safe with cmdAt := d1.safe.evals, seenOff := on, low := [] } }

/-- The role becomes NONE (R416): ROLE and the field outputs are released, and what the role kept is dropped. -/
def Dev.dropRole (d : Dev) : Dev :=
  let d0 := d.release
  let p : PairSt := { d0.pair with runs := [], mismatch := none, resync := [], joined := 0, await := [], syncOut := [],
                                   stateIn := [], decisions := [], loops := [], jobX := [], master := 0, takeback := false,
                                   tkWait := none, own := [], theirs := [], reports := [] }
  let d1 : Dev := { d0 with pair := p }
  ((d1.wrF Reg.PAIR_STATUS 0 4 0).wrF Reg.PAIR_STATUS 9 2 0).wr64 Reg.PAIR_MATCH_RUN_LO 0

/-- Entry to HOLD (R75): `mid` stands for what its cause appends once firing has ended.  Every waiting STOP completes with the
number of jobs aborted. -/
def Dev.enterHold (d : Dev) (resigns : Bool) (mid : Dev → Dev) : Dev :=
  if d.inService then
    let n := d.activeIds.length
    let d1 := if resigns then d.resign 4 1 else d
    let d2 := (mid d1.abortActive).dropRole
    let d3 := ((d2.wrF Reg.SYS_STATUS 0 4 1).setPermit false).loopsOff
    let d4 := ((d3.wrBit Reg.FIRE_STATUS 0 true).outputs).retryAll
    d4.completeWhere (fun o => entOpcode o.entry == 0x0111) OK (fun _ => n)
  else mid d

/-- A STOP with MODE 1 waits, and no job is SCHEDULED or PRINTING any more: HOLD is entered. -/
def Dev.settleStop (d : Dev) : Dev :=
  if d.host.outs.any (fun o => entOpcode o.entry == 0x0111) && !d.anyActive then d.enterHold false id else d

/-- The body of STOP (R115). -/
def Dev.stopBody (d : Dev) (o : Out) : Dev :=
  if byteAt o.entry 8 = 0 then (d.keep o).enterHold false id else (d.keep o).settleStop

/-! ## Meanings -/

/-- LINE_TICK (R31, R34, R35, R148, R180, R248-R250, R254, R256, R259, R266, R269, R279-R281, R427). -/
def execLineTick (job : Nat) (s : State) : Host.Outcome State Fault Refusal := s.withDev (s.dev.opLineTick job).settleStop

/-- POSITION_LOST (R220, R257). -/
def execPositionLost (s : State) : Host.Outcome State Fault Refusal := s.withDev s.dev.opPositionLost.settleStop

/-- JOB_ABORT (R118, R131). -/
def execJobAbort (q : Fin 16) (s : State) : Host.Outcome State Fault Refusal :=
  s.withDev (s.dev.runMatched q 0x0122 ⟨[], [], none⟩ Dev.abortBody).retryAll.settleStop

/-- STOP (R115, R118). -/
def execStop (q : Fin 16) (s : State) : Host.Outcome State Fault Refusal :=
  s.withDev (s.dev.runMatched q 0x0111 ⟨[], [], none⟩ Dev.stopBody)

end Sys2Proof.Machine
end

