-- ==== Sys2Proof/Machine/Lanes.lean ====
section
/-!
DEFINITION. Serial lanes (R312-R331): rows of the equalisation table, retraining, bit-slip and deskew, loss of lock, test
loops and patterns, and the eye scan.
-/

namespace Sys2Proof.Machine

/-! ## Lanes and their owners (R312) -/

/-- Lane l is up. -/
def Dev.laneUp (d : Dev) (l : Nat) : Bool := d.bit (Reg.LANE_LN_STATUS l) 3

/-- Set UP of lane l, in its status and in LANE_UP. -/
def Dev.setLaneUp (d : Dev) (l : Nat) (up : Bool) : Dev :=
  (d.wrBit (Reg.LANE_LN_STATUS l) 3 up).wrBit (if l < 32 then Reg.LANE_UP_LO else Reg.LANE_UP_HI) (l % 32) up

/-- The lane is one of a two-lane 64b/66b group. -/
def isBlockLane (l : Nat) : Bool := decide (8 ≤ l ∧ l ≤ 25)

/-- The lane is lane 1 of its group. -/
def isLaneOne (l : Nat) : Bool := isBlockLane l && l % 2 == 1

/-- The rate of a lane in units of 125 Mb/s. -/
def Dev.laneRateOf (d : Dev) (l : Nat) : Nat :=
  if l < 8 then [0, 20, 40, 64, 128, 256].getD (d.rdF Reg.HOSTQ_STATUS 5 3) 0
  else if l < 24 then (if d.cfB (Reg.LACE_CFG ((l - 8) / 2)) 0 then 64 else 128)
  else if l < 26 then 128
  else if l < 34 then [10, 20, 25, 40, 50, 80, 100].getD (d.cfF (Reg.CXP_CAM_CFG ((l - 26) / 4)) 3 3) 0
  else 10

/-- The lane's owner loses it. -/
def Dev.ownerDown (d : Dev) (l : Nat) : Dev :=
  if l < 8 then d
  else if l < 24 then d.laceLaneDown ((l - 8) / 2) (l % 2)
  else if l < 26 then
    let had := d.shankUp
    let d1 := d.wrBit Reg.PAIR_STATUS (6 + l % 2) false
    if had && !d1.shankUp && d1.pairOn then d1.event 2 .pairShankDown (vals [d1.rd Reg.PAIR_EPOCH]) else d1
  else if l < 34 then
    let c := (l - 26) / 4
    if d.camUp c && (List.range (d.camLinks c)).all (fun k => !d.laneUp (26 + 4 * c + k)) then d.camDown c else d
  else d.opNetDown (l - 34)

/-- The lane's owner has it. -/
def Dev.ownerUp (d : Dev) (l : Nat) : Dev :=
  if 8 ≤ l ∧ l < 24 then d.laceLaneUp ((l - 8) / 2) (l % 2)
  else if l = 24 ∨ l = 25 then d.wrBit Reg.PAIR_STATUS (6 + l % 2) true
  else d

/-- A lane stops: it is down, and its owner loses it. -/
def Dev.laneStop (d : Dev) (l : Nat) : Dev :=
  if d.laneUp l then
    let d1 := ((d.setLaneUp l false).wrF (Reg.LANE_LN_STATUS l) 0 3 0).wrF (Reg.LANE_LN_RATE l) 0 16 0
    let hit := match d1.lane.scan with | some (k, _) => k == l | none => false
    let d2 : Dev := if hit then { d1 with lane := { d1.lane with scanDown := true } } else d1
    d2.ownerDown l
  else d

/-! ## Rows of the equalisation table (R320-R323) -/

/-- Rows of a table. -/
def Dev.eqRows (d : Dev) : Nat := d.tableNum 0x2201 6 2

/-- The first row of lane l in slot s with an alternate and a rate. -/
def Dev.eqFind (d : Dev) (l s alt rate : Nat) : Option Nat :=
  (List.range d.eqRows).find? (fun i =>
    let o := 32 + 16 * i
    d.tableNum 0x2201 o 1 == l && d.tableNum 0x2201 (o + 1) 1 == s + 2 * alt && d.tableNum 0x2201 (o + 2) 2 == rate)

/-- R322: the row of a lane for an alternate, and whether it is not of that alternate. -/
def Dev.eqRow (d : Dev) (l alt : Nat) : Option (Nat × Bool) :=
  let r := d.laneRateOf l
  let two : Nat → Option Nat := fun a =>
    match d.eqFind l d.slot a r with
    | some i => some i
    | none => d.eqFind l d.slot a 0
  match two alt with
  | some i => some (i, false)
  | none => if alt = 0 then none else (two 0).map (fun i => (i, true))

/-- Apply the row of a lane and its CDR bandwidth. -/
def Dev.applyRow (d : Dev) (l : Nat) : Dev :=
  let alt := d.rdF (Reg.LANE_LN_ALT_REQ l) 0 2
  let row := d.eqRow l alt
  let missing := match row with | some (_, m) => m | none => false
  let idx := match row with | some (i, _) => i | none => 0xFFFF
  let st := Reg.LANE_LN_STATUS l
  let d1 := (((d.wrF (Reg.LANE_LN_ROW l) 0 16 idx).wrF st 4 2 (if missing || row.isNone then 0 else alt)).wrBit st 6 missing).wrBit
    st 7 row.isNone
  let bw := mapSet 0 d1.lane.bw l (d1.cfF (Reg.LANE_LN_CFG l) 0 2)
  let d2 : Dev := { d1 with lane := { d1.lane with bw := bw, alt := mapSet 0 d1.lane.alt l alt } }
  let d3 := if missing then d2.event 2 .eqAltMissing (vals [l]) else d2
  if row.isNone then d3.event 2 .eqDefault (vals [l]) else d3

/-! ## Training (R315-R319, R324) -/

/-- Alignment and deskew of a lane that has its word boundary at `aligned`; the lane is up when both hold, and the
J2 transmitters are enabled (R63). -/
def Dev.laneSettle (d : Dev) (l : Nat) (aligned : Bool) (res : LaneRes) : Dev :=
  let st := Reg.LANE_LN_STATUS l
  let zeroOn := d.bit (Reg.LANE_LN_STATUS (l - 1)) 1
  let one := isLaneOne l && aligned && zeroOn
  let d1 := if one then d.wrF (Reg.LANE_LN_SKEW l) 0 8 (uns 8 (satS 8 res.skew)) else d
  let skewOk := !one || (res.steady && decide (-16 ≤ res.skew ∧ res.skew ≤ 16))
  let up := aligned && skewOk && !d.bit st 15 && d.pwr.j2
  let d2 := ((d1.wrBit st 1 aligned).wrBit st 2 (aligned && skewOk)).setLaneUp l up
  let d3 := if aligned && !skewOk then d2.event 2 .laneDeskewFail (vals [l]) else d2
  if up && !d.laneUp l then d3.ownerUp l else d3

/-- The word boundary of a lane that trains: its position after, and whether it is aligned (R316, R317). -/
def Dev.laneAlign (d : Dev) (l : Nat) (res : LaneRes) : Nat × Bool :=
  let pos := d.rdF (Reg.LANE_LN_STATUS l) 8 7
  match res.slip with
  | none => (pos, false)
  | some p =>
    if res.cdr = false then (pos, false)
    else if isBlockLane l = false then (pos, true)
    else if d.cfB (Reg.LANE_LN_CFG l) 2 then (p, true)
    else (pos, decide ((p : Nat) = pos))

/-- Errors that a lane counts while it trains or runs a pattern (R315, R330). -/
def Dev.laneErrs (d : Dev) (l : Nat) (sync bits : Nat) : Dev :=
  let d1 := d.bumpBy (Reg.LANE_LN_SYNC_ERR_COUNT l) sync
  if d1.bit (Reg.LANE_LN_TEST l) 5 then d1.bumpBy (Reg.LANE_LN_PRBS_ERR_COUNT l) bits else d1

/-- The retrain window of a lane is open (R324). -/
def Dev.windowOpen (d : Dev) (l : Nat) : Bool :=
  let twin := if l % 2 = 0 then l + 1 else l - 1
  if l < 8 then true
  else if l < 24 then
    let b := (l - 8) / 2
    (d.barJob b).isNone && (d.laneUp twin || d.cfB (Reg.LACE_CFG b) 1)
  else if l < 26 then d.laneUp twin
  else if l < 34 then !d.bit Reg.CXP_STATUS (2 + (l - 26) / 4)
  else d.inHold || !d.bit (Reg.NET_PORT_STATUS (l - 34)) 0

/-- An up lane has a change that waits for its window. -/
def Dev.laneChange (d : Dev) (l : Nat) : Bool :=
  d.rdF (Reg.LANE_LN_ALT_REQ l) 0 2 != mapGet 0 d.lane.alt l

/-- LANE_RETRAIN: a lane that is down, or whose window is open for a change, applies its row and trains, which completes a RETRAIN
that the host has requested (R8). -/
def Dev.opLaneRetrain (d : Dev) (l : Nat) (res : LaneRes) : Dev :=
  if d.laneUp l && !(d.windowOpen l && (d.laneChange l || decide (l < 8))) then d
  else
    let d1 := ((d.laneStop l).wrBit (Reg.LANE_LN_CTRL l) 1 false).applyRow l
    let a := d1.laneAlign l res
    let st := Reg.LANE_LN_STATUS l
    let d2 := ((d1.wrBit st 0 res.cdr).wrF st 8 7 a.1).wrF (Reg.LANE_LN_RATE l) 0 16 (if res.cdr then d1.laneRateOf l else 0)
    (d2.laneErrs l res.syncErrs res.bitErrs).laneSettle l a.2 res

/-- LANE_LOCK_LOST. -/
def Dev.opLockLost (d : Dev) (l errs : Nat) : Dev :=
  if d.laneUp l then
    (((d.laneErrs l errs 0).bump (Reg.LANE_LN_LOCKLOSS_COUNT l)).event 2 .laneLockLost (vals [l])).laneStop l
  else d

/-- BITSLIP: the word boundary moves one UI later, which completes the request; `res` says whether it is aligned there. -/
def Dev.opBitslip (d0 : Dev) (l : Nat) (res : LaneRes) : Dev :=
  if isBlockLane l = false then d0
  else
    let d := d0.wrBit (Reg.LANE_LN_CTRL l) 0 false
    let pos := (d.rdF (Reg.LANE_LN_STATUS l) 8 7 + 1) % 66
    let aligned := res.cdr && (match res.slip with | some p => decide ((p : Nat) = pos) | none => false)
    let d1 := if aligned then d else d.opLockLost l 0
    let d2 := (d1.wrF (Reg.LANE_LN_STATUS l) 8 7 pos).wrBit (Reg.LANE_LN_STATUS l) 0 res.cdr
    (d2.laneErrs l res.syncErrs res.bitErrs).laneSettle l aligned res

/-- RETRAIN: in HOLD the lane stops, and the bit reads 1 until it has trained again; in SERVICE it is refused and clears at
once (R8, R324). -/
def Dev.opRetrain (d : Dev) (l : Nat) : Dev :=
  if d.inService then d.event 2 .laneTestRefused (vals [l])
  else if d.inHold then (d.wrBit (Reg.LANE_LN_CTRL l) 1 true).laneStop l
  else d

/-- After CFG_COMMIT: LANE_EQ_ROWS and LANE_EQ_CRC, and the lanes whose row or bandwidth changes retrain (R324). -/
def Dev.laneCommit (d : Dev) : Dev :=
  let d1 := (d.wrF Reg.LANE_EQ_ROWS 0 16 d.eqRows).wr Reg.LANE_EQ_CRC (d.tableNum 0x2201 28 4)
  (List.range 36).foldl (fun acc l =>
    let row := match acc.eqRow l (acc.rdF (Reg.LANE_LN_ALT_REQ l) 0 2) with | some (i, _) => i | none => 0xFFFF
    if row ≠ acc.rdF (Reg.LANE_LN_ROW l) 0 16 ∨ acc.cfF (Reg.LANE_LN_CFG l) 0 2 ≠ mapGet 0 acc.lane.bw l
    then (if l < 8 then acc else acc.laneStop l) else acc) d1

/-! ## Test loops and patterns (R328-R330) -/

/-- LANE_TEST: a write of LANE_LNl_TEST. -/
def Dev.opLaneTest (d : Dev) (l v0 : Nat) : Dev :=
  let a := Reg.LANE_LN_TEST l
  let v := v0 % 64
  let old := d.rd a
  let loop := fld v 0 2
  let pat := fld v 2 3
  if d.inRecovery then d
  else if d.inService then (if v = 0 then d else d.writeIgnored a v0)
  else if l < 8 then (if v = 0 then d else d.writeIgnored a v0)
  else if loop = 3 ∧ 1 ≤ pat ∧ pat ≤ 3 then d.writeIgnored a v0
  else
    let badLoop := decide (26 ≤ l ∧ l ≤ 33 ∧ loop ≠ 0)
    let badPat := decide (3 < pat)
    let new := (if badLoop then fld old 0 2 else loop) + (if badPat then fld old 2 3 else pat) * 4 + fld v 5 1 * 32
    let d1 := if badLoop || badPat then d.writeIgnored a v0 else d
    let d2 := (d1.wr a new).wrBit (Reg.LANE_LN_STATUS l) 15 (new != 0)
    if new = 0 ∧ old = 0 then d2 else d2.laneStop l

/-- START sets every TEST register to 0 and retrains the lanes it changes. -/
def Dev.testsOff (d : Dev) : Dev :=
  (List.range 36).foldl (fun acc l =>
    if acc.rd (Reg.LANE_LN_TEST l) = 0 then acc
    else ((acc.wr (Reg.LANE_LN_TEST l) 0).wrBit (Reg.LANE_LN_STATUS l) 15 false).laneStop l) d

/-! ## Eye scan (R326, R327, R491) -/

/-- A scan of lane l starts. -/
def Dev.scanStart (d : Dev) (l : Nat) (host : Bool) : Dev :=
  let d1 : Dev := { d with lane := { d.lane with scan := some (l, host), scanDown := !d.laneUp l } }
  (d1.wrBit (Reg.LANE_LN_EYE_STAT l) 16 false).wr Reg.LANE_EYE_STATUS (1 + l * 0x100)

/-- The next scan, when none runs: the host's, then the module's own. -/
def Dev.scanNext (d : Dev) : Dev :=
  if d.lane.scan.isSome then d
  else
    match d.lane.hostNext, d.lane.queue with
    | some l, _ => ({ d with lane := { d.lane with hostNext := none } } : Dev).scanStart l true
    | none, l :: ls => ({ d with lane := { d.lane with queue := ls } } : Dev).scanStart l false
    | none, [] => d

/-- EYE_SCAN_GO: a write of `v`, whose GO bit is 1. -/
def Dev.opEyeGo (d : Dev) (v : Nat) : Dev :=
  let l := d.rdF Reg.LANE_EYE_CTRL 0 6
  if d.bit Reg.LANE_EYE_STATUS 1 ∨ 36 ≤ l then d.writeIgnored Reg.LANE_EYE_GO v
  else
    let d1 := d.wrBit Reg.LANE_EYE_GO 0 true
    if d1.lane.scan.isSome then
      ({ d1 with lane := { d1.lane with hostNext := some l } } : Dev).wrBit Reg.LANE_EYE_STATUS 1 true
    else d1.scanStart l true

/-- A margin scan's result enters the health record (R487, R489). -/
def Dev.marginResult (d : Dev) (l w h : Nat) : Dev :=
  let low := decide (w < d.cfF Reg.HLTH_CFG 16 7 ∨ h < 4 * d.cfF Reg.HLTH_CFG 24 8)
  let n := if low then mapGet 0 d.hlth.badScans l + 1 else 0
  { d with hlth := { d.hlth with widths := mapSet 0 d.hlth.widths l (w + 1), badScans := mapSet 0 d.hlth.badScans l n } }

/-- EYE_SCAN_DONE. -/
def Dev.opEyeDone (d : Dev) (w0 h0 : Nat) : Dev :=
  match d.lane.scan with
  | none => d
  | some (l, host) =>
    let down := d.lane.scanDown || !d.laneUp l
    let w := if down then 0 else w0
    let h := if down then 0 else h0
    let d1 := (d.wr (Reg.LANE_LN_EYE l) (w + h * 0x100)).wrBit (Reg.LANE_LN_EYE_STAT l) 17 down
    let d2 := d1.publish (Reg.LANE_LN_EYE_STAT l)
    let d3 := if host then d2 else d2.marginResult l w h
    let d4 : Dev := { d3 with lane := { d3.lane with scan := none, scanDown := false } }
    let d5 := if host && d4.lane.hostNext.isNone then d4.wrBit Reg.LANE_EYE_GO 0 false else d4
    (d5.wr Reg.LANE_EYE_STATUS (l * 0x100)).scanNext

/-- MARGIN_SCAN: every up lane is scanned. -/
def Dev.opMarginScan (d : Dev) : Dev :=
  let ups := (List.range 36).filter d.laneUp
  ({ d with lane := { d.lane with queue := d.lane.queue ++ ups.filter (fun l => !d.lane.queue.contains l) } } : Dev).scanNext

/-! ## Meanings -/

/-- LANE_LOCK_LOST (R315, R319). -/
def execLaneLockLost (lane : Fin 36) (syncErrs : Nat) (s : State) : Host.Outcome State Fault Refusal :=
  s.withDev (s.dev.opLockLost lane syncErrs)

/-- LANE_RETRAIN (R315-R319, R322, R324). -/
def execLaneRetrain (lane : Fin 36) (res : LaneRes) (s : State) : Host.Outcome State Fault Refusal :=
  s.withDev (s.dev.opLaneRetrain lane res)

/-- BITSLIP (R316). -/
def execBitslip (lane : Fin 36) (res : LaneRes) (s : State) : Host.Outcome State Fault Refusal :=
  s.onWrite (fun d => d.opBitslip lane res)

/-- RETRAIN (R324). -/
def execRetrain (lane : Fin 36) (s : State) : Host.Outcome State Fault Refusal := s.onWrite (fun d => d.opRetrain lane)

/-- ERR_RESTART (R330). -/
def execErrRestart (lane : Fin 36) (s : State) : Host.Outcome State Fault Refusal :=
  s.onWrite (fun d => d.wr (Reg.LANE_LN_PRBS_ERR_COUNT lane) 0)

/-- LANE_TEST (R328-R330). -/
def execLaneTest (lane : Fin 36) (value : Word) (s : State) : Host.Outcome State Fault Refusal :=
  s.onWrite (fun d => d.opLaneTest lane value.toNat)

/-- EYE_SCAN_GO (R326, R327). -/
def execEyeScanGo (s : State) : Host.Outcome State Fault Refusal := s.onWrite (fun d => d.opEyeGo 1)

/-- EYE_SCAN_DONE (R326, R327, R491). -/
def execEyeScanDone (width : Fin 65) (height : Fin 401) (s : State) : Host.Outcome State Fault Refusal :=
  s.withDev (s.dev.opEyeDone width height)

/-- MARGIN_SCAN (R491). -/
def execMarginScan (s : State) : Host.Outcome State Fault Refusal := s.withDev s.dev.opMarginScan

end Sys2Proof.Machine
end

