-- ==== Sys2Proof/Machine/Resync.lean ====
section
/-!
DEFINITION. Resynchronisation of the redundant pair (R437-R439): the resync line, the state items that the ACTIVE sends,
and what a SYNCING STANDBY makes of them.  R438 names the content of each item; its layout is the model's own.
-/

namespace Sys2Proof.Machine

/-! ## Numbers of an item -/

/-- The signed 64-bit numbers of an item. -/
def decInts : Nat → List Byte → List Int
  | 0, _ => []
  | n + 1, bs => if bs.isEmpty then [] else sgn 64 (numAt bs 0 8) :: decInts n (bs.drop 8)

/-- All numbers of a byte string. -/
def intsOf (bs : List Byte) : List Int := decInts (bs.length / 8) bs

/-- The number at a place of an item, as a Nat. -/
def natAt (xs : List Int) (i : Nat) : Nat := (xs.getD i 0).toNat

/-- A counted list of groups of `w` numbers. -/
def encList {α : Type} (f : α → List Int) (xs : List α) : List Int := (xs.length : Int) :: xs.flatMap f

/-- A counted list of groups of `w` numbers, and what follows it. -/
def decList {α : Type} (w : Nat) (f : List Int → α) : List Int → List α × List Int
  | [] => ([], [])
  | c :: r =>
    let n := min c.toNat r.length
    ((List.range n).map (fun i => f ((r.drop (w * i)).take w)), r.drop (w * n))

/-- Numbered rows (`encRows`), and what follows them. -/
def decRowsN : Nat → List Int → NMap (List Int) × List Int
  | 0, r => ([], r)
  | n + 1, k :: len :: r =>
    let m := decRowsN n (r.drop len.toNat)
    (mapSet [] m.1 k.toNat (r.take len.toNat), m.2)
  | _ + 1, r => ([], r)

/-- The rows after their count. -/
def decRows : List Int → NMap (List Int) × List Int
  | [] => ([], [])
  | c :: r => decRowsN (min c.toNat r.length) r

/-- Numbers two by two. -/
def pairUp : List Int → List (Nat × Nat)
  | a :: b :: r => (a.toNat, b.toNat) :: pairUp r
  | _ => []

/-! ## The resync line (R437) -/

/-- The first line of a plane's strip that starts at or after a line, and its strip: a strip stored, the next one expected,
or one as long as the last one beyond it. -/
def stripFrom (p : PlaneSt) (target : Nat) : Nat × Nat :=
  match p.strips.find? (fun s => decide (target ≤ s.firstLine)) with
  | some s => (s.firstLine, s.no)
  | none =>
    if target ≤ p.nextLine then (p.nextLine, p.nextStrip)
    else
      let len := match p.strips.getLast? with | some s => s.lineCount | none => 0
      if len = 0 then (p.nextLine, p.nextStrip)
      else (p.nextLine + cdiv (target - p.nextLine) len * len, p.nextStrip + cdiv (target - p.nextLine) len)

/-- The resync line of a job's bar and the strip it starts. -/
def Dev.resyncLine (d : Dev) (j : Job) (b : Nat) : Nat × Nat :=
  if j.phase ≠ .printing ∨ (d.bf b).job ≠ j.id ∨ (d.bf b).next = 0 then (0, 0)
  else
    let target := (d.bf b).next - 1 + d.lineRate * d.cf Reg.PAIR_SYNC_LEAD / 1000
    if j.rep then (if j.lines = 0 then 0 else cdiv target j.lines * j.lines, 0) else stripFrom (d.plane j.id b) target

/-! ## Items of the ACTIVE (R438) -/

/-- Bytes of one job in item 1: its descriptor entry; its state and grid origin; resync line and strip of each bar. -/
def Dev.jobItem (d : Dev) (j : Job) : List Byte :=
  let entry := match d.job.jdt.find? (fun e => e.job == j.id) with | some e => e.bytes | none => []
  let x0 : Int := match j.x0 with | some x => pubI x | none => 0
  let per := (List.range 8).flatMap (fun b =>
    let l := d.resyncLine j b
    if j.active && bitOf j.barMask b && !(j.onBar b).left then [1, (l.1 : Int), (l.2 : Int)] else [0, 0, 0])
  let body := (entry ++ List.replicate 512 0).take 512 ++
    encInts ([(match j.phase with | .admitted => 1 | .scheduled => 2 | _ => 3), (b2n j.run : Int), (b2n j.x0.isSome : Int), x0,
      (j.succs.length : Int)] ++ per ++ j.succs.map (fun i => (i : Int)))
  leBytes 8 body.length ++ body

/-- Item 2 of a bar: the active indices, then each bank as its length and bytes. -/
def Dev.bankItem (d : Dev) (b : Nat) : List Byte :=
  let x := d.bb b
  let one : List Byte → List Byte := fun bs => leBytes 8 bs.length ++ bs
  leBytes 8 (d.rd (Reg.RE_ACTIVE b)) ++ ([0, 1].flatMap (fun k => one (mapGet [] x.last k))) ++
    ([0, 1].flatMap (fun k => one (mapGet [] x.screens k))) ++ ((List.range 48).flatMap (fun k => one (mapGet [] x.maps k)))

/-- Item 3: the SEQ counter and the pending commit points, each with its bars. -/
def Dev.commitItem (d : Dev) : List Byte :=
  leBytes 8 d.job.commitSeq ++
    d.job.commits.flatMap (fun p => commitBytes p.cp ++ leBytes 8 ((p.bars.map (fun b => 2 ^ b)).sum))

/-- Changes of heads as numbers. -/
def chgInts (c : HeadChg) : List Int := [(c.line : Int), (c.head : Int), (b2n c.on : Int)]

/-- Item 4 of a bar. -/
def Dev.fireItem (d : Dev) (b : Nat) : List Byte :=
  let f := d.bf b
  encInts ([d.rdS (Reg.FIRE_BAR_TRIM b), d.rdS (Reg.FIRE_BAR_TRIM_TARGET b), (f.derate : Int), (f.blank : Int), (f.dead : Int),
    (f.stale : Int), (b2n f.suppressed : Int), (d.rd (Reg.FIRE_BAR_DERATED b) : Int), (d.rd (Reg.FIRE_BAR_STOPPED b) : Int),
    (b2n (d.bit Reg.FIRE_STATUS 1) : Int)] ++ encList chgInts f.derateChg ++ encList chgInts f.blankChg)

/-- Settle lines as numbers. -/
def settleInts (x : Nat × Settle) : List Int := [(x.1 : Int), (x.2.job : Int), (x.2.line : Int)]

/-- A ramp as numbers. -/
def rampInts (r : Option Ramp) : List Int :=
  match r with
  | none => [0]
  | some r =>
    let three : Nat × Int × Int → List Int := fun x => [(x.1 : Int), x.2.1, x.2.2]
    [1, (r.steps : Int), (r.dist : Int), (r.k : Int), (r.line : Int), (r.job : Int), (r.bank : Int), (r.seq : Int),
      (b2n r.stop : Int)] ++ encList three r.deltas ++ encList three r.epss

/-- Item 5 of a bar, with the base table its corrections count from. -/
def Dev.loopItem (d : Dev) (b : Nat) : List Byte :=
  let x := d.loop
  let two : Nat × Int → List Int := fun y => [(y.1 : Int), y.2]
  let ints := [(d.loopState 0 b : Int), (d.loopState 1 b : Int)] ++ encList two (x.delta.filter (fun y => y.1 / 192 == b)) ++
    encList two (x.eps.filter (fun y => y.1 / 12288 == b)) ++ encList settleInts (x.settle.filter (fun y => y.1 == b)) ++
    encList settleInts (x.headSettle.filter (fun y => y.1 / 24 == b)) ++
    encList settleInts (x.segSettle.filter (fun y => y.1 / 1536 == b)) ++
    encList settleInts (x.regSettle.filter (fun y => y.1 == b)) ++ rampInts (mapGet none x.ramps b) ++
    encRows ((x.awl.filter (fun y => y.1 / 24 == b)).map (fun y => (y.1, y.2.map Int.ofNat)))
  leBytes 8 ints.length ++ encInts ints ++ mapGet [] x.base b

/-- SYNC_REQ 1: the ACTIVE chooses the resync lines and sends items 1 to 5; items 6 to 8 follow at those lines. -/
def Dev.serveResync (d : Dev) : Dev :=
  let due : NMap (Option (Nat × Nat)) := (List.range 8).filterMap (fun b =>
    match d.barJob b with
    | some j => some (b, some ((d.resyncLine j b).1, 7))
    | none => none)
  let d1 : Dev := { d with pair := { d.pair with syncOut := due } }
  let d2 := d1.queueItem 1 0 (d1.job.jobs.flatMap d1.jobItem)
  let d3 := (List.range 8).foldl (fun acc b => acc.queueItem 2 b (acc.bankItem b)) d2
  let d4 := d3.queueItem 3 0 d3.commitItem
  (List.range 8).foldl (fun acc b => (acc.queueItem 4 b (acc.fireItem b)).queueItem 5 b (acc.loopItem b)) d4

/-! ## Items in the STANDBY (R437-R439) -/

/-- The record of a descriptor entry: its first 64 bytes and the plane entries of its bars. -/
def recordOfEntry (e : List Byte) : List Byte :=
  e.take 64 ++ (bitsOf 8 (byteAt e 6)).flatMap (fun b => (e.drop (64 + 32 * b)).take 32)

/-- Strips of a plane from the resync line on, or all of a repeat job's, are discarded, and the strip that starts there is
expected next. -/
def Dev.cutPlane (d : Dev) (j : Job) (b line strip : Nat) : Dev :=
  let p := d.plane j.id b
  let p1 : PlaneSt := { p with strips := if j.rep then [] else p.strips.filter (fun s => decide (s.firstLine < line)),
                               nextStrip := strip, nextLine := if j.rep then 0 else line, lastSeen := false, chainLines := 0,
                               decNext := strip, decCycle := if j.rep && j.lines != 0 then line / j.lines else 0,
                               broken := false, lines := p.lines.filter (fun x => decide (x.1 < line)), density := [],
                               lastDec := none, before := {} }
  let lanes := d.strip.lanes.filter (fun x => !(x.2.job == j.id && x.2.bar == b))
  ({ d with strip := { d.strip with lanes := lanes } } : Dev).setPlane j.id b p1

/-- The bar starts at its resync line: nothing of it is in the pipeline, and the line it issues next follows from the
grid (R249). -/
def Dev.resyncBar (d : Dev) (j : Job) (b line strip : Nat) : Dev :=
  let d1 := d.cutPlane j b line strip
  let next := match d1.findJob j.id with
    | some k => if k.x0.isSome && k.phase == .printing then ((k.nextTick : Int) - d1.omega b / 64).toNat else 0
    | none => 0
  let f := d1.bf b
  let r := d1.br b
  let d2 := (d1.setBf b { f with job := j.id, next := next, tick := none, period := none }).setBr b
    { r with front := line, handed := line, mid := [], blanks := [], out := [], kept := [], starvedTo := none, deadAt := [] }
  let p : PairSt := { d2.pair with resync := mapSet 0 d2.pair.resync b line, await := mapSet 0 d2.pair.await b 6,
                                   own := mapErase b d2.pair.own, theirs := mapErase b d2.pair.theirs }
  ({ d2 with pair := p } : Dev).event 2 .pairResubmit (vals [d2.rd Reg.PAIR_EPOCH, j.id, b, strip, line])

/-- The offset that the STANDBY takes off the ACTIVE's positions, in 2^-16 um: the median of the differences held, rounded
to a whole count of the source (R425). -/
def Dev.deltaX (d : Dev) : Rat :=
  match d.pair.offs with
  | [] => 0
  | xs =>
    let s := xs.mergeSort (fun a b => decide (a ≤ b))
    let med : Rat := ((s.getD ((s.length - 1) / 2) 0 + s.getD (s.length / 2) 0 : Int) : Rat) / 2
    let unit := d.scale d.src * 65536
    if unit = 0 then med else (roundAway (med / unit) : Rat) * unit

/-- One job of item 1. -/
def Dev.takeJob (d : Dev) (bs : List Byte) : Dev :=
  let r := recordOfEntry (bs.take 512)
  let xs := intsOf (bs.drop 512)
  let rep := byteAt bs 320 == 1
  let id := numAt r 0 4
  let d1 := if (d.findJob id).isSome then d else d.publishJob (jobOf r rep) r (d.ceilings (jobOf r rep))
  let ph : JobPhase := if natAt xs 0 = 1 then .admitted else if natAt xs 0 = 2 then .scheduled else .printing
  let succs := (List.range (natAt xs 4)).map (fun i => natAt xs (29 + i))
  let d2 := d1.modJob id (fun j => { j with phase := ph, run := natAt xs 1 == 1, succs := succs })
  let d3 := if natAt xs 2 = 1 then d2.setOrigin id (((xs.getD 3 0 : Int) : Rat) - d2.deltaX) false else d2
  (List.range 8).foldl (fun acc b =>
    match acc.findJob id with
    | some j => if natAt xs (5 + 3 * b) = 1 then acc.resyncBar j b (natAt xs (6 + 3 * b)) (natAt xs (7 + 3 * b)) else acc
    | none => acc) d3

/-- Item 1 cut into its jobs, each behind its length. -/
def cutJobs : Nat → List Byte → List (List Byte)
  | 0, _ => []
  | n + 1, bs =>
    if bs.isEmpty then []
    else
      let len := numAt bs 0 8
      (bs.drop 8).take len :: cutJobs n (bs.drop (8 + len))

/-- Item 1: jobs the ACTIVE no longer holds are aborted, the others are taken. -/
def Dev.takeJobs (d : Dev) (bs : List Byte) : Dev :=
  let js := cutJobs bs.length bs
  let ids := js.map (fun x => numAt x 0 4)
  let gone := (d.job.jobs.map (fun j => j.id)).filter (fun i => !ids.contains i)
  let d1 := gone.foldl (fun acc i => acc.abortJob i) d
  (js.foldl (fun acc x => acc.takeJob x) d1).assignLanes.showRates

/-- The banks of item 2: `k` counts Last tables, screen sets and maps in order. -/
def takeBanks (b : Nat) : Nat → Nat → List Byte → Dev → Dev
  | 0, _, _, d => d
  | n + 1, k, bs, d =>
    let len := numAt bs 0 8
    let v := (bs.drop 8).take len
    let d1 := if k < 2 then d.setBank b 1 0 k v else if k < 4 then d.setBank b 2 0 (k - 2) v
      else d.setBank b 3 ((k - 4) / 2) ((k - 4) % 2) v
    takeBanks b n (k + 1) (bs.drop (8 + len)) d1

/-- The records of item 3. -/
def takeCommits : Nat → List Byte → List Pend
  | 0, _ => []
  | n + 1, bs => if bs.isEmpty then [] else ⟨commitOf (bs.take 32), bitsOf 8 (numAt bs 32 8)⟩ :: takeCommits n (bs.drop 40)

/-- Item 3. -/
def Dev.takePending (d : Dev) (bs : List Byte) : Dev :=
  let ps := takeCommits (bs.length / 40 + 1) (bs.drop 8)
  ({ d with job := { d.job with commits := ps, commitSeq := numAt bs 0 8 } } : Dev).wrBit Reg.PAIR_STATUS 9
    (ps.any (fun p => p.cp.kind == 6))

/-- A change of a head from its numbers. -/
def chgOf (xs : List Int) : HeadChg := ⟨natAt xs 0, natAt xs 1, natAt xs 2 == 1⟩

/-- Item 4 of a bar. -/
def Dev.takeFire (d : Dev) (b : Nat) (bs : List Byte) : Dev :=
  let xs := intsOf bs
  let a := decList 3 chgOf (xs.drop 10)
  let c := decList 3 chgOf a.2
  let f := d.bf b
  let d1 := d.setBf b { f with derate := natAt xs 2, blank := natAt xs 3, dead := natAt xs 4, stale := natAt xs 5,
                               suppressed := natAt xs 6 == 1, derateChg := a.1, blankChg := c.1 }
  let d2 := (d1.wrS (Reg.FIRE_BAR_TRIM b) (xs.getD 0 0)).wrS (Reg.FIRE_BAR_TRIM_TARGET b) (xs.getD 1 0)
  let d3 := ((d2.wr (Reg.FIRE_BAR_DERATED b) (natAt xs 7)).wr (Reg.FIRE_BAR_STOPPED b) (natAt xs 8)).wrBit Reg.FIRE_STATUS 1
    (natAt xs 9 == 1)
  d3.wrS (Reg.FIRE_BAR_OMEGA b) (d3.omega b)

/-- Put numbered entries into a map. -/
def putAll {α : Type} [DecidableEq α] (dflt : α) (m : NMap α) (xs : List (Nat × α)) : NMap α :=
  xs.foldl (fun acc x => mapSet dflt acc x.1 x.2) m

/-- Item 5 of a bar. -/
def Dev.takeLoops (d : Dev) (b : Nat) (bs : List Byte) : Dev :=
  let n := numAt bs 0 8
  let xs := decInts n (bs.drop 8)
  let base := bs.drop (8 + 8 * n)
  let two : List Int → Nat × Int := fun y => (natAt y 0, y.getD 1 0)
  let set : List Int → Nat × Settle := fun y => (natAt y 0, { job := natAt y 1, line := natAt y 2 })
  let three : List Int → Nat × Int × Int := fun y => (natAt y 0, y.getD 1 0, y.getD 2 0)
  let de := decList 2 two (xs.drop 2)
  let ep := decList 2 two de.2
  let s0 := decList 3 set ep.2
  let s1 := decList 3 set s0.2
  let s2 := decList 3 set s1.2
  let s3 := decList 3 set s2.2
  let has := natAt s3.2 0 == 1
  let rds := decList 3 three (s3.2.drop 9)
  let res := decList 3 three rds.2
  let awl := if has then res.2 else s3.2.drop 1
  let ramp : Option Ramp :=
    if has then some { deltas := rds.1, epss := res.1, steps := natAt s3.2 1, dist := natAt s3.2 2, k := natAt s3.2 3,
                       line := natAt s3.2 4, job := natAt s3.2 5, bank := natAt s3.2 6, seq := natAt s3.2 7,
                       stop := natAt s3.2 8 == 1 }
    else none
  let x := d.loop
  let loop' : LoopSt :=
    { x with base := mapSet [] x.base b base, delta := putAll 0 (x.delta.filter (fun y => y.1 / 192 != b)) de.1,
             eps := putAll 0 (x.eps.filter (fun y => y.1 / 12288 != b)) ep.1,
             settle := putAll {} (mapErase b x.settle) s0.1,
             headSettle := putAll {} (x.headSettle.filter (fun y => y.1 / 24 != b)) s1.1,
             segSettle := putAll {} (x.segSettle.filter (fun y => y.1 / 1536 != b)) s2.1,
             regSettle := putAll {} (mapErase b x.regSettle) s3.1,
             awl := putAll [] (x.awl.filter (fun y => y.1 / 24 != b)) ((decRows awl).1.map (fun y => (y.1, y.2.map Int.toNat))) }
  let d1 := (({ d with loop := loop' } : Dev).setRamp b ramp).showDelta b
  (d1.setLoopState 0 b (natAt xs 0 % 4)).setLoopState 1 b (natAt xs 1 % 4)

/-- Item 6 of a bar: the context image of the chain open at its resync line; an image that fails its checks breaks the chain there
(R172). -/
def Dev.takeContext (d : Dev) (b : Nat) (bs : List Byte) : Dev :=
  match readImage bs with
  | some c => (d.setLane (24 + b) c).setPlane c.job c.bar { d.plane c.job c.bar with broken := c.broken }
  | none =>
    let job := (d.bf b).job
    let p := d.plane job b
    (d.setPlane job b { p with broken := true }).chainBroken job b p.decNext 0 13 (mapGet 0 d.pair.resync b)

/-- Item 7 or 8 of a bar has come. -/
def Dev.gotItem (d : Dev) (b item : Nat) : Dev :=
  { d with pair := { d.pair with await := mapMod 0 d.pair.await b (fun m => putFld m (item - 6) 1 0) } }

/-- Item 7 of a bar. -/
def Dev.takeEd (d : Dev) (b : Nat) (bs : List Byte) : Dev :=
  let xs := intsOf bs
  (d.setBr b { d.br b with edReset := natAt xs 0 == 1, ed := (decRows (xs.drop 1)).1 }).gotItem b 7

/-- Item 8 of a bar. -/
def Dev.takeDuty (d : Dev) (b : Nat) (bs : List Byte) : Dev :=
  let xs := intsOf bs
  let c := decRows (xs.drop 1)
  let e := decRows c.2
  (d.setBr b { d.br b with dutyLines := natAt xs 0, credit := c.1.map (fun x => (x.1, x.2.map Int.toNat)),
                           energy := e.1.map (fun x => (x.1, pairUp x.2)) }).gotItem b 8

/-- A whole item. -/
def Dev.takeItem (d : Dev) (item b : Nat) (bs : List Byte) : Dev :=
  if item = 1 then d.takeJobs bs
  else if item = 2 then takeBanks b 52 0 (bs.drop 8) (d.wr (Reg.RE_ACTIVE b) (numAt bs 0 8))
  else if item = 3 then d.takePending bs
  else if item = 4 then d.takeFire b bs
  else if item = 5 then d.takeLoops b bs
  else if item = 6 then d.takeContext b bs
  else if item = 7 then d.takeEd b bs
  else if item = 8 then d.takeDuty b bs
  else d

/-- A STATE frame in a SYNCING STANDBY: its bytes join those of its item; a whole item is decompressed and taken, and one
that does not decompress leaves the STANDBY OUT_OF_STEP. -/
def Dev.stateFrame (d : Dev) (more : Bool) (f : List Byte) : Dev :=
  let item := byteAt f 0
  let b := byteAt f 1 % 8
  let key := item * 256 + b
  if d.role ≠ 2 ∨ d.stepState ≠ 2 then d
  else
    let old := (mapGet [] d.pair.stateIn key).take (numAt f 4 4)
    let all := old ++ f.drop 8
    if more then { d with pair := { d.pair with stateIn := mapSet [] d.pair.stateIn key all } }
    else
      let d1 : Dev := { d with pair := { d.pair with stateIn := mapErase key d.pair.stateIn } }
      let r := inflate true 67108864 all [] none none
      if r.fault = 0 ∨ r.fault = 10 then d1.takeItem item b r.out else d1.outOfStep 5

end Sys2Proof.Machine
end

