-- ==== Sys2Proof/Machine/Pair.lean ====
section
/-!
DEFINITION. The redundant pair (R415-R441): frames of the Shank, formation, heartbeats, loss and takeover, shadowing,
mismatches, takeback, and the commands START and PAIR_CTRL.
-/

namespace Sys2Proof.Machine

/-! ## Frames (R419, R420) -/

/-- An epoch that the module has used or seen: EPOCH_MAX never falls (R417). -/
def Dev.seeEpoch (d : Dev) (e : Nat) : Dev := d.wr Reg.PAIR_EPOCH_MAX (max (d.rd Reg.PAIR_EPOCH_MAX) e)

/-- R420: SEQ of a non-heartbeat frame: the state after, and whether the frame counts.  The count starts again at 1 when the
partner has formed the pair anew; before formation every frame counts. -/
def Dev.shankSeq (d : Dev) (seq : Nat) : Dev × Bool :=
  let d1 : Dev := { d with pair := { d.pair with rxSeq := seq } }
  if d.formed = false ∨ seq = d.pair.rxSeq + 1 ∨ seq = 1 then (d1, true)
  else if seq ≤ d.pair.rxSeq then (d, decide (seq = 0))
  else (if d1.role = 2 then d1.outOfStep 5 else d1, true)

/-! ## Formation (R421, R423) -/

/-- CFG_DIGEST: the committed configuration without block NET and table 0x2201; the order of its bytes is the model's own. -/
def Dev.cfgDigest (d : Dev) : Nat :=
  let regs := (d.cfg.force.regs.filter (fun x => x.1 / 0x10000 != 6)).flatMap (fun x => leBytes 4 x.1 ++ leBytes 4 x.2.toNat)
  let tabs := (d.cfg.force.tables.filter (fun x => x.1 != 0x2201)).flatMap (fun x =>
    leBytes 4 x.1 ++ leBytes 4 x.2.len ++ mapRead 0 x.2.bytes 0 x.2.len)
  crc32c (regs ++ tabs)

/-- HELLO_SEND. -/
def Dev.opHelloSend (d : Dev) : Dev :=
  if d.pairOn then
    let turn := if d.pair.helloIn then (pubI (((5 * (d.tc - d.pair.echoAt) : Nat) : Rat) / 2)).toNat else 0
    d.shank 1 (leBytes 1 d.slot ++ leBytes 1 (b2n d.preferred + 2 * b2n d.inHold) ++
      leBytes 2 (d.rdF Reg.PAIR_PIPE_COMPAT 0 16) ++ leBytes 4 d.cfgDigest ++ leBytes 4 (d.rd Reg.PAIR_EPOCH_MAX) ++ leBytes 4 0 ++
      leBytes 8 d.tc ++ leBytes 8 d.pair.echo ++ leBytes 4 turn ++ leBytes 4 0)
  else d

/-- The pair forms, or what keeps it from forming shows (R423): `quick` tells that d is at most 1,000 ns. -/
def Dev.tryForm (d : Dev) (slot digest : Nat) (quick : Bool) : Dev :=
  if d.formed ∨ slot = d.slot ∨ d.pair.helloBoth = false then d
  else
    let compat := d.rdF Reg.PAIR_PIPE_COMPAT 0 16 == d.rdF Reg.PAIR_PIPE_COMPAT 16 16
    let same := digest == d.cfgDigest
    let bad := !compat || !quick
    let fresh := (bad && !d.bit Reg.PAIR_STATUS 11) || (!same && !d.bit Reg.PAIR_STATUS 12)
    let d1 := (d.wrBit Reg.PAIR_STATUS 11 bad).wrBit Reg.PAIR_STATUS 12 (!same)
    let ep := vals [d.rd Reg.PAIR_EPOCH]
    if bad || !same then (if fresh then d1.event 2 .pairIncompatible ep else d1)
    else
      let p : PairSt := { d1.pair with txSeq := 0, counts := [], part := [] }
      (({ d1 with pair := p } : Dev).wrBit Reg.PAIR_STATUS 4 true).event 2 .pairFormed ep

/-- HELLO. -/
def Dev.helloFrame (d : Dev) (f : List Byte) : Dev :=
  let echo := numAt f 24 8
  let lat : Int := 5 * ((d.tc : Int) - (echo : Int)) - 2 * (numAt f 32 4 : Int)
  let p : PairSt := { d.pair with helloIn := true, echo := numAt f 16 8, echoAt := d.tc,
                                  helloBoth := d.pair.helloBoth || echo != 0, partnerHold := bitOf (byteAt f 1) 1 }
  let d1 := (({ d with pair := p } : Dev).wrF Reg.PAIR_PIPE_COMPAT 16 16 (numAt f 2 2)).seeEpoch (numAt f 8 4)
  if echo = 0 then d1
  else (d1.wrS Reg.PAIR_SHANK_NS (pubI ((lat : Rat) / 4))).tryForm (byteAt f 0) (numAt f 4 4) (decide (lat ≤ 4000))

/-! ## Becoming ACTIVE (R416, R417, R433, R434) -/

/-- The effect of a matched command that the STANDBY has started (R424, R434). -/
def Dev.matchedBody (opc : Nat) (dma : Dma) (d : Dev) (o : Out) : Dev :=
  if opc = 0x0111 then d.stopBody o
  else if opc = 0x0120 then d.admitBody dma o
  else if opc = 0x0121 then d.runBody o
  else if opc = 0x0122 then (d.abortBody o).settleStop
  else if opc = 0x0130 then d.commitBody o
  else if opc = 0x0210 then d.loadBody dma o
  else d.loopBody o

/-- R434: the matched commands that wait for a CMD frame run as the module's own. -/
def Dev.runWaits (d : Dev) : Dev :=
  let d1 : Dev := { d with pair := { d.pair with waits := [] } }
  d.pair.waits.foldl (fun acc w =>
    match acc.cmdCheck w.out.q w.out.entry with
    | some st => acc.complete w.out st 0 []
    | none => acc.matchedBody (entOpcode w.out.entry) w.dma w.out) d1

/-- R434: jobs without a JOB frame take their own origin. -/
def Dev.ownOrigins (d : Dev) : Dev :=
  (d.job.jobs.filter (fun j => j.active && j.x0.isNone)).foldl (fun acc j =>
    match j.own with
    | some (0, at_) => acc.setOrigin j.id ((sgn 64 at_ * 65536 : Int) : Rat) false
    | some (_, at_) => acc.modJob j.id (fun k => { k with startTime := some at_ })
    | none => acc) d

/-- A pending TAKEOVER has no effect any more once the role has changed by other means. -/
def Dev.dropTakeovers (d : Dev) : Dev :=
  let d1 : Dev := { d with job := { d.job with commits := d.job.commits.filter (fun p => p.cp.kind != 6) },
                           pair := { d.pair with master := 0 } }
  d1.wrBit Reg.PAIR_STATUS 9 false

/-- The STANDBY becomes ACTIVE with an epoch for a cause: 2 LOSS, 3 RESIGN_RECEIVED, 4 TAKEOVER_COMMIT. -/
def Dev.becomeActive (d : Dev) (cause epoch : Nat) : Dev :=
  let d1 := ((d.seeEpoch epoch).wr Reg.PAIR_EPOCH epoch).dropTakeovers
  let d2 := (d1.setRole 1 0 cause).wrBit Reg.PAIR_STATUS 10 false
  let p : PairSt := { d2.pair with takeback := false, resync := [], await := [], syncOut := [], stateIn := [] }
  let d3 : Dev := { d2 with pair := p, job := { d2.job with commitSeq := max d2.job.commitSeq d2.pair.partnerSeq } }
  let d4 := (d3.drive.emuTakeover.loopsHold 1).ownOrigins.showRates
  let d5 : Dev := { d4 with pair := { d4.pair with tkWait := some (cause, 64) } }
  (if d5.anyActive then d5 else d5.reportTakeover cause).runWaits

/-- The epoch that a new claim takes (R417). -/
def Dev.nextEpoch (d : Dev) : Nat := d.rd Reg.PAIR_EPOCH_MAX + 1

/-- PAIR_LOSS: no valid heartbeat for 32 us (R432). -/
def Dev.opPairLoss (d : Dev) : Dev :=
  if d.partnerAlive then
    let p : PairSt := { d.pair with hbLast := none, rxSeq := 0, helloIn := false, helloBoth := false, part := [] }
    let d1 := ((({ d with pair := p } : Dev).wrBit Reg.PAIR_STATUS 5 false).wrBit Reg.PAIR_STATUS 4 false).bumpBy
      Reg.PAIR_HB_MISS_COUNT 4
    let d2 := d1.event 2 .pairLoss (vals [d1.rd Reg.PAIR_EPOCH])
    if d2.role = 2 then (if d2.stepState = 2 then d2.enterHold false id else d2.becomeActive 2 d2.nextEpoch)
    else if d2.role = 1 then d2.showRates
    else d2
  else d

/-- R418: the ACTIVE is demoted. -/
def Dev.demote (d : Dev) : Dev :=
  let d1 := (d.release.dropTakeovers).setRole 2 1 5
  d1.event 2 .pairDemoted (vals [d1.rd Reg.PAIR_EPOCH])

/-! ## Heartbeats (R422, R425, R432) -/

/-- A print-affecting fault has been appended within the last 65,536 lines of its bar (R422). -/
def Dev.recentFault (d : Dev) : Bool :=
  d.pair.faultAt.any (fun x => decide ((d.bf x.1).issuedEver + 1 < x.2 + 65536))

/-- FLAGS of a heartbeat. -/
def Dev.hbFlags (d : Dev) : Nat :=
  d.stepState + 4 * b2n d.recentFault + 8 * b2n d.preferred + 16 * b2n (d.bit Reg.PAIR_STATUS 8)

/-- POS of a heartbeat: without a source in use its value is left open. -/
def Dev.hbPos (d : Dev) : Int × Dev :=
  if d.src = 7 then (((Config.freeWord d.freeCtr).toNat : Int), d.tick) else (pubI (d.measured * 65536), d)

/-- HEARTBEAT_SEND. -/
def Dev.opHeartbeatSend (d : Dev) : Dev :=
  if d.pairOn && d.shankUp then
    let pos := d.hbPos
    let n := d.localNow
    let body := leBytes 1 d.role ++ leBytes 1 d.hbFlags ++ leBytes 1 d.src ++ leBytes 1 0 ++ leBytes 4 (d.rd Reg.PLACE_CEILING) ++
      leBytes 8 (d.pair.hbSeq + 1) ++ leBytes 8 (n / oneSec) ++ leBytes 4 (n / 65536 % 1000000000) ++ leBytes 2 (n % 65536) ++
      leBytes 2 0 ++ leBytes 8 (uns 64 pos.1) ++ leBytes 16 0 ++ leBytes 4 d.job.commitSeq ++ leBytes 4 0
    let d1 : Dev := { pos.2 with pair := { pos.2.pair with hbSeq := d.pair.hbSeq + 1 } }
    d1.send (.shank d1.shankUpLanes 2 0 (d1.rd Reg.PAIR_EPOCH) 0 body)
  else d

/-- The own measured position at the position sample of a local time (2^-16 ns): samples are 1 us apart. -/
def Dev.measuredAt (d : Dev) (t : Nat) : Rat :=
  let back := (d.localAt d.pos.sample - (t : Int)).toNat
  let k := min (cdiv back 65536000) (d.pos.hist.length - 1)
  match d.pos.hist[k]? with
  | some cs => ((cs.getD d.src 0 : Int) : Rat) * d.scale d.src + d.pos.off
  | none => d.measured

/-- The STANDBY's position offset from a heartbeat of the ACTIVE (R425): the source SRC, the local time and POS it carries. -/
def Dev.posOffset (d : Dev) (src t : Nat) (pos : Int) : Dev :=
  if src ≠ d.src ∨ src = 7 then
    let d1 : Dev := { d with pair := { d.pair with offs := [], srcDiff := true } }
    if d.pair.srcDiff then d1 else (d1.event 2 .pairPosStep (vals [d1.rd Reg.PAIR_EPOCH])).outOfStep 6
  else
    let one := pos - pubI (d.measuredAt t * 65536)
    let full := decide (d.pair.offs.length = 128)
    let d1 : Dev := { d with pair := { d.pair with offs := (one :: d.pair.offs).take 128, srcDiff := false } }
    let d2 := d1.wrS64 Reg.PAIR_POS_OFFSET_LO (pubI d1.deltaX)
    if full && d.deltaX != d1.deltaX then (d2.event 2 .pairPosStep (vals [d2.rd Reg.PAIR_EPOCH])).outOfStep 6 else d2

/-- A STANDBY records its emulation targets at each heartbeat of the ACTIVE (R240). -/
def Dev.recordEmu (d : Dev) : Dev :=
  [0, 1].foldl (fun acc e => acc.setEmu e { acc.emuSt e with recorded := acc.emuTarget e }) d

/-- The partner's time as a source (R378, R422): every 128th heartbeat is an update. -/
def Dev.hbTime (d : Dev) (t : Nat) : Dev :=
  if d.cfF Reg.TIME_CFG 0 2 = 3 ∧ d.sourceLive then
    let n := d.pair.hbRecv + 1
    let d1 : Dev := { d with pair := { d.pair with hbRecv := n } }
    if n % 128 = 0 then d1.update ((d1.localNow : Int) - (t : Int) - d1.rdS Reg.PAIR_SHANK_NS * 65536) (128 / 125000) else d1
  else d

/-- What a STANDBY takes from a heartbeat of the ACTIVE. -/
def Dev.hbStandby (d : Dev) (epoch t : Nat) (body : List Byte) : Dev :=
  if d.role = 2 ∧ byteAt body 0 = 1 then
    ((d.wr Reg.PAIR_EPOCH epoch).recordEmu).posOffset (byteAt body 2) t (sgn 64 (numAt body 32 8))
  else d

/-- A heartbeat with the epoch of its frame. -/
def Dev.hbFrame (d : Dev) (epoch : Nat) (body : List Byte) : Dev :=
  let seq := numAt body 8 8
  let t := numAt body 16 8 * oneSec + fld (numAt body 24 4) 0 30 * 65536 + numAt body 28 2
  let miss := match d.pair.hbLast with | some l => if l + 1 < seq then seq - l - 1 else 0 | none => 0
  let d0 := (d.wrBit Reg.PAIR_STATUS 5 true).seeEpoch epoch
  if d.pair.hbLast = some seq then d0
  else
    let before := (d0.partnerInStep, d0.pair.partnerCeil)
    let p : PairSt := { d0.pair with hbLast := some seq, partnerSrc := byteAt body 2, partnerCeil := numAt body 4 4,
                                     partnerSeq := numAt body 56 4, partnerEpoch := epoch }
    let d1 := ((({ d0 with pair := p } : Dev).wrF Reg.PAIR_PARTNER 0 16 (numAt body 0 2)).bumpBy Reg.PAIR_HB_MISS_COUNT miss)
    let higher := decide (d1.rd Reg.PAIR_EPOCH < epoch ∨ (d1.rd Reg.PAIR_EPOCH = epoch ∧ d1.slot = 1))
    let d2 := if d1.role = 1 && byteAt body 0 == 1 && higher then d1.demote else d1
    let d3 := (d2.hbStandby epoch t body).hbTime t
    if d3.role = 1 ∧ before ≠ (d3.partnerInStep, d3.pair.partnerCeil) then d3.showRates else d3

/-! ## Commit points, decisions and loop outputs in the STANDBY (R426) -/

/-- A record reached the STANDBY too late (R426). -/
def Dev.lateRecord (d : Dev) : Dev := (d.bump Reg.PAIR_LATE_COUNT).outOfStep 3

/-- Take the oldest LOOP frame of a loop for a bar. -/
def Dev.popLoop (d : Dev) (loop b : Nat) : Dev × Option (List Byte) :=
  match d.pair.loops.find? (fun x => x.1 == loop && x.2.1 == b) with
  | none => (d, none)
  | some x => ({ d with pair := { d.pair with loops := d.pair.loops.erase x } }, some x.2.2.2)

/-- The STANDBY builds the bank that a COMMIT names from its own copies: the corrections or map of a LOOP frame, or the map
its own builder holds. -/
def Dev.buildBank (d : Dev) (b : Nat) (c : CommitRec) : Dev :=
  let head := c.arg % 256
  if c.kind = 1 ∧ c.origin = 2 then
    let r := d.popLoop 0 b
    match r.2 with
    | some es =>
      let d1 := (Dev.takeEntries b es (es.length / 8) r.1).showDelta b
      d1.setBank b 1 0 (c.arg % 2) (d1.loopBank b)
    | none => d
  else if c.kind = 2 ∧ c.origin = 2 then (d.popLoop 1 b).1
  else if c.kind = 4 ∧ c.origin = 2 then
    let r := d.popLoop 2 b
    match r.2 with
    | some m => r.1.setBank b 3 head (c.arg / 256 % 2) m
    | none => d
  else if c.kind = 4 ∧ c.origin = 1 then
    let x := d.bb b
    let m := mapGet [] x.waitMaps head
    if m = [] then d else (d.setBb b { x with waitMaps := mapErase head x.waitMaps }).setBank b 3 head (c.arg / 256 % 2) m
  else d

/-- COMMIT: the record is admitted here, its banks are built and checked.  A record with JOB 0 is the activation of a defect-list map on
a bar with no job, and is done at once (R198). -/
def Dev.commitFrame (d : Dev) (f : List Byte) : Dev :=
  if d.role ≠ 2 then d
  else
    let c := commitOf (f.take 32)
    let bars := if c.job = 0 then [c.bar % 8] else d.commitBars c
    let d1 := bars.foldl (fun acc b => acc.buildBank b c) d
    let bad := (commitBank c).1 != 0 && d1.commitCrc c (bars.headD 0) != numAt f 32 4
    let late := bars.any (fun b => decide (c.line < d.begun c.job b))
    let d2 := if c.job = 0 then d1.activateFree (c.bar % 8) (c.arg % 256) (c.arg / 256 % 2) c else d1.enqueueCommit c
    let d3 := if bad then d2.outOfStep 8 else d2
    if late then d3.lateRecord else d3

/-- The heads a DECISION names: one, or all. -/
def decHeads (h : Nat) : List Nat := if h = 0xFF then List.range 24 else if h < 24 then [h] else []

/-- DECISION: SKIP, SUPPRESS and RESUME_FIRING act with the token of their line; head decisions change what the tokens or
stage 9 do from their line; a bar quarantined or lost on the ACTIVE is lost here (R426). -/
def Dev.decisionFrame (d : Dev) (f : List Byte) : Dev :=
  let line := numAt f 0 8
  let b := byteAt f 8
  let head := byteAt f 9
  let k := byteAt f 10
  if d.role ≠ 2 ∨ 8 ≤ b then d
  else
    let late := if k = 4 ∨ k = 5 then decide (line < (d.br b).handed) else decide (k ≤ 7 ∧ line < (d.bf b).next)
    let d1 :=
      if k = 1 ∨ k = 2 ∨ k = 3 then
        let x : Decision := ⟨line, b, head, k, byteAt f 11, numAt f 12 4⟩
        { d with pair := { d.pair with decisions := d.pair.decisions ++ [x] } }
      else if k = 4 ∨ k = 5 then (decHeads head).foldl (fun acc h => acc.setDerate b h line (k == 4)) d
      else if k = 6 then (decHeads head).foldl (fun acc h => acc.stopHead b h line (byteAt f 11)) d
      else if k = 7 then (decHeads head).foldl (fun acc h => acc.resumeHead b h line) d
      else if k = 8 then d.barLost b false
      else if k = 9 then d.barLost b true
      else d
    if late then d1.lateRecord else d1

/-- LOOP: kept until the commit point that it prepares. -/
def Dev.loopFrame (d : Dev) (f : List Byte) : Dev :=
  if d.role = 2 then
    { d with pair := { d.pair with loops := d.pair.loops ++ [(byteAt f 0, byteAt f 1, numAt f 4 4, f.drop 8)] } }
  else d

/-- LINE_CRC: sixteen digests of a bar (R427). -/
def Dev.crcFrame (d : Dev) (f : List Byte) : Dev :=
  let b := byteAt f 8
  if d.role ≠ 2 ∨ 8 ≤ b ∨ d.syncing b then d
  else
    let new := (List.range 16).map (fun i => (numAt f 0 8 + i, numAt f (16 + 4 * i) 4))
    let theirs := mapSet [] d.pair.theirs b (mapGet [] d.pair.theirs b ++ new)
    ({ d with pair := { d.pair with theirs := theirs } } : Dev).compareLines b

/-- JOB: the grid origin of a job, less the position offset (R425). -/
def Dev.jobFrame (d : Dev) (f : List Byte) : Dev :=
  let id := numAt f 0 4
  if d.role ≠ 2 then d
  else
    let x : Rat := ((sgn 64 (numAt f 8 8) : Int) : Rat) - d.deltaX
    let active := match d.findJob id with | some j => j.active | none => false
    if active then d.setOrigin id x false
    else { d with pair := { d.pair with jobX := mapInsert id x (mapErase id d.pair.jobX) } }

/-! ## START (R76, R117, R416) -/

/-- No head has reported since START: VALID, AGE and the lines of R264 start again (FIRE_HEADg_TEMP). -/
def Dev.freshReports (d : Dev) : Dev :=
  let d1 := (List.range 192).foldl (fun acc g => acc.wrF (Reg.FIRE_HEAD_TEMP g) 16 12 0) d
  (List.range 8).foldl (fun acc b => acc.setBf b { acc.bf b with age := [] }) d1

/-- START leaves no trim on any bar (R253); FIRE_BARb_OMEGA shows the offset in force (R249). -/
def Dev.trimStart (d : Dev) : Dev :=
  ((List.range 8).foldl (fun acc b => ((acc.wrS (Reg.FIRE_BAR_TRIM b) 0).wrS (Reg.FIRE_BAR_TRIM_TARGET b) 0).wrBit
    (Reg.FIRE_BAR_STATUS b) 2 false) d).showOmega

/-- The module leaves HOLD for SERVICE; the outputs take their configured states (R76). -/
def Dev.enterService (d : Dev) : Dev :=
  let d1 := d.wrF Reg.SYS_STATUS 0 4 2
  let d2 := if d1.safe.safeAt.isSome then d1 else d1.wrF Reg.SAFE_BAR_INHIBIT 8 8 0
  ((((((d2.posStart.rezeroStart).cmpStart).emuStart).loopsOff).testsOff).freshReports).trimStart

/-- The module starts in a role with a step state: the role, then the outputs. -/
def Dev.startAs (d : Dev) (role step : Nat) : Dev :=
  let d1 := d.enterService
  let d2 := if d1.pairOn then d1.setRole role step 1 else d1
  let d3 := if role = 2 then d2.outputs else d2.drive.outputs
  d3.speedReact

/-- The ACTIVE's epoch is stored before its first frame (R417). -/
def Dev.startActive (d : Dev) (o : Out) : Dev :=
  let e := d.nextEpoch
  let d1 := (((d.wr Reg.PAIR_EPOCH_MAX e).wr Reg.PAIR_EPOCH e).startAs 1 0)
  let d2 := match o.mkey with | some (k, g) => if d1.formed then d1.shank 7 (cmdBody k g 0xFFFF 0) else d1 | none => d1
  d2.complete o OK 0 []

/-- The conditions of R117, in order. -/
def Dev.startRefusal (d : Dev) : Option Nat :=
  if d.cfg.session.isSome then some SESSION_OPEN
  else if d.cfgField ≠ 3 then some NOT_COMMITTED
  else if d.selftestFail then some SELFTEST_FAILED
  else if d.refFault then some REF_FAULT_PRESENT
  else if 1200 < sgn 16 (d.rdF Reg.HLTH_TEMP_BASE 0 16) then some BASEPLATE_HOT
  else none

/-- A START that waits for the preferred module's START meets its CMD frame (R416, R424). -/
def Dev.startResolve (d : Dev) (o : Out) (f : CmdFrame) : Dev :=
  let mine := match o.mkey with | some (_, g) => g == f.digest | none => false
  if mine = false then (d.complete { o with mkey := none } PAIR_MISMATCH 0 []).bump Reg.PAIR_CMD_MISMATCH_COUNT
  else if f.status ≠ 0 then d.complete { o with mkey := none } f.status f.result []
  else (d.startAs 2 0).complete { o with mkey := none } OK f.result []

/-- The body of START. -/
def Dev.startBody (d : Dev) (o0 : Out) : Dev :=
  match d.startRefusal with
  | some st => d.complete o0 st 0 []
  | none =>
    if d.pairOn = false then (d.startAs 0 0).complete o0 OK 0 []
    else
      let key := matchKey o0.entry (mapGet 0 d.pair.counts (countKey o0.entry))
      let o : Out := { o0 with mkey := some (key, d.matchDigest o0.entry ⟨[], [], none⟩) }
      if d.partnerAlive = false then d.startActive o
      else if d.partnerRole ≠ 0 then
        match d.pair.kept.find? (fun f => f.key == key && f.status == 0) with
        | some f =>
          let d1 : Dev := { d with pair := { d.pair with kept := d.pair.kept.filter (fun g => g.key != key) } }
          d1.startResolve o f
        | none =>
          if d.formed then ((d.startAs 2 2).startResync).complete o0 OK 0 [] else d.complete o0 PAIR_MISMATCH 0 []
      else if d.pair.partnerHold = false ∨ d.preferred then d.startActive o
      else { d with pair := { d.pair with startWait := some o } }

/-! ## Matched commands (R424) -/

/-- Keep a CMD frame that waits for its command. -/
def Dev.keepCmdFrame (d : Dev) (f : CmdFrame) : Dev :=
  { d with pair := { d.pair with kept := d.pair.kept.filter (fun g => g.key != f.key) ++ [f] } }

/-- A CMD frame for the command of its KEY that waits here. -/
def Dev.cmdFor (d : Dev) (f : CmdFrame) (w : PairWait) : Dev :=
  let rest := d.pair.waits.filter (fun x => x.key != f.key)
  let gone : Dev := { d with pair := { d.pair with waits := rest } }
  if f.status = 0xFFFF ∧ f.digest = w.digest then
    let mark : PairWait → PairWait := fun x => if x.key = f.key then { x with seen := true } else x
    { d with pair := { d.pair with waits := d.pair.waits.map mark } }
  else (gone.matchResolve w f (Dev.matchedBody (entOpcode w.out.entry) w.dma)).retryAll

/-- CMD. -/
def Dev.cmdFrame (d : Dev) (b : List Byte) : Dev :=
  let f : CmdFrame := ⟨numAt b 0 8, numAt b 8 4, numAt b 12 2, numAt b 16 4⟩
  if d.role = 1 then d
  else if d.role = 0 then
    match d.pair.startWait with
    | some o =>
      if (o.mkey.map Prod.fst) = some f.key then
        if f.status = 0xFFFF then d
        else ({ d with pair := { d.pair with startWait := none } } : Dev).startResolve o f
      else d.keepCmdFrame f
    | none => d.keepCmdFrame f
  else
    match d.pair.waits.find? (fun w => w.key == f.key) with
    | some w => d.cmdFor f w
    | none => d.keepCmdFrame f

/-- CMD_MATCH_TIMEOUT: PAIR_MATCH_MS pass without the command's frame, or the frame's command (R416, R424). -/
def Dev.opMatchTimeout (d : Dev) (key : Nat) : Dev :=
  match d.pair.startWait with
  | some o =>
    if (o.mkey.map Prod.fst) = some key then
      ({ d with pair := { d.pair with startWait := none } } : Dev).complete { o with mkey := none } OUT_OF_STEP 0 []
    else d
  | none =>
    match d.pair.waits.find? (fun w => w.key == key && !w.seen) with
    | some w =>
      ({ d with pair := { d.pair with waits := d.pair.waits.filter (fun x => x.key != key) } } : Dev).matchFail w.out
    | none =>
      if d.pair.kept.any (fun f => f.key == key) then
        let d1 : Dev := { d with pair := { d.pair with kept := d.pair.kept.filter (fun f => f.key != key) } }
        (d1.bump Reg.PAIR_CMD_MISMATCH_COUNT).outOfStep 4
      else d

/-! ## Mismatches (R430) -/

/-- The outcome of a mismatch once both faults are known. -/
def Dev.resolveMismatch (d : Dev) (m : Mismatch) (other : Bool) : Dev :=
  let act := if d.role = 1 then m.own else other
  let stb := if d.role = 1 then other else m.own
  let d1 : Dev := { d with pair := { d.pair with mismatch := none } }
  let d2 := if !act && !stb then d1.event 2 .pairMismatchUnresolved (vals [d1.rd Reg.PAIR_EPOCH, m.bar, m.line]) else d1
  if act && !stb && m.inStep then (if d2.role = 1 then d2.resign 3 1 else d2)
  else if d2.role = 2 then d2.outOfStep (if m.node then 2 else 1)
  else d2

/-- DIAG: the partner's fault; a mismatch that this module has not met itself begins with it. -/
def Dev.diagFrame (d : Dev) (f : List Byte) : Dev :=
  if d.role = 0 then d
  else
    let d1 := if d.pair.mismatch.isSome then d else d.mismatchAt (byteAt f 8 % 8) (numAt f 0 8) false
    match d1.pair.mismatch with
    | some m => d1.resolveMismatch m (byteAt f 9 == 1)
    | none => d1

/-- MISMATCH_RESOLVE_TIMEOUT: a missing DIAG counts as no fault. -/
def Dev.opResolveTimeout (d : Dev) : Dev :=
  match d.pair.mismatch with
  | some m => d.resolveMismatch m (m.other.getD false)
  | none => d

/-! ## Resignation, requests and planned takeover (R431, R435-R437) -/

/-- RESIGN: the STANDBY takes over. -/
def Dev.resignFrame (d : Dev) : Dev :=
  if d.role = 2 ∧ d.stepState ≠ 2 then d.becomeActive 3 d.nextEpoch else d

/-- SYNC_REQ: 1 resynchronisation, 2 takeback. -/
def Dev.syncFrame (d : Dev) (f : List Byte) : Dev :=
  if d.role ≠ 1 then d
  else if byteAt f 0 = 1 then d.serveResync
  else if byteAt f 0 = 2 then ({ d with pair := { d.pair with takeback := true } } : Dev).tryTakeback
  else d

/-- RELEASED: the new ACTIVE drives the outputs and takes the role, with the epoch of the TAKEOVER. -/
def Dev.releasedFrame (d : Dev) : Dev :=
  if d.role = 2 ∧ (d.takeoverPending ∨ d.pair.master ≠ 0) then d.becomeActive 4 (d.rd Reg.PAIR_EPOCH + 1) else d

/-- The body of PAIR_CTRL (R440). -/
def Dev.pairCtrlBody (d : Dev) (o : Out) : Dev :=
  let a := byteAt o.entry 8
  let ok : Dev → Dev := fun x => x.complete o OK (x.rd Reg.PAIR_EPOCH) []
  if d.role = 0 then d.complete o NOT_IN_PAIR 0 []
  else if a = 1 then
    if d.role ≠ 1 then d.complete o NOT_ACTIVE 0 []
    else if d.partnerInStep = false then d.complete o OUT_OF_STEP 0 []
    else ok (d.resign 1 d.partnerStep)
  else if a = 2 then (if d.role = 2 then ok d.startResync else d.complete o NOT_IN_PAIR 0 [])
  else if a = 3 then
    if d.role = 2 ∧ d.stepState = 0 ∧ d.preferred then ok (d.shank 0xC (leBytes 8 2))
    else d.complete o TAKEBACK_REFUSED 0 []
  else if d.role = 2 then ok (d.enterHold false id)
  else if d.partnerInStep then ok (d.enterHold true id)
  else d.complete o OUT_OF_STEP 0 []

/-! ## PORT_STATUS (R285, R298, R307, R418) -/

/-- Counter ticks of 8 line periods at the present rate; none while no lines are due. -/
def Dev.eightPeriods (d : Dev) : Option Nat := if d.lineRate = 0 then none else some (8 * 400000000 / d.lineRate)

/-- R418: a node follows the partner's port with a higher epoch; enough such reports demote the ACTIVE. -/
def Dev.nodeFollows (d : Dev) (b epoch : Nat) : Dev :=
  let reports := mapInsert b (d.tc, epoch) (mapErase b d.pair.reports)
  let fresh := reports.filter (fun x => d.barEn x.1 && decide (d.rd Reg.PAIR_EPOCH < x.2.2) &&
    (match d.eightPeriods with | some w => decide (d.tc ≤ x.2.1 + w) | none => true))
  let d1 : Dev := { d with pair := { d.pair with reports := reports } }
  if d1.role = 1 && decide (2 ≤ fresh.length ∨ (fresh.length = 1 ∧ d1.enBars.length = 1)) then
    (fresh.foldl (fun acc x => acc.seeEpoch x.2.2) d1).demote
  else d1

/-- PORT_STATUS. -/
def Dev.portStatus (b : Nat) (d : Dev) (f : List Byte) : Dev :=
  let fol := byteAt f 0
  let own := numAt f (4 + 4 * d.slot) 4
  let other := numAt f (8 - 4 * d.slot) 4
  if fol = 2 ∨ 3 < fol ∨ d.rd Reg.PAIR_EPOCH_MAX < own ∨ 23 < byteAt f 24 then d.impossible b
  else
    let epoch := if fol = 0 then numAt f 4 4 else if fol = 1 then numAt f 8 4 else 0
    let grown := decide (d.rd (Reg.LACE_MISMATCH_COUNT b) < numAt f 12 4)
    let d0 := ((d.wrF (Reg.LACE_STATUS b) 8 2 fol).wrBit (Reg.LACE_STATUS b) 10 (fol == d.slot)).wrF (Reg.LACE_STATUS b) 11 1
      (byteAt f 1 / 4)
    let d1 := (d0.wr (Reg.LACE_EPOCH_FOLLOWED b) epoch).wr (Reg.LACE_NODE_BRIDGED b) (numAt f 28 4)
    let d2 := d1.wr (Reg.LACE_MISMATCH_COUNT b) (numAt f 12 4)
    let d3 := if grown then (d2.wr64 (Reg.LACE_MM_LINE_LO b) (numAt f 16 8)).wr (Reg.LACE_MM_HEAD b) (byteAt f 24) else d2
    let d4 := if grown && d3.pairOn && d3.role != 0 then d3.mismatchAt b (numAt f 16 8) true else d3
    if d4.pairOn && fol + d4.slot == 1 && decide (d4.rd Reg.PAIR_EPOCH < other) then d4.nodeFollows b other
    else { d4 with pair := { d4.pair with reports := mapErase b d4.pair.reports } }

/-! ## Meanings -/

/-- START (R76, R117, R416). -/
def execStart (q : Fin 16) (s : State) : Host.Outcome State Fault Refusal :=
  s.withDev (s.dev.runMatched q 0x0110 ⟨[], [], none⟩ Dev.startBody)

/-- PAIR_CTRL (R440). -/
def execPairCtrl (q : Fin 16) (s : State) : Host.Outcome State Fault Refusal :=
  s.withDev (s.dev.runCmd q 0x0350 Dev.pairCtrlBody)

/-- HELLO_SEND (R421). -/
def execHelloSend (s : State) : Host.Outcome State Fault Refusal := s.withDev s.dev.opHelloSend

/-- HEARTBEAT_SEND (R421, R422). -/
def execHeartbeatSend (s : State) : Host.Outcome State Fault Refusal := s.withDev s.dev.opHeartbeatSend

/-- PAIR_LOSS (R432-R434). -/
def execPairLoss (s : State) : Host.Outcome State Fault Refusal := s.withDev s.dev.opPairLoss

/-- CMD_MATCH_TIMEOUT (R416, R424). -/
def execCmdMatchTimeout (key : Nat) (s : State) : Host.Outcome State Fault Refusal := s.withDev (s.dev.opMatchTimeout key)

/-- MISMATCH_RESOLVE_TIMEOUT (R430). -/
def execMismatchResolveTimeout (s : State) : Host.Outcome State Fault Refusal := s.withDev s.dev.opResolveTimeout

end Sys2Proof.Machine
end

