-- ==== Sys2Proof/Machine/Frames.lean ====
section
/-!
DEFINITION. Frames that arrive on Lace and on the Shank (R274, R275, R284, R294, R298-R300, R419-R421).  A frame is what its own TYPE and
KIND say, whichever row brings it (log entry 6).
-/

namespace Sys2Proof.Machine

/-! ## Lace -/

/-- The TYPE of the frames a node sends, by KIND; 0 for a KIND that no node sends (R285). -/
def nodeType (kind : Nat) : Nat :=
  if kind = 0x81 ∨ kind = 0x82 ∨ kind = 0x84 then 2
  else if kind = 0x10 ∨ kind = 0x11 ∨ kind = 0x12 ∨ kind = 0x13 ∨ kind = 0x14 then 3
  else if kind = 0x30 then 4
  else 0

/-- What the body of a checked frame does. -/
def Dev.nodeBody (d : Dev) (b kind : Nat) (f : List Byte) : Dev :=
  if kind = 0x81 then d.echoReply b f
  else if kind = 0x82 then d.authBody b f
  else if kind = 0x84 then d.setupAck b f
  else if kind = 0x10 then Dev.tempsBody b d f
  else if kind = 0x11 then Dev.fillBody b d f
  else if kind = 0x12 then Dev.statusFrame b d f
  else if kind = 0x13 then d.hmemData b f
  else if kind = 0x14 then d.senseData b f
  else Dev.portStatus b d f

/-- The checks of any frame (R298): KIND known for TYPE and direction, LENGTH, reserved fields zero; and before the session key exists
only ECHO_REPLY and AUTH_RESPONSE are sent (R284). -/
def laceFits (keyed : Bool) (type : Nat) (f : List Byte) : Bool :=
  let kind := byteAt f 0
  let n := numAt f 2 2
  let sizeOk : Bool := match bodySize kind with | some m => n == m | none => true
  nodeType kind != 0 && nodeType kind == type && (keyed || kind == 0x81 || kind == 0x82) && sizeOk && decide (byteAt f 1 < 2) &&
    zeroAt f 4 4 && zeroAt f (36 + n) 4 && bodyZero kind ((f.drop 16).take n)

/-- A frame without block error, of a TYPE of R275: CRC, tag, SEQ and the checks. -/
def Dev.laceFrame (d : Dev) (b type : Nat) (f : List Byte) : Dev :=
  if laceCrcOk f = false then d.bump (Reg.LACE_CRC_ERR_COUNT b)
  else
    let r := d.tagSeq b f
    if r.2 = false then r.1
    else if laceFits (d.ls b).key.isSome type f then r.1.nodeBody b (byteAt f 0) ((f.drop 16).take (numAt f 2 2))
    else r.1.impossible b

/-- A frame arrives from the node of a bar.  A port that is down, in training or quarantined reads nothing; a frame that finds the
bucket short is dropped (R300); one with a block error or a reserved TYPE counts as a CRC error (R274, R275). -/
def Dev.laceRx (d : Dev) (b : Nat) (bl : List Blk) : Dev :=
  let s := d.portState b
  if s < 2 ∨ s = 7 then d
  else
    let d1 := d.refill b
    let x := d1.ls b
    let need := 16 * frameSize bl
    if x.bucket < need then (d1.setLs b { x with flooded := true }).bump (Reg.LACE_RATE_DROP_COUNT b)
    else
      let d2 := d1.setLs b { x with bucket := x.bucket - need }
      match deframe bl with
      | some (t, f) => if 1 ≤ t ∧ t ≤ 4 then d2.laceFrame b t f else d2.bump (Reg.LACE_CRC_ERR_COUNT b)
      | none => d2.bump (Reg.LACE_CRC_ERR_COUNT b)

/-! ## The Shank -/

/-- A non-heartbeat frame in SEQ order; a body that goes on in further frames is taken when it is whole. -/
def Dev.shankWhole (d : Dev) (f : List Byte) (k : Dev → List Byte → Dev) : Dev :=
  let kind := byteAt f 0
  let all := mapGet [] d.pair.part kind ++ (f.drop 16).take (numAt f 2 2)
  if bitOf (byteAt f 1) 0 then { d with pair := { d.pair with part := mapSet [] d.pair.part kind all } }
  else k { d with pair := { d.pair with part := mapErase kind d.pair.part } } all

/-- What a frame of a KIND does. -/
def Dev.shankBody (kind : Nat) (d : Dev) (f : List Byte) : Dev :=
  if kind = 1 then d.helloFrame f
  else if kind = 3 then d.commitFrame f
  else if kind = 4 then d.decisionFrame f
  else if kind = 5 then d.loopFrame f
  else if kind = 6 then d.crcFrame f
  else if kind = 7 then d.cmdFrame f
  else if kind = 8 then d.jobFrame f
  else if kind = 0xA then d.resignFrame
  else if kind = 0xB then d.diagFrame f
  else if kind = 0xC then d.syncFrame f
  else d.releasedFrame

/-- A frame with a good CRC: a HEARTBEAT as it is, every other kind in SEQ order; a KIND that R421 does not name has no effect. -/
def Dev.shankFrame (d : Dev) (f : List Byte) : Dev :=
  let kind := byteAt f 0
  if kind = 2 then d.hbFrame (numAt f 4 4) ((f.drop 16).take (numAt f 2 2))
  else if kind = 0 ∨ 0xD < kind then d
  else
    let r := (d.seeEpoch (numAt f 4 4)).shankSeq (numAt f 8 8)
    if r.2 = false then r.1
    else if kind = 9 then r.1.stateFrame (bitOf (byteAt f 1) 0) ((f.drop 16).take (numAt f 2 2))
    else r.1.shankWhole f (Dev.shankBody kind)

/-- A frame arrives on the Shank: pair operation runs and a lane is up.  A block error, a TYPE that is not 0x10 and a failed CRC are
counted (R419). -/
def Dev.shankRx (d : Dev) (bl : List Blk) : Dev :=
  if d.pairOn = false ∨ d.shankUp = false then d
  else
    match deframe bl with
    | some (t, f) => if t = 0x10 ∧ shankCrcOk f then d.shankFrame f else d.bump Reg.PAIR_SHANK_CRC_COUNT
    | none => d.bump Reg.PAIR_SHANK_CRC_COUNT

/-! ## Meanings -/

/-- TEMPS (R261-R264, R298, R514). -/
def execTemps (bar : Fin 8) (frame : List Blk) (s : State) : Host.Outcome State Fault Refusal :=
  s.withDev (s.dev.laceRx bar frame)

/-- ECHO_REPLY (R286). -/
def execEchoReply (bar : Fin 8) (frame : List Blk) (s : State) : Host.Outcome State Fault Refusal :=
  s.withDev (s.dev.laceRx bar frame)

/-- AUTH_RESPONSE (R292, R299). -/
def execAuthResponse (bar : Fin 8) (frame : List Blk) (s : State) : Host.Outcome State Fault Refusal :=
  s.withDev (s.dev.laceRx bar frame)

/-- SETUP_ACK (R289, R298, R299). -/
def execSetupAck (bar : Fin 8) (frame : List Blk) (s : State) : Host.Outcome State Fault Refusal :=
  s.withDev (s.dev.laceRx bar frame)

/-- HMEM_DATA (R287, R288, R198). -/
def execHmemData (bar : Fin 8) (frame : List Blk) (s : State) : Host.Outcome State Fault Refusal :=
  s.withDev (s.dev.laceRx bar frame)

/-- SENSE_DATA (R297, R298). -/
def execSenseData (bar : Fin 8) (frame : List Blk) (s : State) : Host.Outcome State Fault Refusal :=
  s.withDev (s.dev.laceRx bar frame)

/-- FILL (R285, R298). -/
def execFill (bar : Fin 8) (frame : List Blk) (s : State) : Host.Outcome State Fault Refusal :=
  s.withDev (s.dev.laceRx bar frame)

/-- STATUS (R285, R291, R298). -/
def execStatus (bar : Fin 8) (frame : List Blk) (s : State) : Host.Outcome State Fault Refusal :=
  s.withDev (s.dev.laceRx bar frame)

/-- PORT_STATUS (R285, R298, R307, R418). -/
def execPortStatus (bar : Fin 8) (frame : List Blk) (s : State) : Host.Outcome State Fault Refusal :=
  s.withDev (s.dev.laceRx bar frame)

/-- HELLO (R421, R423). -/
def execHello (frame : List Blk) (s : State) : Host.Outcome State Fault Refusal := s.withDev (s.dev.shankRx frame)

/-- HEARTBEAT (R240, R418, R422, R425, R428). -/
def execHeartbeat (frame : List Blk) (s : State) : Host.Outcome State Fault Refusal := s.withDev (s.dev.shankRx frame)

/-- COMMIT (R38, R426). -/
def execCommit (frame : List Blk) (s : State) : Host.Outcome State Fault Refusal := s.withDev (s.dev.shankRx frame)

/-- DECISION (R267, R426). -/
def execDecision (frame : List Blk) (s : State) : Host.Outcome State Fault Refusal := s.withDev (s.dev.shankRx frame)

/-- LOOP (R370, R426). -/
def execLoop (frame : List Blk) (s : State) : Host.Outcome State Fault Refusal := s.withDev (s.dev.shankRx frame)

/-- LINE_CRC (R427). -/
def execLineCrc (frame : List Blk) (s : State) : Host.Outcome State Fault Refusal := s.withDev (s.dev.shankRx frame)

/-- CMD (R424). -/
def execCmd (frame : List Blk) (s : State) : Host.Outcome State Fault Refusal := s.withDev (s.dev.shankRx frame)

/-- JOB (R425). -/
def execJob (frame : List Blk) (s : State) : Host.Outcome State Fault Refusal := s.withDev (s.dev.shankRx frame)

/-- STATE (R438). -/
def execState (frame : List Blk) (s : State) : Host.Outcome State Fault Refusal := s.withDev (s.dev.shankRx frame)

/-- RESIGN (R431, R433). -/
def execResign (frame : List Blk) (s : State) : Host.Outcome State Fault Refusal := s.withDev (s.dev.shankRx frame)

/-- DIAG (R430). -/
def execDiag (frame : List Blk) (s : State) : Host.Outcome State Fault Refusal := s.withDev (s.dev.shankRx frame)

/-- SYNC_REQ (R436-R438). -/
def execSyncReq (frame : List Blk) (s : State) : Host.Outcome State Fault Refusal := s.withDev (s.dev.shankRx frame)

/-- RELEASED (R435). -/
def execReleased (frame : List Blk) (s : State) : Host.Outcome State Fault Refusal := s.withDev (s.dev.shankRx frame)

end Sys2Proof.Machine
end

