-- ==== Sys2Proof/Machine/Partition.lean ====
section
/-!
DEFINITION. The safety partition (R442-R467): its inputs and outputs, the safety functions, the safe state, and the safety
parameter set with its mailbox.
-/

namespace Sys2Proof.Machine

/-! ## Inputs (R445, R446, R449) -/

/-- One 100 us sample of a pulsed input, at phase `p` of its own test pulse: the level is ignored from the start of the pulse
until 300 us after its end, and what it shows in that time passes or fails the pulse. -/
def PulseIn.step (x : PulseIn) (p : Nat) (v : Bool) (now : Nat) : PulseIn :=
  let off := x.off || !v
  if p = 0 then { x with was := x.on, off := !v }
  else if p < 4 then { x with off := off }
  else if p = 4 then { x with off := off, passes := if x.was && off then x.passes + 1 else 0 }
  else { x with on := v, closedAt := if v && !x.on then now else x.closedAt }

/-- The input stayed on through its own pulse. -/
def PulseIn.stuck (x : PulseIn) : Bool := x.was && !x.off

/-- The phases of the three sources in their 20 ms: ESTOP2_SRC falls 10 ms after ESTOP1_SRC, KEY_SRC 5 ms before it. -/
def srcPhase (evals k : Nat) : Nat := (evals + 5 + (if k = 0 then 0 else if k = 1 then 100 else 150)) % 200

/-- The inputs: 0 ESTOP1_IN, 1 ESTOP2_IN, 2 KEY_IN. -/
def Dev.pin (d : Dev) (k : Nat) : PulseIn := mapGet {} d.safe.ins k

/-- Channel k is closed (R445): its contact is, and it has no wiring fault. -/
def Dev.closedCh (d : Dev) (k : Nat) : Bool := (d.pin k).on && !d.bit Reg.SAFE_FAULT (1 + k)

/-- A wiring fault of channel k is found at this sample. -/
def Dev.wiringFound (d : Dev) (k : Nat) (v : Bool) : Bool :=
  let own := srcPhase d.safe.evals k
  let other := srcPhase d.safe.evals (1 - k)
  (own == 4 && ((d.pin k).step own v 0).stuck) || (decide (other < 2) && decide (4 < own) && (d.pin k).on && !v)

/-- Latch a wiring fault. -/
def Dev.wiring (d : Dev) (k : Nat) : Dev :=
  if d.bit Reg.SAFE_FAULT (1 + k) then d
  else
    let s : SafeSt := { d.safe with opened := false, ins := mapMod {} d.safe.ins k (fun x => { x with passes := 0 }) }
    (({ d with safe := s } : Dev).wrBit Reg.SAFE_FAULT (1 + k) true).append 3 .safeWiringFault (vals [k + 1])

/-- DISC_TIME in evaluations. -/
def Dev.discTime (d : Dev) : Nat := 10 * d.rdF Reg.SAFE_TIMES 0 16

/-- Sample the three inputs. -/
def Dev.sampleIns (d : Dev) (in1 in2 key : Bool) : Dev :=
  let n := d.safe.evals
  let w1 := d.wiringFound 0 in1
  let w2 := d.wiringFound 1 in2
  let ins := [(0, in1), (1, in2), (2, key)].foldl
    (fun m (x : Nat × Bool) => mapMod {} m x.1 (fun p => p.step (srcPhase n x.1) x.2 n)) d.safe.ins
  let d1 : Dev := { d with safe := { d.safe with ins := ins } }
  let d2 := if w1 then d1.wiring 0 else d1
  let d3 := if w2 then d2.wiring 1 else d2
  let k := d3.pin 2
  let keyOn := if srcPhase n 2 < 5 then d.bit Reg.SAFE_INPUTS 2 else k.on && !k.stuck
  d3.wrF Reg.SAFE_INPUTS 0 3 (b2n (d3.closedCh 0) + 2 * b2n (d3.closedCh 1) + 4 * b2n keyOn)

/-- R446: latch and clear DISCREPANCY and the wiring faults. -/
def Dev.discrepancy (d : Dev) : Dev :=
  let n := d.safe.evals
  let one := d.closedCh 0 != d.closedCh 1
  let split := if one then (match d.safe.split with | some t => some t | none => some n) else none
  let d1 : Dev := { d with safe := { d.safe with split := split } }
  let late := match split with | some t => decide (d1.discTime < n - t) | none => false
  let d2 :=
    if late && !d1.bit Reg.SAFE_FAULT 0 then
      let d' : Dev := { d1 with safe := { d1.safe with opened := false } }
      ((d'.wrBit Reg.SAFE_FAULT 0 true).bump Reg.SAFE_DISC_COUNT).append 3 .safeDiscrepancy []
    else d1
  let a := d2.pin 0
  let b := d2.pin 1
  if d2.rdF Reg.SAFE_FAULT 0 3 = 0 then d2
  else if !a.on && !b.on then { d2 with safe := { d2.safe with opened := true } }
  else if a.on && b.on && d2.safe.opened then
    let apart := max a.closedAt b.closedAt - min a.closedAt b.closedAt
    if d2.discTime < apart then { d2 with safe := { d2.safe with opened := false } }
    else
      let d3 := d2.wrBit Reg.SAFE_FAULT 0 false
      let d4 := if 10 ≤ a.passes then d3.wrBit Reg.SAFE_FAULT 1 false else d3
      if 10 ≤ b.passes then d4.wrBit Reg.SAFE_FAULT 2 false else d4
  else d2

/-! ## The safe state (R457) -/

/-- A diagnostic latches a fault bit of SAFE_FAULT: the safe state. -/
def Dev.safeEnter (d : Dev) (bit : Nat) : Dev :=
  let d1 := d.wrBit Reg.SAFE_FAULT bit true
  if d1.bit Reg.SAFE_STATUS 3 then d1
  else
    let d2 := (d1.setPermit false).wrF Reg.SAFE_BAR_INHIBIT 8 8 0xFF
    let d3 := ((d2.wrBit Reg.SAFE_STATUS 3 true).bump Reg.SAFE_DIAG_COUNT).append 3 .safeState (vals [bit])
    let d4 : Dev := { d3 with safe := { d3.safe with safeAt := some d3.tc, safeBit := bit, asked := false } }
    d4.resign 2 1

/-- SAFE_STATE: a diagnostic fault; fault MRAM says that no stored copy is valid any more. -/
def Dev.opSafeState (d : Dev) (bit : Nat) : Dev :=
  let s : SafeSt := if bit = 8 then { d.safe with copyA := none, copyB := none } else d.safe
  ({ d with safe := s } : Dev).safeEnter bit

/-- R448: an output fails. -/
def Dev.outputFault (d : Dev) (k : Nat) : Dev :=
  if d.bit Reg.SAFE_FAULT (3 + k) then d
  else ((d.wrBit Reg.SAFE_FAULT (3 + k) true).append 3 .safeOutputFault (vals [k + 1])).safeEnter (3 + k)

/-! ## Outputs (R447, R448, R451) -/

/-- The condition of SF1. -/
def Dev.sf1 (d : Dev) : Bool :=
  !d.bit Reg.SAFE_INPUTS 0 || !d.bit Reg.SAFE_INPUTS 1 || d.rdF Reg.SAFE_FAULT 0 5 != 0

/-- Every condition of R447 holds. -/
def Dev.permitOk (d : Dev) : Bool :=
  d.inService && d.bit Reg.SAFE_INPUTS 0 && d.bit Reg.SAFE_INPUTS 1 && d.rdF Reg.SAFE_FAULT 0 3 == 0 &&
    d.bit Reg.SAFE_STATUS 5 && !d.bit Reg.SAFE_STATUS 3 && !d.bit Reg.SAFE_STATUS 6

/-- Read the outputs back: stuck outputs, and the switch-off that counts as a test of both channels. -/
def Dev.readback (d : Dev) (rb1 rb2 : Bool) : Dev :=
  let d0 := d.wrF Reg.SAFE_INPUTS 3 2 (b2n rb1 + 2 * b2n rb2)
  let since := d0.safe.evals - d0.safe.cmdAt
  if d0.bit Reg.SAFE_STATUS 0 then
    let low := [(0, rb1), (1, rb2)].foldl
      (fun m (x : Nat × Bool) => mapSet 0 m x.1 (if x.2 then 0 else mapGet 0 m x.1 + 1)) d0.safe.low
    let d1 : Dev := { d0 with safe := { d0.safe with low := low } }
    let d2 := if 6 < mapGet 0 low 0 then d1.outputFault 0 else d1
    if 6 < mapGet 0 low 1 then d2.outputFault 1 else d2
  else if !rb1 && !rb2 && !d0.safe.seenOff then
    let t := if since ≤ 3 then [(0, d0.tc), (1, d0.tc)] else d0.safe.tested
    { d0 with safe := { d0.safe with seenOff := true, tested := t } }
  else if 3 ≤ since then
    let d1 := if rb1 then d0.outputFault 0 else d0
    if rb2 then d1.outputFault 1 else d1
  else d0

/-- SF1 begins (R451, R452). -/
def Dev.sf1Begin (d : Dev) (before : Bool) : Dev :=
  if d.sf1 && (!before || !d.bit Reg.SAFE_STATUS 2) then
    ((d.wrBit Reg.SAFE_STATUS 2 true).bump Reg.SAFE_ESTOP_COUNT).append 3 .safeInhibit (vals [1])
  else d

/-- The permits follow R447, and SF1 or SF2 ends once they are on (R452). -/
def Dev.settlePermit (d : Dev) : Dev :=
  let d1 := d.setPermit d.permitOk
  if d1.permitOk && d1.bit Reg.SAFE_STATUS 2 then (d1.wrBit Reg.SAFE_STATUS 2 false).append 3 .safeRelease [] else d1

/-- SAFE_PT_AGE, TEST_OVERDUE and PAIR_PULSING (R448). -/
def Dev.showTests (d : Dev) : Dev :=
  let age := (d.tc - min (mapGet 0 d.safe.tested 0) (mapGet 0 d.safe.tested 1)) / 1440000000000
  let pulsing := d.formed && d.partnerAlive && d.partnerRole != 0
  let due := decide (d.rdF Reg.SAFE_TIMES 16 16 < age)
  let d1 := ((d.wr Reg.SAFE_PT_AGE (satU 32 age)).wrBit Reg.SAFE_STATUS 8 pulsing).wrBit Reg.SAFE_STATUS 7 due
  if due && !d.bit Reg.SAFE_STATUS 7 then d1.append 3 .safeTestDue [] else d1

/-- The test pulses of the sources (R445, R449): off for two evaluations from phase 0. -/
def Dev.pulseSources (d : Dev) : Dev :=
  (List.range 3).foldl
    (fun acc k => let p := srcPhase d.safe.evals k
      if p = 0 then acc.srcPin k false else if p = 2 then acc.srcPin k true else acc) d

/-- SAFETY_EVALUATION. -/
def Dev.opEvaluate (d : Dev) (in1 in2 key rb1 rb2 : Bool) : Dev :=
  let before := d.sf1
  let d1 := (((d.pulseSources).sampleIns in1 in2 key).discrepancy).readback rb1 rb2
  let d2 := ((d1.sf1Begin before).settlePermit).showTests
  { d2 with safe := { d2.safe with evals := d2.safe.evals + 1 } }

/-- PERMIT_TEST of a channel (R448). -/
def Dev.opPermitTest (d : Dev) (k : Nat) (ok : Bool) : Dev :=
  let hours := decide (1 < d.rd Reg.SAFE_PT_AGE)
  if d.bit Reg.SAFE_STATUS k && !d.bit Reg.SAFE_STATUS 3 && (d.bit Reg.SAFE_STATUS 8 || (!d.anyActive && hours)) then
    let d1 := d.send (.pin "FIRE_PERMIT" (k + 1) 0)
    if ok then
      ({ d1 with safe := { d1.safe with tested := mapSet 0 d1.safe.tested k d1.tc } } : Dev).send
        (.pin "FIRE_PERMIT" (k + 1) 1)
    else d1.outputFault k
  else d

/-! ## SF2 to SF4 (R453-R455) -/

/-- SAFE_SPEED_TRIP: quadrature edges of channel SPD_SRC in 1 ms. -/
def Dev.opSpeed (d : Dev) (edges : Nat) : Dev :=
  let v : Rat := ((edges * d.rd Reg.SAFE_SPD_SCALE * 60 : Nat) : Rat) / 16777216
  let trip : Rat := ((d.rd Reg.SAFE_SPEED_TRIP : Nat) : Rat)
  let d1 := d.wr Reg.SAFE_SPEED (satU 32 (pubI v).toNat)
  let low := decide (v < trip * 95 / 100)
  let from_ := if low then (match d1.safe.slowFrom with | some t => some t | none => some d1.tc) else none
  let d2 : Dev := { d1 with safe := { d1.safe with slowFrom := from_ } }
  if d2.bit Reg.SAFE_STATUS 6 then
    match from_ with
    | some t => if t + 40000000 ≤ d2.tc then d2.wrBit Reg.SAFE_STATUS 6 false else d2
    | none => d2
  else if trip < v then
    let d3 := ((d2.wrBit Reg.SAFE_STATUS 6 true).bump Reg.SAFE_TRIP_COUNT).append 3 .safeSpeedTrip
      (vals [d2.rd Reg.SAFE_SPEED])
    let d4 := d3.setPermit false
    if d4.bit Reg.SAFE_STATUS 2 then d4 else (d4.wrBit Reg.SAFE_STATUS 2 true).append 3 .safeInhibit (vals [2])
  else d2

/-- SAFE_BAR_INHIBIT: the oldest report of the copy port (R454). -/
def Dev.opOverTemp (d : Dev) : Dev :=
  match d.safe.copies with
  | [] => d
  | (b, ts, loc) :: rest =>
    let lim := d.tStop + 32
    let heads := bitsOf 24 (d.present b)
    let isHot : Nat → Bool := fun h => decide (lim ≤ ts.getD h 0)
    let failed := heads.any (fun h =>
      isHot h && mapGet false d.safe.hot (24 * b + h) && !d.bit (Reg.FIRE_BAR_STOPPED b) h && !bitOf loc h)
    let hot := (List.range 24).foldl (fun m h => mapSet false m (24 * b + h) (heads.contains h && isHot h)) d.safe.hot
    let calm := if failed then 0 else mapGet 0 d.safe.calm b + 1
    let s : SafeSt := { d.safe with copies := rest, hot := hot, calm := mapSet 0 d.safe.calm b calm }
    let d1 : Dev := { d with safe := s }
    if failed then
      if d1.bit Reg.SAFE_BAR_INHIBIT b then d1
      else (d1.wrBit Reg.SAFE_BAR_INHIBIT b true).append 3 .safeBarInhibit (vals [b])
    else if 8 ≤ calm then d1.wrBit Reg.SAFE_BAR_INHIBIT b false
    else d1

/-- W_n, M_n, W_h, E_h, DERATE_CAP, T_DERATE and T_STOP of the set in force. -/
def Dev.dutySet (d : Dev) : List Nat :=
  [d.rd Reg.SAFE_NOZ_W, d.rd Reg.SAFE_NOZ_M, d.rd Reg.SAFE_HEAD_W, d.rd Reg.SAFE_HEAD_E, d.rdF Reg.SAFE_LIMITS 0 8,
   d.rdF Reg.SAFE_TEMP 0 16, d.rdF Reg.SAFE_TEMP 16 16]

/-- DUTY_PARAMETER_CHECK: what the engines and the firing block of each bar hold (R455). -/
def Dev.opDutyCheck (d : Dev) (found : List (Fin 8 × List Nat)) : Dev :=
  found.foldl
    (fun acc x =>
      if x.2 = acc.dutySet ∨ acc.bit Reg.SAFE_BAR_INHIBIT (8 + x.1.val) then acc
      else
        ((acc.wrBit Reg.SAFE_BAR_INHIBIT (8 + x.1.val) true).append 3 .safeBarInhibit (vals [x.1.val])).resign 2 1) d

/-! ## The parameter set (R459-R464) -/

/-- The factory set. -/
def factorySet : List Byte :=
  let b := leBytes 4 0x53504653 ++ leBytes 8 1 ++ leBytes 4 0 ++ leBytes 16 0 ++ leBytes 4 4096 ++ leBytes 4 3482 ++
    leBytes 4 65536 ++ leBytes 4 402653184 ++ leBytes 2 880 ++ leBytes 2 960 ++ leBytes 1 60 ++ leBytes 1 110 ++ leBytes 2 0 ++
    leBytes 4 153670 ++ leBytes 4 0x1000000 ++ leBytes 2 50 ++ leBytes 2 24 ++ List.replicate 56 0
  b ++ leBytes 4 (crc32c b)

/-- The set a copy holds. -/
def copySet (bs : List Byte) : List Byte := if bs = [] then factorySet else bs

/-- K_I of a set. -/
def setKey (s : List Byte) : List Byte := (s.drop 16).take 16

/-- The ranges of R460 other than the key's. -/
def setRanges (s : List Byte) : Bool :=
  let wn := numAt s 32 4
  let wh := numAt s 40 4
  let td := sgn 16 (numAt s 48 2)
  let ts := sgn 16 (numAt s 50 2)
  numAt s 0 4 == 0x53504653 && byteAt s 4 == 1 && zeroAt s 5 7 && zeroAt s 55 1 && zeroAt s 68 56 &&
    decide (256 ≤ wn ∧ wn ≤ 65536) && decide (1 ≤ numAt s 36 4 ∧ numAt s 36 4 ≤ wn) &&
    decide (1024 ≤ wh ∧ wh ≤ 65536) && decide (1 ≤ numAt s 44 4 ∧ numAt s 44 4 ≤ 12288 * wh) &&
    decide (480 ≤ ts ∧ ts ≤ 1440) && decide (320 ≤ td ∧ td ≤ ts - 16) &&
    decide (10 ≤ byteAt s 52 ∧ byteAt s 52 ≤ 100) && decide (100 ≤ byteAt s 53 ∧ byteAt s 53 ≤ 150) &&
    decide (byteAt s 54 ≤ 3) && decide (1000 ≤ numAt s 56 4 ∧ numAt s 56 4 ≤ 300000) && numAt s 60 4 != 0 &&
    decide (10 ≤ numAt s 64 2 ∧ numAt s 64 2 ≤ 500) && decide (1 ≤ numAt s 66 2 ∧ numAt s 66 2 ≤ 168)

/-- The set to store for a proposed one: itself, or with the key in force for the keep-the-key form; none when its key is
refused (R460). -/
def Dev.keyedSet (d : Dev) (s : List Byte) : Option (List Byte) :=
  let zero := zeroAt s 16 16
  if numAt s 12 4 = 0xFFFFFFFF ∧ zero then
    if d.rd Reg.SAFE_KEY_ID = 0 then none
    else
      let b := s.take 12 ++ leBytes 4 (d.rd Reg.SAFE_KEY_ID) ++ d.safe.ki ++ (s.drop 32).take 92
      some (b ++ leBytes 4 (crc32c b))
  else if numAt s 12 4 = 0 ∨ zero then none
  else some s

/-- Show the set in force in the registers, and take its key (R461, R463). -/
def Dev.showSet (d : Dev) (seq : Nat) (s : List Byte) : Dev :=
  let key := numAt s 12 4
  let d1 := (((d.wr Reg.SAFE_SET_SEQ seq).wr Reg.SAFE_SET_CRC (numAt s 124 4)).wr Reg.SAFE_KEY_ID key).wrWords
    Reg.SAFE_NOZ_W [numAt s 32 4, numAt s 36 4, numAt s 40 4, numAt s 44 4, numAt s 48 4,
      byteAt s 52 + byteAt s 53 * 0x100 + byteAt s 54 % 4 * 0x10000, numAt s 56 4, numAt s 60 4, numAt s 64 4]
  let d2 := (d1.wrBit Reg.SAFE_STATUS 4 (seq != 0)).wrBit Reg.SAFE_STATUS 5 (key != 0)
  { d2 with safe := { d2.safe with ki := if key = 0 then [] else setKey s } }

/-- Store a set in the MRAM copies (R463): its sequence number, and the state after. -/
def Dev.storeSet (d : Dev) (s : List Byte) : Nat × Dev :=
  let num : Option (Nat × List Byte) → Nat := fun c => match c with | some x => x.1 | none => 0
  let a := num d.safe.copyA
  let b := num d.safe.copyB
  let seq := (max a b + 1) % 0x100000000
  let toA := d.safe.copyA.isNone || (d.safe.copyB.isSome && decide (a ≤ b))
  if toA then (seq, { d with safe := { d.safe with copyA := some (seq, s) } })
  else (seq, { d with safe := { d.safe with copyB := some (seq, s) } })

/-- The ports after a change of KEY_ID, K_I or T_STOP (R461, R464): an UP port links up again from step 1, and one that waits
at step 3 for a key goes on. -/
def Dev.relinkAll (d : Dev) : Dev :=
  (List.range 8).foldl
    (fun acc b =>
      if acc.laceUp b then (acc.endSession b).setPortState b 1
      else if acc.portState b == 3 && !(acc.ls b).chal then acc.startAuth b
      else acc) d

/-- A new set is put in force (R464). -/
def Dev.setInForce (d : Dev) (seq : Nat) (s : List Byte) : Dev :=
  let old := [d.rd Reg.SAFE_SET_SEQ, seq, d.rd Reg.SAFE_SET_CRC, numAt s 124 4]
  let changed := d.rd Reg.SAFE_KEY_ID != numAt s 12 4 || d.safe.ki != setKey s || d.rdF Reg.SAFE_TEMP 16 16 != numAt s 50 2
  let d1 := d.showSet seq s
  let d2 := if changed then d1.relinkAll else d1
  d2.append 3 .safeSetChanged (vals old)

/-- The mailbox shows the status of a proposal (R462). -/
def Dev.safeMailbox (d : Dev) (status : Nat) : Dev := (d.wr Reg.SAFE_MBOX_RESULT status).publish Reg.SAFE_MBOX_STAT

/-- A refused set changes nothing else. -/
def Dev.refuseSet (d : Dev) (o : Out) (status : Nat) : Dev :=
  ((d.safeMailbox status).append 3 .safeProposeRefused (vals [status])).complete o status 0 []

/-- The checks 3 to 5 of R462 on the 128 bytes, and the store. -/
def Dev.proposeSet (o : Out) (d : Dev) (s : List Byte) : Dev :=
  if crc32c s ≠ numAt o.entry 12 4 ∨ crc32c (s.take 124) ≠ numAt s 124 4 then d.refuseSet o SAFE_CRC
  else if d.bit Reg.SAFE_INPUTS 2 = false then d.refuseSet o SAFE_KEY_OPEN
  else if setRanges s = false then d.refuseSet o SAFE_REJECTED
  else
    match d.keyedSet s with
    | none => d.refuseSet o SAFE_REJECTED
    | some s' =>
      let r := d.storeSet s'
      let d1 := (r.2.setInForce r.1 s').safeMailbox OK
      d1.complete o OK (d1.rd Reg.SAFE_SET_CRC) []

/-- The body of SAFE_PROPOSE (R462). -/
def Dev.proposeBody (dma : Dma) (answers : Bool) (d : Dev) (o : Out) : Dev :=
  let d1 := d.wrBit Reg.SAFE_MBOX_STAT 16 false
  let n := match d1.buffer o.entry dma with | .ok els => some (bufTotal els) | _ => none
  if n.isSome && !answers then d1.complete o SAFE_TIMEOUT 0 []
  else if n.isSome && n != some 128 then d1.refuseSet o OUT_OF_RANGE
  else d1.dmaIn o dma (fun _ => none) (Dev.proposeSet o)

/-! ## Reset of the partition (R444, R458, R463) -/

/-- The partition at start-up: the valid copy with the higher sequence number, or the factory set with fault MRAM. -/
def Dev.partitionReset (d : Dev) (full : Bool) : Dev :=
  let s : SafeSt := { copyA := d.safe.copyA, copyB := d.safe.copyB, tested := [(0, d.tc), (1, d.tc)],
                      lastReset := if full then none else d.safe.lastReset }
  let d0 : Dev := { d with safe := s }
  let d1 := ((((d0.wr Reg.SAFE_STATUS 0).wr Reg.SAFE_INPUTS 0).wr Reg.SAFE_FAULT 0).wr Reg.SAFE_MBOX_STAT 0).wrWords
    Reg.SAFE_SPEED [0, 0, 0]
  let d2 := (if full then d1.wrWords Reg.SAFE_ESTOP_COUNT [0, 0, 0, 0] else d1).wr Reg.SAFE_MBOX_RESULT 0
  let best : Option (Nat × List Byte) :=
    match s.copyA, s.copyB with
    | some a, some b => if b.1 ≤ a.1 then some a else some b
    | some a, none => some a
    | none, b => b
  match best with
  | some x => d2.showSet x.1 (copySet x.2)
  | none => (d2.showSet 0 factorySet).safeEnter 8

/-! ## Meanings -/

/-- SAFETY_EVALUATION (R445-R448, R451, R452). -/
def execSafetyEvaluation (in1 in2 key rb1 rb2 : Bool) (s : State) : Host.Outcome State Fault Refusal :=
  s.withDev (s.dev.opEvaluate in1 in2 key rb1 rb2)

/-- PERMIT_TEST (R448). -/
def execPermitTest (chan : Fin 2) (ok : Bool) (s : State) : Host.Outcome State Fault Refusal :=
  s.withDev (s.dev.opPermitTest chan ok)

/-- SAFE_SPEED_TRIP (R451, R453). -/
def execSafeSpeedTrip (edges : Nat) (s : State) : Host.Outcome State Fault Refusal := s.withDev (s.dev.opSpeed edges)

/-- SAFE_BAR_INHIBIT (R454). -/
def execSafeBarInhibit (s : State) : Host.Outcome State Fault Refusal := s.withDev s.dev.opOverTemp

/-- DUTY_PARAMETER_CHECK (R455). -/
def execDutyParameterCheck (found : List (Fin 8 × List Nat)) (s : State) : Host.Outcome State Fault Refusal :=
  s.withDev (s.dev.opDutyCheck found)

/-- SAFE_STATE (R457): a lockstep, clock, SRAM, MRAM or supply fault. -/
def execSafeState (cause : Fin 5) (s : State) : Host.Outcome State Fault Refusal := s.withDev (s.dev.opSafeState (5 + cause))

/-- SAFE_PROPOSE (R462-R464). -/
def execSafePropose (q : Fin 16) (dma : Dma) (answers : Bool) (s : State) : Host.Outcome State Fault Refusal :=
  s.withDev (s.dev.runCmd q 0x0340 (Dev.proposeBody dma answers))

end Sys2Proof.Machine
end

