-- ==== Sys2Proof/Machine/Startup.lean ====
section
/-!
DEFINITION. Resets and the start-up sequence (R53, R70-R74, R85), the flush of the event log (R500), the verification of a
firmware image (R503), and the end of the J2 and J3 outputs.
-/

namespace Sys2Proof.Machine

/-! ## The log ring (R500) -/

/-- Drop the oldest records until the rest fits the 47 MiB ring. -/
def trimRing : Nat → List LogRec → List LogRec
  | _, [] => []
  | total, r :: rs => if total ≤ 49283072 then r :: rs else trimRing (total - recBytes r) rs

/-- Flush the staging buffer to the ring in MRAM. -/
def Dev.flushLog (d : Dev) : Dev :=
  if d.log.staging.isEmpty then d
  else
    let all := d.log.ring ++ d.log.staging
    let ring := trimRing ((all.map recBytes).sum) all
    let d1 : Dev := { d with log := { d.log with staging := [], ring := ring } }
    match ring with | r :: _ => d1.wr64 Reg.NVM_LOG_OLDEST_LO r.seq | [] => d1

/-! ## Firmware images (R503) -/

/-- An image is verified: MAGIC and FORMAT match, the reserved fields are zero, DIGEST matches and the signature is valid. -/
def imageVerified (bs : List Byte) : Bool :=
  let n := numAt bs 16 4
  numAt bs 0 4 == 0x46574D55 && byteAt bs 4 == 1 && zeroAt bs 5 3 && zeroAt bs 14 2 && zeroAt bs 20 4 && zeroAt bs 168 88 &&
    decide (1 ≤ n ∧ n ≤ 268435200) && decide (256 + n ≤ bs.length) &&
    Config.sha384 ((bs.drop 256).take n) == (bs.drop 24).take 48 && Config.ecdsaOk ((bs.drop 72).take 96) (bs.take 72)

/-- Image k, and its verification; the factory image is a signed one. -/
def Dev.img (d : Dev) (k : Nat) : ImgSt := mapGet {} d.hlth.imgs k
def Dev.imgOk (d : Dev) (k : Nat) : Bool := (d.img k).factory || imageVerified (d.img k).bytes

/-! ## Outputs (R53, R64) -/

/-- Every J3 output takes its unpowered state, and CLKREQ# is released; the heel domain's WAKE# is not among them (R53, R469). -/
def Dev.unpower (d : Dev) : Dev :=
  let d1 := (d.setPermit false).release
  let d2 := (List.range 8).foldl (fun acc k => (acc.wrBit (Reg.POS_CMP_STATUS k) 1 false).send (.pin "CMP" k 2)) d1
  let d3 := (List.range 2).foldl (fun acc e =>
    (((acc.wrBit (Reg.POS_EMU_STATUS e) 0 false).wrF (Reg.POS_SSI_STATUS e) 4 2 0).send (.pin "EMU" e 8)).send
      (.pin "SSI_CLK" e 2)) d2
  let d4 := (({ d3 with time := { d3.time with ppsHigh := false } } : Dev).send (.pin "PPS_OUT" 0 2)).send (.pin "SPEED_LIMIT" 0 0)
  (d4.sources false).clkReq false

/-- The J2 transmitters go to electrical idle: every lane is lost. -/
def Dev.j2Quiet (d : Dev) : Dev :=
  (List.range 36).foldl (fun acc l => acc.laneStop l) { d with pwr := { d.pwr with j2 := false } }

/-! ## What a reset keeps -/

/-- Registers that stand for the module itself or for what NVM and flash hold. -/
def nvmRegs : List Nat :=
  [Reg.SYS_ID, Reg.SYS_HWREV, Reg.SYS_FEAT_OFFER 0, Reg.NET_PORT_MAC_LO 0, Reg.NET_PORT_MAC_HI 0, Reg.PAIR_EPOCH_MAX,
   Reg.NVM_BOOT, Reg.NVM_IMGA_VER, Reg.NVM_IMGB_VER, Reg.NVM_POH, Reg.NVM_LOG_OLDEST_LO, Reg.NVM_LOG_OLDEST_HI,
   Reg.NVM_LOG_NEXT_LO, Reg.NVM_LOG_NEXT_HI]

/-- Registers that count since full reset, that hold until full reset, or that belong to the heel domain or to time: a warm
reset keeps them. -/
def warmRegs : List Nat :=
  [Reg.CLK_FAULT_COUNT, Reg.HOSTQ_CE_COUNT, Reg.HOSTQ_UE_COUNT, Reg.HOSTQ_FLR_COUNT, Reg.PLACE_REPLAN_COUNT,
   Reg.PLACE_BAR_STARVED 0, Reg.DFL_CMP_OK, Reg.DFL_IN_BYTES_LO, Reg.DFL_IN_BYTES_HI, Reg.DFL_OUT_BYTES_LO,
   Reg.DFL_OUT_BYTES_HI, Reg.DFL_OVERRUN_COUNT, Reg.DFL_STREAM_ERR_COUNT, Reg.DFL_SHORT_COUNT, Reg.DFL_CRC_ERR_COUNT,
   Reg.DFL_CHAIN_BROKEN_COUNT, Reg.DFL_VERIFY_FAIL_COUNT, Reg.DFL_LAST_ERR, Reg.DFL_LAST_ERR_STRIP, Reg.DFL_LAST_ERR_JOB,
   Reg.RE_DNC_LOST 0, Reg.RE_FAULT_INFO 0, Reg.RE_HEAD_REMOVED 0 0, Reg.RE_HEAD_DEMOTED 0 0, Reg.POS_DIR_CHANGES,
   Reg.POS_ENC_QERR_COUNT 0, Reg.POS_ENC_IDX_BAD_COUNT 0, Reg.POS_ENC_IDX_MISS_COUNT 0, Reg.POS_SSI_FRAME_COUNT 0,
   Reg.POS_SSI_BAD_COUNT 0, Reg.POS_CMP_FIRE_COUNT 0] ++
  [Reg.FIRE_OVERSTOP_COUNT, Reg.FIRE_DEFECT_COUNT, Reg.FIRE_BAR_SKIPPED 0, Reg.FIRE_BAR_SUPPRESSED 0,
   Reg.LACE_CRC_ERR_COUNT 0, Reg.LACE_TAG_FAIL_COUNT 0, Reg.LACE_RANGE_ERR_COUNT 0, Reg.LACE_RATE_DROP_COUNT 0,
   Reg.LACE_RESEND_COUNT 0, Reg.LACE_LINKUP_COUNT 0, Reg.LANE_LN_LOCKLOSS_COUNT 0, Reg.LANE_LN_SYNC_ERR_COUNT 0,
   Reg.LANE_LN_PRBS_ERR_COUNT 0, Reg.CXP_CAM_FRAME_LO 0, Reg.CXP_CAM_FRAME_HI 0, Reg.CXP_CAM_TRIG_SKIP 0,
   Reg.CXP_CAM_BRINGUP_COUNT 0, Reg.CXP_CAM_LINK_CRC_ERR 0 0, Reg.VPIPE_CAM_FRAMES 0, Reg.VPIPE_CAM_USABLE 0,
   Reg.VPIPE_CAM_SHORT_COUNT 0, Reg.VPIPE_CAM_LONG_COUNT 0, Reg.VPIPE_CAM_DROP_LINES 0, Reg.VPIPE_CAM_DISCARD_LINES 0,
   Reg.VPIPE_CAM_CRC_LINES 0, Reg.VPIPE_CAM_ARCHIVE_SKIP 0, Reg.LOOP_COL_CYCLES, Reg.LOOP_REG_CYCLES, Reg.LOOP_BAR_UPDATES 0,
   Reg.LOOP_BAR_LIMITED 0] ++
  [Reg.TIME_STATUS, Reg.TIME_RATE, Reg.TIME_OFFSET, Reg.TIME_HO_AGE, Reg.TIME_EST_ERR, Reg.TIME_STEP_COUNT, Reg.TIME_LAST_STEP,
   Reg.TIME_PPS_IN_SEQ, Reg.TIME_TRIG_FIRE_COUNT 0, Reg.NET_PORT_TSQ_DROP 0, Reg.NET_PORT_TS_LOST 0, Reg.NET_PORT_RX_COUNT 0,
   Reg.NET_PORT_TX_COUNT 0, Reg.NET_PORT_RX_DISCARD 0, Reg.MEMC_CH_CE_COUNT 0, Reg.MEMC_CH_UE_COUNT 0,
   Reg.MEMC_CH_CAPAR_COUNT 0, Reg.MEMC_CH_SRE_ABANDON_COUNT 0, Reg.MEMC_CH_SRX_EARLY_COUNT 0, Reg.MEMC_CH_PD_EXIT_COUNT 0,
   Reg.ARB_SWAP_COUNT, Reg.ARB_PORT_GRANT_COUNT 0, Reg.ARB_PORT_DISCARD_COUNT 0, Reg.PAIR_TAKEOVER_COUNT,
   Reg.PAIR_MISMATCH_COUNT, Reg.PAIR_LATE_COUNT, Reg.PAIR_HB_MISS_COUNT, Reg.PAIR_CMD_MISMATCH_COUNT,
   Reg.PAIR_SHANK_CRC_COUNT] ++
  [Reg.SAFE_ESTOP_COUNT, Reg.SAFE_DISC_COUNT, Reg.SAFE_TRIP_COUNT, Reg.SAFE_DIAG_COUNT, Reg.PWR_ENTRY_COUNT,
   Reg.PWR_ABORT_COUNT, Reg.PWR_DRAIN_ABORT_COUNT, Reg.HEEL_STATUS, Reg.HEEL_WAKE_MASK, Reg.HEEL_RETAIN, Reg.HEEL_LAST_WAKE,
   Reg.HEEL_LAST_WAKE_TIME_LO, Reg.HEEL_LAST_WAKE_TIME_HI, Reg.HEEL_WAKE_COUNT, Reg.HEEL_EXTRA_WAKES, Reg.HEEL_OSC_PPM,
   Reg.HLTH_STATUS, Reg.HLTH_REPLAN_COUNT, Reg.HLTH_LOG_DROP, Reg.HLTH_AVS 0, Reg.HLTH_DRAM 0, Reg.NVM_MRAM_ERR_COUNT,
   Reg.NVM_FLASH_ERR_COUNT]

/-- The address lies in a row of the list. -/
def inRows (rows : List Nat) (a : Nat) : Bool := match rowAt a with | some r => rows.contains r.base | none => false

/-- The registers after a reset: their reset values, but for those that it keeps. -/
def Dev.resetRegsOf (d : Dev) (full : Bool) : NMap Word :=
  let keep : Nat → Bool := fun a => inRows nvmRegs a || (!full && inRows warmRegs a)
  (d.regs.filter (fun e => keep e.1)).foldl (fun m e => mapSet 0 m e.1 e.2)
    ((resetRegs : NMap Word).filter (fun e => !keep e.1))

/-- What a reset keeps of the module's state; every plane, the staging image and the feature lock start again (R70).  A warm reset
keeps the heel domain and with it the wakes it has latched (R479); the position of EJECT outlasts every reset.  A forced removal that
waits for the PRESENT pins outlasts a warm reset and ends with a full one, mains applied among them, after which R63 alone holds J2
quiet (DESIGN CHOICE, log entry 110: R65 is silent on it). -/
def Dev.wiped (d : Dev) (full : Bool) : Dev :=
  let cams : NMap CamSt := if full then [] else d.cam.map (fun x => (x.1, { nextNo := x.2.nextNo }))
  let x := d.time
  let warm : TimeSt :=
    { nBase := x.nBase, cBase := x.cBase, i := x.i, started := x.started, thetas := x.thetas, lastAt := x.lastAt }
  let t : TimeSt := if full then {} else warm
  let h : HealthSt := if full then { d.hlth with lowSent := 0, goneSent := 0, widths := [], badScans := [], drifted := 0 }
    else { d.hlth with widths := [], badScans := [] }
  let pwr : PwrSt := { j2 := !full && d.pwr.j2, ejected := d.pwr.ejected, removed := !full && d.pwr.removed, straps := d.pwr.straps,
                       latched := if full then [] else d.pwr.latched, clkReq := d.pwr.clkReq, wakePin := d.pwr.wakePin }
  { tc := if full then 0 else d.tc, regs := d.resetRegsOf full, log := d.log, host := { hostMem := d.host.hostMem },
    cfg := { force := { regs := resetRwh }, copyA := d.cfg.copyA, copyB := d.cfg.copyB }, safe := d.safe, cam := cams, time := t,
    hlth := h, tx := d.tx, freeCtr := d.freeCtr,
    ctl := d.ctl, pwr := pwr }

/-! ## Start-up (R73, R74) -/

/-- STARTUP_FAIL with the step and what failed. -/
def Dev.startFail (d : Dev) (origin step what : Nat) : Dev := d.append origin .startupFail (vals [step, what])

/-- What outlasts a reset in the memory and the engines: the erasure marks of the health record (R400), and until full reset
failed channels and engines. -/
def Dev.carryFaults (d old : Dev) (full : Bool) : Dev :=
  let d1 := (List.range 4).foldl (fun acc c =>
    let was := old.rd (Reg.MEMC_CH_STATUS c)
    let failed := !full && !old.bit Reg.MEMC_STATUS c
    let st := 3 - (if failed then 3 else 0) + fld was 5 8 * 32 + (if failed then fld was 13 3 * 8192 else 0)
    let acc1 := ((acc.wr (Reg.MEMC_CH_STATUS c) st).wrBit Reg.MEMC_STATUS c (!failed)).wrBit Reg.PLACE_CH_OK c (!failed)
    let half := !full && old.bit (Reg.HLTH_DRAM c) 16
    let acc2 := acc1.wrF (Reg.MEMC_CH_REFRESH c) 0 16 (if half then 1950 else 3900)
    (List.range 2).foldl (fun a r => if bitOf was (5 + r) then
      a.event 1 .dramDeviceErased (vals [c, r, fld was (7 + 3 * r) 3]) else a) acc2) d
  if full then d1
  else
    (List.range 9).foldl (fun acc n =>
      if old.bit (Reg.RE_STATUS n) 4 then
        let a1 := acc.wr (Reg.RE_STATUS n) 0x1F
        if n < 8 then a1.wrF Reg.PLACE_RE_MAP (4 * n) 4 0xF else a1
      else acc) d1

/-- Step 5: channels that fail training. -/
def Dev.stepDram (d : Dev) (bad : Nat) : Dev :=
  let d1 := (bitsOf 4 bad).foldl (fun acc c =>
    let st := fld (acc.rd (Reg.MEMC_CH_STATUS c)) 5 8 * 32 + 8192
    (((acc.wr (Reg.MEMC_CH_STATUS c) st).wrBit Reg.MEMC_STATUS c false).wrBit Reg.PLACE_CH_OK c false).startFail 0 5 c) d
  let ok := bitsOf 4 (d1.rd Reg.PLACE_CH_OK)
  let d2 : Dev := { d1 with mem := { d1.mem with sysList := ok } }
  let d3 := if bad = 0 then d2 else d2.wrBit Reg.SYS_STATUS 10 true
  if ok.length ≤ 2 then d3.wrBit Reg.SYS_STATUS 11 true else d3

/-- The two stored copies as step 8 finds them (R85). -/
def CopySt.isBad : CopySt → Bool
  | .bad => true
  | _ => false
def CopySt.isValid : CopySt → Bool
  | .valid _ _ _ => true
  | _ => false

/-- The newest valid stored copy (R85): its sequence number, its feature set and its image. -/
def CfgSt.newest (c : CfgSt) : Option (Nat × List Nat × Image) :=
  match c.copyA, c.copyB with
  | .valid a fa ia, .valid b fb ib => if b ≤ a then some (a, fa, ia) else some (b, fb, ib)
  | .valid a fa ia, _ => some (a, fa, ia)
  | _, .valid b fb ib => some (b, fb, ib)
  | _, _ => none

/-- Step 8: HOLD, and the newest valid stored configuration located. -/
def Dev.stepHold (d : Dev) : Dev :=
  let a := d.cfg.copyA.isBad
  let b := d.cfg.copyB.isBad
  let some_ := d.cfg.copyA.isValid || d.cfg.copyB.isValid
  let d1 := ((d.wrF Reg.SYS_STATUS 0 4 1).wrF Reg.SYS_STATUS 4 3 (b2n some_)).wrF Reg.SYS_STATUS 7 2 (b2n a + 2 * b2n b)
  let d2 := if a then d1.append 0 .cfgCopyBad (vals [0]) else d1
  let d3 := if b then d2.append 0 .cfgCopyBad (vals [1]) else d2
  let d4 := d3.takeHealth d3.ctl.seq
  ({ d4 with cfg := { d4.cfg with located := d4.cfg.newest } } : Dev).holdOutputs

/-- The PCIe endpoint answers configuration requests with Configuration Request Retry Status: step 8 is not complete (R73).  A module
in RECOVERY, whose HOSTQ block answers (R74), answers them. -/
def Dev.configRetry (d : Dev) : Bool := d.pwr.stuck

/-- Steps 6 to 8 where step 5 has not ended the start-up (R74): two or more failed channels lead to HOLD at once; else the image that runs, the self-tests, and HOLD or RECOVERY. -/
def Dev.stepsUp (d : Dev) (tests : Option Nat) : Dev :=
  let sel := d.rdF Reg.NVM_BOOT 0 1
  let run : Nat → Dev → Dev := fun k x =>
    let y := (x.wrF Reg.SYS_STATUS 13 1 k).wr Reg.SYS_FW_VER (x.rd (if k = 0 then Reg.NVM_IMGA_VER else Reg.NVM_IMGB_VER))
    let z := y.wrF Reg.PAIR_PIPE_COMPAT 0 16 (if (y.img k).factory then 0 else numAt (y.img k).bytes 12 2)
    match tests with
    | some t => ((z.wrBit Reg.SYS_STATUS 11 true).startFail 0 7 t).stepHold
    | none => z.stepHold
  if d.bit Reg.SYS_STATUS 11 then d.stepHold
  else if d.imgOk sel then run sel d
  else if d.imgOk (1 - sel) then run (1 - sel) ((d.wrBit Reg.SYS_STATUS 12 true).startFail 0 6 sel)
  else (d.startFail 0 6 sel).wrF Reg.SYS_STATUS 0 4 3

/-- The sources of R70's table, by cause code, whose reset is full. -/
def isFull (cause : Nat) : Bool := cause == 0 || cause == 3 || cause == 4 || cause == 5 || cause == 7

/-- What the hardware outside the planes still shows after a reset: whether PERST# holds the link, and the quadrature states of the
encoder inputs (R208). -/
def Dev.keepPins (d old : Dev) (full : Bool) : Dev :=
  let d1 := if full then d else d.wrF Reg.HOSTQ_STATUS 8 1 (old.rdF Reg.HOSTQ_STATUS 8 1)
  (List.range 4).foldl (fun acc k => acc.wrF (Reg.POS_ENC_STATUS k) 6 2 (old.rdF (Reg.POS_ENC_STATUS k) 6 2)) d1

/-- A reset of a scope, with its cause code, and the start-up that follows (R70-R74).  Of two sources that act within the same 1 ms
the one that R70's table names first, the lower code, is recorded (R72), and the reset is full if either's is.  CLKREQ# is pulled
low at step 4 (R53). -/
def Dev.restart (d : Dev) (full0 : Bool) (cause0 : Nat) (up : StartUp) : Dev :=
  let full := full0 || (match up.also with | some c => isFull c.val | none => false)
  let cause := match up.also with | some c => min cause0 c.val | none => cause0
  let d0 := (if full then d else d.toHoldover false).wakeRelease
  let w := d0.wiped full
  let pins : Dev := { w with pwr := { w.pwr with straps := up.straps.toNat } }
  let d1 := (pins.wr Reg.SYS_STRAPS up.straps.toNat).wr Reg.SYS_LAST_RESET cause
  let d2 := (((d1.wrF Reg.TIME_STATUS 5 1 0).wrF Reg.TIME_STATUS 8 3 1).wrBit Reg.CLK_STATUS 0 (bitOf up.straps.toNat 5)).wr
    Reg.SYS_STATUS 0
  let d3 := ((d2.wrBit Reg.HLTH_STATUS 8 false).partitionReset full).clkReq true
  let d4 := d3.keepPins d full
  if up.pllOk then ((d4.carryFaults d full).stepDram up.badChannels.toNat).stepsUp up.testFails
  else
    ({ d4 with pwr := { d4.pwr with stuck := true } } : Dev).wrF Reg.CLK_STATUS 1 1 0 |>.startFail 4 4 0

/-- R71: a warm reset: the ACTIVE resigns, firing ends at the next line boundary, NVM writes complete, and it resets. -/
def Dev.warmRestart (d : Dev) (cause : Nat) (up : StartUp) : Dev :=
  ((d.enterHold true id).flushLog.unpower).restart false cause up

end Sys2Proof.Machine
end

