-- ==== Sys2Proof/Machine/Power.lean ====
section
/-!
DEFINITION. Power states, sleep and wake (R468-R483): the entry phases and their agents, aborts, the wake sources, the power
sequencer's budget, and the shelf's commands.  Time passes on an empty command queue: each clock edge lets one agent answer.
-/

namespace Sys2Proof.Machine

/-! ## Fields -/

/-- PWR_STATUS: STATE (0 RUN, 1 READY, 2 DOZE, 3 SLEEP, 4 DEEP_SLEEP, 5 OFF), ENTERING and PHASE. -/
def Dev.pState (d : Dev) : Nat := d.rdF Reg.PWR_STATUS 0 3
def Dev.entering (d : Dev) : Bool := d.bit Reg.PWR_STATUS 3
def Dev.phase (d : Dev) : Nat := d.rdF Reg.PWR_STATUS 4 3
def Dev.setEntry (d : Dev) (on : Bool) (phase : Nat) : Dev := d.wrF Reg.PWR_STATUS 3 4 (b2n on + 2 * phase)

/-- A command of an opcode has started and not completed. -/
def Dev.running (d : Dev) (opc : Nat) : Bool :=
  (d.host.outs ++ d.pair.waits.map PairWait.out).any (fun o => entOpcode o.entry == opc)

/-- The agents of R472 by number; those that refuse in phase 1. -/
def Dev.refuses (d : Dev) (a : Nat) : Bool :=
  if a = 2 then d.cfg.session.isSome
  else if a = 3 then !d.strip.cmpWait.isEmpty
  else if a = 4 then d.running 0x0210
  else if a = 5 then d.anyActive
  else if a = 7 then d.running 0x0220 || d.running 0x0221
  else if a = 8 then
    (List.range 8).any (fun k => d.bit (Reg.POS_CMP_STATUS k) 1 && (List.range 64).any (fun j => d.entState k j == 1))
  else if a = 10 then d.role == 2
  else if a = 11 then d.running 0x0360 || d.cam.any (fun x => x.2.cal.isSome)
  else false

/-- The agents, ascending. -/
def agents14 : List Nat := (List.range 14).map (fun i => i + 1)

/-! ## Refusals and aborts (R473, R474) -/

/-- PWR_LAST_ABORT and SLEEP_ABORT. -/
def Dev.noteAbort (d : Dev) (agent phase : Nat) (timeout : Bool) : Dev :=
  (d.wr Reg.PWR_LAST_ABORT (agent + phase * 0x100 + b2n timeout * 0x800 + d.pwr.target * 0x1000)).append 4 .sleepAbort
    (vals [agent, phase, b2n timeout])

/-- The entry is over. -/
def Dev.entryOver (d : Dev) : Dev :=
  let p : PwrSt := { d.pwr with target := 0, shelf := false, agents := [], stopped := [], latched := [] }
  (({ d with pwr := p } : Dev).setEntry false 0).wrBit Reg.HEEL_STATUS 2 false

/-- A refusal in phase 1: POWER_SET completes with SLEEP_ABORT and the agent; nothing has been stopped. -/
def Dev.refuseEntry (d : Dev) (agent : Nat) (timeout : Bool) : Dev :=
  let d1 := d.completeWhere (fun o => entOpcode o.entry == 0x0320) SLEEP_ABORT (fun _ => agent)
  (d1.noteAbort agent 1 timeout).entryOver

/-- The last-wake record with the counter value. -/
def Dev.wakeRecord (d : Dev) (rec_ : Nat) : Dev := (d.wr Reg.HEEL_LAST_WAKE rec_).wr64 Reg.HEEL_LAST_WAKE_TIME_LO d.tc

/-- Drive WAKE# low. -/
def Dev.wakeLow (d : Dev) : Dev :=
  if d.pwr.wakePin then d else ({ d with pwr := { d.pwr with wakePin := true } } : Dev).send (.sideband "WAKE#" 0)

/-- The arbiter ports come back. -/
def Dev.portsBack (d : Dev) : Dev :=
  (List.range 29).foldl (fun acc p =>
    if 12 ≤ p ∧ p < 20 ∧ acc.quarantined (p - 12) then acc else acc.portUp p) (d.wr Reg.ARB_DRAINING 0)

/-- R474: an agent refuses or times out in phases 2 to 5: what had stopped starts again, and the abort is recorded. -/
def Dev.abortEntry (d : Dev) (agent phase : Nat) (timeout : Bool) : Dev :=
  let n := d.pwr.latched.length
  let sr := (List.range 4).filter (fun c => d.bit (Reg.MEMC_CH_STATUS c) 2)
  let idle : ChanSt → ChanSt := fun x => { x with srAsked := false }
  let d1 := (List.range 4).foldl (fun acc c => acc.setChan c (idle (acc.chan c))) d.portsBack
  let d2 := d1.wakeRecord (7 + 8 * b2n (n != 0) + 16 * d1.pState + agent * 0x100 + phase * 0x10000)
  let d3 := ((d2.bumpBy Reg.HEEL_EXTRA_WAKES n).bump Reg.PWR_ABORT_COUNT).noteAbort agent phase timeout
  if phase = 5 then
    let steps := (sr.map (fun c => 3 + c) ++ (List.range 18).map (fun i => 7 + i)).map (fun i => (i, 0))
    let d4 := d3.entryOver
    { d4 with pwr := { d4.pwr with steps := steps } }
  else d3.entryOver.wakeLow

/-! ## Wake (R471, R477-R481) -/

/-- Cost of each domain start of R481, in the order of its table: safety, heel, main PLL and time, DRAM 0-3, cores, RE0-RE8,
decompression, vision, six lane groups. -/
def stepCost (i : Nat) : Nat :=
  if i = 0 then 10 else if i = 1 then 2 else if i = 2 then 10 else if i < 7 then 20 else if i = 7 then 30
  else if i < 17 then 12 else if i = 17 then 20 else if i = 18 then 15 else 8

/-- Admit waiting starts in order while they fit. -/
def admitSteps : Nat → List (Nat × Nat) → List (Nat × Nat) × List (Nat × Nat)
  | _, [] => ([], [])
  | budget, s :: ss =>
    if stepCost s.1 ≤ budget then
      let r := admitSteps (budget - stepCost s.1) ss
      (s :: r.1, r.2)
    else ([], s :: ss)

/-- A wake begins: the record, and the domain starts wait (R477, R481). -/
def Dev.beginWake (d : Dev) (code unit : Nat) (replayed : Bool) : Dev :=
  let src := d.pState
  let d1 := d.wakeRecord (code + 8 * b2n replayed + 16 * src + (if code = 4 then unit * 0x80000 else 0))
  let p : PwrSt := { d1.pwr with waking := some (code, replayed, src, unit), steps := (List.range 25).map (fun i => (i, 0)) }
  ({ d1 with pwr := p } : Dev).bump Reg.HEEL_WAKE_COUNT

/-- HLC measures its oscillator against the root and aligns its schedule to it, on every wake (R68). -/
def Dev.alignHeel (d : Dev) : Dev :=
  (d.tick.wr Reg.HEEL_OSC_PPM (Config.freeWord d.freeCtr).toNat).wrBit Reg.HEEL_STATUS 1 true

/-- After DEEP_SLEEP the raster-engine tables are at their reset values (R471). -/
def Dev.tablesLost (d : Dev) : Dev :=
  let d1 := (List.range 8).foldl (fun acc b => acc.wr (Reg.RE_ACTIVE b) 0) { d with rast := { d.rast with banks := [], copies := [], owned := 0 } }
  d1.append 1 .tablesLost []

/-- The wake ends in HOLD and READY (R469, R471). -/
def Dev.finishWake (d : Dev) : Dev :=
  match d.pwr.waking with
  | none => d
  | some (_, _, src, _) =>
    let d0 : Dev := { d with pwr := { d.pwr with waking := none } }
    let d1 := ((d0.wrF Reg.PWR_STATUS 0 3 1).loopsOff).portsBack
    let d2 := (List.range 4).foldl (fun acc k => acc.wrBit (Reg.POS_ENC_STATUS k) 4 false) d1
    let d3 := (List.range 16).foldl (fun acc u => acc.wakeUnit u) d2.holdOutputs
    let d4 := d3.append 4 .wake (vals [d3.rd Reg.HEEL_LAST_WAKE])
    if src = 4 then d4.tablesLost else d4

/-- One domain starts. -/
def Dev.stepStart (d : Dev) (i : Nat) : Dev :=
  if i = 0 then (if d.pwr.waking.isSome then d.partitionReset false else d)
  else if i = 1 then
    d.alignHeel
  else if i = 2 then d.wrF Reg.TIME_STATUS 8 3 1
  else if i < 7 then
    let c := i - 3
    (d.wrBit (Reg.MEMC_CH_STATUS c) 2 false).setChan c { d.chan c with srAsked := false }
  else if i = 7 then
    let host := match d.pwr.waking with | some (code, _) => code == 6 | none => false
    if host then d else d.wakeLow
  else if i = 19 then d.clkReq true
  else d

/-- POWER_SEQUENCER_WINDOW. -/
def Dev.opWindow (d : Dev) : Dev :=
  if d.pwr.steps.isEmpty ∨ d.pwr.stuck ∨ d.pwr.failing then d
  else
    let r := admitSteps (d.cf Reg.PWR_BUDGET) d.pwr.steps
    let worst := (r.1.map Prod.snd).foldl max (d.rd Reg.PWR_WAIT_MAX)
    let later := r.2.map (fun s => (s.1, s.2 + 1))
    let d1 := ({ d with pwr := { d.pwr with steps := later } } : Dev).wr Reg.PWR_WAIT_MAX worst
    let d2 := r.1.foldl (fun acc s => acc.stepStart s.1) d1
    if later.isEmpty then d2.finishWake else d2

/-- An exit from OFF: the full reset of R470, and the wake's record. -/
def Dev.wakeFromOff (d : Dev) (code unit : Nat) (replayed : Bool) (up : StartUp) : Dev :=
  let d1 := ((d.restart true 0 up).wakeRecord (code + 8 * b2n replayed + 16 * 5 + (if code = 4 then unit * 0x80000 else 0))).bump
    Reg.HEEL_WAKE_COUNT
  if d1.pwr.stuck then d1
  else
    let d2 := (d1.alignHeel.wrF Reg.PWR_STATUS 0 3 1).append 4 .wake (vals [d1.rd Reg.HEEL_LAST_WAKE])
    if code = 6 then d2 else d2.wakeLow

/-- A start-up without findings, with the straps as they are: what the model takes where a wake that was latched on the way to
OFF starts the module. -/
def Dev.plainUp (d : Dev) : StartUp := ⟨BitVec.ofNat 7 d.pwr.straps, true, 0, none, none⟩

/-! ## Entry (R473-R476) -/

/-- Every command has completed. -/
def Dev.noCommands (d : Dev) : Bool :=
  (List.range 16).all (fun q => (d.qs q).fetched.isEmpty && (d.qOuts q).isEmpty)

/-- Requests of draining ports still pending. -/
def Dev.undrained (d : Dev) : Bool :=
  (List.range 4).any (fun c => (List.range 29).any (fun p => d.portDraining p && !((d.chan c).queue p).isEmpty))

/-- Every healthy channel is in self-refresh. -/
def Dev.allAsleep (d : Dev) : Bool :=
  (List.range 4).all (fun c => !d.bit Reg.PLACE_CH_OK c || d.bit (Reg.MEMC_CH_STATUS c) 2)

/-- The agent answers now in the present phase. -/
def Dev.agentReady (d : Dev) (a : Nat) : Bool :=
  if d.phase = 2 then a != 1 || d.noCommands
  else if d.phase = 3 then a != 12 || !d.undrained
  else if d.phase = 5 then a != 12 || d.allAsleep
  else true

/-- Stop lanes. -/
def Dev.lanesStop (d : Dev) (ls : List Nat) : Dev := ls.foldl (fun acc l => acc.laneStop l) d

/-- What an agent does in a phase. -/
def Dev.agentStop (d : Dev) (a : Nat) : Dev :=
  if d.phase = 2 then
    if a = 2 then d.enterHold false id
    else if a = 6 then
      let d1 := d.lanesStop ((List.range 16).map (fun i => 8 + i))
      (List.range 8).foldl (fun acc b => if acc.quarantined b then acc else (acc.endSession b).setPortState b 0) d1
    else if a = 7 then
      let d1 := (List.range 2).foldl (fun acc c => if acc.camUp c then acc.camDown c else acc) d
      d1.lanesStop ((List.range 8).map (fun i => 26 + i))
    else if a = 9 then ((d.opNetDown 0).opNetDown 1).lanesStop [34, 35]
    else if a = 10 then d.lanesStop [24, 25]
    else if a = 14 then (d.wrF Reg.HOSTQ_STATUS 0 8 0).lanesStop (List.range 8)
    else d
  else if d.phase = 3 then
    if a = 12 then
      ((List.range 29).foldl (fun acc p => if acc.portDraining p then acc.portDown p else acc) d).wr Reg.ARB_DRAINING 0
    else d
  else if d.phase = 4 then (if a = 11 then d.flushLog else d)
  else d

/-- A phase begins. -/
def Dev.phaseBegin (d : Dev) (phase : Nat) : Dev :=
  let d1 := ({ d with pwr := { d.pwr with agents := agents14, phaseAt := d.tc } } : Dev).setEntry true phase
  if phase = 3 then d1.wr Reg.ARB_DRAINING (d1.rd Reg.ARB_ALIVE - fld (d1.rd Reg.ARB_ALIVE) 27 1 * 0x8000000)
  else if phase = 5 then
    let ask : ChanSt → ChanSt := fun x => { x with srAsked := true }
    (List.range 4).foldl (fun acc c => if acc.bit Reg.PLACE_CH_OK c then acc.setChan c (ask (acc.chan c)) else acc) d1
  else d1

/-- The target state is reached. -/
def Dev.reached (d : Dev) : Dev :=
  let t := d.pwr.target
  let latched := d.pwr.latched
  let d1 := ((d.toHoldover false).unpower).wrF Reg.TIME_STATUS 8 3 (if t = 5 then 0 else 4)
  let d2 := ((d1.entryOver.wrF Reg.PWR_STATUS 0 3 t).wrBit Reg.HEEL_STATUS 1 false).bump Reg.PWR_ENTRY_COUNT
  let d3 := d2.append 4 .sleepEntered (vals [t, d2.rd Reg.HEEL_RETAIN, d2.rd Reg.HEEL_WAKE_MASK])
  let d4 : Dev := if t = 3 then d3 else { d3 with mem := { d3.mem with words := [] } }
  let act := if t = 5 then latched.filter (fun x => x.1 ≤ 2) else latched
  match act with
  | [] => d4
  | (code, unit) :: rest =>
    if t = 5 then (d4.wakeFromOff code unit true d4.plainUp).bumpBy Reg.HEEL_EXTRA_WAKES rest.length
    else (d4.beginWake code unit true).bumpBy Reg.HEEL_EXTRA_WAKES rest.length

/-- Phase 1 is over: every agent accepts. -/
def Dev.accepted (d : Dev) : Dev :=
  let e := match d.host.outs.find? (fun o => entOpcode o.entry == 0x0320) with | some o => o.entry | none => []
  let done : Dev → Dev := fun x => x.completeWhere (fun o => entOpcode o.entry == 0x0320) OK (fun _ => 0)
  if d.pwr.target = 2 then
    let d1 := (done d).entryOver
    let d2 := ({ d1 with pwr := { d1.pwr with prev := d1.pState } } : Dev).wrF Reg.PWR_STATUS 0 3 2
    (List.range 4).foldl (fun acc c =>
      if acc.bit Reg.PLACE_CH_OK c && acc.chanIdle c then acc.wrF (Reg.MEMC_CH_STATUS c) 3 2 3 else acc) d2
  else if d.pwr.shelf then d.phaseBegin 2
  else
    let d1 := (d.wr Reg.HEEL_RETAIN (Nat.lor (numAt e 16 2) 1)).wr Reg.HEEL_WAKE_MASK (Nat.lor (numAt e 20 1 % 64) 1)
    (done d1).phaseBegin 2

/-- One clock edge of an entry: phase 1 asks every agent at once; in the later phases the next agent answers. -/
def Dev.entryStep (d : Dev) : Dev :=
  if d.entering = false then d
  else if d.phase = 1 then
    match agents14.find? d.refuses with
    | some a => d.refuseEntry a false
    | none => d.accepted
  else
    match d.pwr.agents with
    | a :: rest =>
      if d.agentReady a then
        let d1 := d.agentStop a
        { d1 with pwr := { d1.pwr with agents := rest, stopped := a :: d1.pwr.stopped } }
      else if d.phase = 5 ∧ a = 12 ∧ d.pwr.phaseAt + 400 * d.cf Reg.PWR_SR_LIMIT < d.tc then d.abortEntry 12 5 false
      else d
    | [] => if d.phase = 5 then d.reached else d.phaseBegin (d.phase + 1)

/-- What an empty command queue leaves to happen: a clock edge, and a step of an entry. -/
def Dev.idle (d : Dev) : Dev := if d.pwr.failing || d.pwr.stuck then d else (d.clockEdge).entryStep

/-- An entry begins with phase 1. -/
def Dev.enter (d : Dev) (target : Nat) (shelf : Bool) : Dev :=
  let p : PwrSt := { d.pwr with target := target, shelf := shelf, latched := [] }
  (({ d with pwr := p } : Dev).wrBit Reg.HEEL_STATUS 2 false).setEntry true 1

/-- The body of POWER_SET (R125, R470, R473). -/
def Dev.powerBody (d : Dev) (o : Out) : Dev :=
  let t := byteAt o.entry 8
  if 2 ≤ t ∧ d.anyActive then d.complete o JOB_ACTIVE 0 []
  else if d.entering then d.complete o SLEEP_ABORT 0 []
  else if t = d.pState then d.complete o OK 0 []
  else if t ≤ 1 then (d.wrF Reg.PWR_STATUS 0 3 t).complete o OK 0 []
  else (d.keep o).enter t false

/-- AGENT_TIMEOUT. -/
def Dev.opAgentTimeout (d : Dev) (a : Nat) : Dev :=
  if d.entering = false then d
  else if d.phase = 1 then d.refuseEntry a true
  else if d.pwr.agents.head? = some a then d.abortEntry a d.phase true
  else d

/-- DRAIN_ABORT: what a draining port still has pending is aborted, and its alive signal falls (R476). -/
def Dev.opDrainAbort (d : Dev) : Dev :=
  if d.entering && d.phase == 3 then
    (List.range 29).foldl (fun acc p =>
      let n := ((List.range 4).map (fun c => ((acc.chan c).queue p).length)).sum
      if acc.portDraining p && n != 0 then
        let d1 := (List.range 4).foldl (fun a c => a.setChan c { a.chan c with pend := mapErase p (a.chan c).pend }) acc
        (((d1.bumpBy Reg.PWR_DRAIN_ABORT_COUNT n).append 4 .drainAbort (vals [p, n])).portDown p).wrBit Reg.ARB_DRAINING p false
      else acc) d
  else d

/-! ## Wake events (R477, R479) -/

/-- Wake sources enabled for the state the module is in or enters. -/
def Dev.wakeMask (d : Dev) : Nat :=
  if d.entering && d.phase == 1 && !d.pwr.shelf then
    match d.host.outs.find? (fun o => entOpcode o.entry == 0x0320) with
    | some o => Nat.lor (numAt o.entry 20 1 % 64) 1
    | none => 1
  else d.rd Reg.HEEL_WAKE_MASK

/-- A wake event of source `k` (R477), with the start-up that an exit from OFF runs. -/
def Dev.wakeEvent (d : Dev) (k unit : Nat) (up : StartUp) : Dev :=
  if bitOf d.wakeMask k = false then d
  else if d.pwr.waking.isSome then d.bump Reg.HEEL_EXTRA_WAKES
  else if d.pState = 5 then (if k ≤ 1 then d.wakeFromOff (k + 1) unit false up else d)
  else if 3 ≤ d.pState then
    let d1 := if d.pState = 4 ∧ up.badChannels ≠ 0 then d.stepDram up.badChannels.toNat else d
    d1.beginWake (k + 1) unit false
  else if d.entering ∧ d.pwr.target ≠ 2 then
    ({ d with pwr := { d.pwr with latched := d.pwr.latched ++ [(k + 1, unit)] } } : Dev).wrBit Reg.HEEL_STATUS 2 true
  else d

/-- WAKE: the source can be detected, and the module has not lost its mains or stopped at start-up (R43, R74, R477). -/
def Dev.opWake (d : Dev) (k unit : Nat) (up : StartUp) : Dev :=
  if d.pwr.stuck ∨ d.pwr.failing then d
  else if k = 2 ∧ (List.range 4).all (fun c => !d.cfB (Reg.POS_ENC_CFG c) 0) then d
  else if k = 3 ∧ d.bit (Reg.TIME_TRIG_CFG unit) 1 = false then d
  else if k = 5 ∧ d.pwr.wakePin then d
  else d.wakeEvent k unit up

/-- TRIGGER_FIRE: the unit fires (R389); one with WAKE = 1 raises a wake, one without does not fire in a sleep state (R390). -/
def Dev.opTrigger (d : Dev) (u : Nat) : Dev :=
  let wakes := d.bit (Reg.TIME_TRIG_CFG u) 1
  let due := d.trigState u == 1 && decide (d.trigTarget u ≤ d.localNow)
  if due = false ∨ d.pState = 5 ∨ d.pwr.stuck ∨ d.pwr.failing then d
  else if 3 ≤ d.pState ∧ wakes = false then d
  else
    let d1 := d.fireUnit u
    if wakes then d1.wakeEvent 3 u d1.plainUp else d1

/-! ## The shelf (R482, R483) -/

/-- The 7-bit I2C address at which the module answers: 0x58 in slot A, 0x59 in slot B, and no other (R49). -/
def Dev.shelfAddr (d : Dev) : Nat := 0x58 + d.rdF Reg.SYS_STRAPS 0 1

/-- The byte that the shelf reads at a pointer of the register table (R482, R483); what the table does not give is no register. -/
def Dev.shelfRead (d : Dev) (ptr : Nat) : Option Nat :=
  if ptr = 0 then
    some (d.pState + (d.rdF Reg.SYS_STATUS 0 4 - 1) % 4 * 8 + b2n (d.lampFault == .red) * 0x20 + b2n d.entering * 0x40)
  else if 2 ≤ ptr ∧ ptr < 6 then some ((leBytes 4 (d.rd Reg.HEEL_LAST_WAKE)).getD (ptr - 2) 0).toNat
  else if 8 ≤ ptr ∧ ptr < 12 then some ((leBytes 4 (d.rd Reg.SYS_ID)).getD (ptr - 8) 0).toNat
  else if 12 ≤ ptr ∧ ptr < 16 then some ((leBytes 4 (d.rd Reg.SYS_HWREV)).getD (ptr - 12) 0).toNat
  else none

/-- SHELF_WAKE. -/
def Dev.opShelfWake (d : Dev) (addr : Nat) (up : StartUp) : Dev :=
  if addr ≠ d.shelfAddr ∨ d.pwr.stuck ∨ d.pwr.failing then d else d.wakeEvent 0 0 up

/-- SHELF_POWER_OFF: accepted in HOLD, SLEEP and DEEP_SLEEP; otherwise ignored and logged. -/
def Dev.opShelfOff (d : Dev) (addr : Nat) : Dev :=
  if addr ≠ d.shelfAddr ∨ d.pState = 5 ∨ d.pwr.failing then d
  else if 3 ≤ d.pState ∧ d.pwr.waking.isNone then
    ({ d with pwr := { d.pwr with target := 5, latched := [] } } : Dev).reached
  else if d.inHold && !d.entering && d.pState < 3 && !d.pwr.stuck then d.enter 5 true
  else d.append 4 .writeIgnored (vals [1, 0x4F])

/-! ## Meanings -/

/-- POWER_SET (R125, R470, R472, R473, R475). -/
def execPowerSet (q : Fin 16) (s : State) : Host.Outcome State Fault Refusal := s.withDev (s.dev.runCmd q 0x0320 Dev.powerBody)

/-- AGENT_TIMEOUT (R473, R474). -/
def execAgentTimeout (agent : Fin 14) (s : State) : Host.Outcome State Fault Refusal :=
  s.withDev (s.dev.opAgentTimeout (agent + 1))

/-- DRAIN_ABORT (R476). -/
def execDrainAbort (s : State) : Host.Outcome State Fault Refusal := s.withDev s.dev.opDrainAbort

/-- DOZE_EXIT (R470). -/
def execDozeExit (s : State) : Host.Outcome State Fault Refusal := s.withDev s.dev.dozeExit

/-- WAKE (R471, R477-R479). -/
def execWake (source : Fin 6) (unit : Fin 16) (up : StartUp) (s : State) : Host.Outcome State Fault Refusal :=
  s.always (s.dev.opWake source unit up)

/-- POWER_SEQUENCER_WINDOW (R478, R481). -/
def execPowerSequencerWindow (s : State) : Host.Outcome State Fault Refusal := s.always s.dev.opWindow

/-- TRIGGER_FIRE (R389, R390). -/
def execTriggerFire (unit : Fin 16) (s : State) : Host.Outcome State Fault Refusal := s.always (s.dev.opTrigger unit)

/-- SHELF_WAKE (R49, R483). -/
def execShelfWake (up : StartUp) (s : State) (addr : BitVec 7 := 0x58) : Host.Outcome State Fault Refusal :=
  s.always (s.dev.opShelfWake addr.toNat up)

/-- SHELF_POWER_OFF (R49, R470, R483). -/
def execShelfPowerOff (s : State) (addr : BitVec 7 := 0x58) : Host.Outcome State Fault Refusal :=
  s.always (s.dev.opShelfOff addr.toNat)

end Sys2Proof.Machine
end

