-- ==== Sys2Proof/Machine/Health.lean ====
section
/-!
DEFINITION. Health, ageing and calibration (R485-R505): power-on hours, ageing monitors, margins and their projection, the
re-plan, retention and hold-up tests, temperatures, calibrations, reading of the event log and of the health report, and the
firmware images.
-/

namespace Sys2Proof.Machine

/-! ## Hours and ageing (R485, R486) -/

/-- POH_INCREMENT: in every state except OFF. -/
def Dev.opPoh (d : Dev) : Dev :=
  if d.pState = 5 ∨ d.pwr.stuck ∨ d.pwr.failing then d else d.wr Reg.NVM_POH (d.rd Reg.NVM_POH + 1)

/-- The degradation of a monitor in ppm, from the frequencies of its stressed and its unstressed oscillator. -/
def degradation (stressed unstressed : Nat) : Int := ((unstressed : Int) - stressed) * 1000000 / (unstressed : Int)

/-- AGEING_MEASUREMENT.  Against an unstressed oscillator that stands still the degradation is left open. -/
def Dev.opAgeing (d : Dev) (rings : List (Nat × Nat)) : Dev :=
  (List.range 16).foldl (fun acc m =>
    let r := rings.getD m (0, 0)
    if r.2 = 0 then (acc.wrS (Reg.HLTH_AGE m) (Config.freeWord acc.freeCtr).toInt).tick
    else acc.wrS (Reg.HLTH_AGE m) (degradation r.1 r.2)) d

/-- The monitors of an AVS domain. -/
def avsMonitors (v : Nat) : List Nat :=
  if v = 0 then [0, 1] else if v = 1 then [4, 5, 6, 7, 8] else if v = 2 then [9, 14] else if v = 3 then [10] else [11, 12, 13]

/-- The highest degradation among the monitors of a domain. -/
def Dev.dMax (d : Dev) (v : Nat) : Int :=
  match (avsMonitors v).map (fun m => d.rdS (Reg.HLTH_AGE m)) with
  | [] => 0
  | x :: xs => xs.foldl max x

/-! ## Margins (R487, R488) -/

/-- The shortest retention found on channel c in ms, 0 before a test; the channel has half the refresh interval. -/
def Dev.tRet (d : Dev) (c : Nat) : Nat := d.rdF (Reg.HLTH_DRAM c) 0 16
def Dev.halfRefresh (d : Dev) (c : Nat) : Bool := d.bit (Reg.HLTH_DRAM c) 16

/-- The value of margin i; none while nothing has been measured for it. -/
def Dev.marginNow (d : Dev) (i : Nat) : Option Int :=
  if i < 5 then some (24000 - d.dMax i)
  else if i < 9 then
    let c := i - 5
    if d.tRet c = 0 then none else some ((d.tRet c : Int) - 4 * (if d.halfRefresh c then 16 else 32))
  else if i < 13 then
    let m := d.rd (Reg.MEMC_CH_MARGIN (i - 9))
    if m = 0 then none else some ((min (fld m 0 8) (min (fld m 8 8) (fld m 16 8)) : Nat) : Int)
  else if i < 41 then
    let w := mapGet 0 d.hlth.widths (i - 5)
    if w = 0 then none else some ((w : Int) - 1 - 16)
  else
    let h := d.rdF Reg.HLTH_HOLDUP 16 16
    if h = 0 then none else some ((h : Int) - 200)

/-- The limit of a margin as a number. -/
def marginLimit (i : Nat) : Int := if 9 ≤ i ∧ i < 13 then 4 else 0

/-- No further alternate row is available to a lane. -/
def Dev.lastAlternate (d : Dev) (l : Nat) : Bool :=
  let alt := d.rdF (Reg.LANE_LN_ALT_REQ l) 0 2
  let r := d.laneRateOf l
  (List.range 4).all (fun a => decide (a ≤ alt) || ((d.eqFind l d.slot a r).isNone && (d.eqFind l d.slot a 0).isNone))

/-- A margin with this value has reached its limit. -/
def Dev.marginGone (d : Dev) (i : Nat) (v : Int) : Bool :=
  if i < 5 then decide (v ≤ 0)
  else if i < 9 then decide (v < 0) && d.halfRefresh (i - 5)
  else if i < 13 then decide (v < 4)
  else if i < 41 then decide (v < 0) && d.lastAlternate (i - 5)
  else decide (v < 0)

/-- Slope and mean point of the least-squares line through samples. -/
def lineFit (xs : List (Nat × Int)) : Rat × Rat × Rat :=
  let n : Rat := (xs.length : Rat)
  let mx := ((xs.map (fun p => (p.1 : Rat))).sum) / n
  let my := ((xs.map (fun p => (p.2 : Rat))).sum) / n
  let sxx := (xs.map (fun p => ((p.1 : Rat) - mx) * ((p.1 : Rat) - mx))).sum
  let sxy := (xs.map (fun p => ((p.1 : Rat) - mx) * ((p.2 : Rat) - my))).sum
  (if sxx = 0 then 0 else sxy / sxx, mx, my)

/-- The projection of a margin from its samples: the POH at which the line reaches the limit. -/
def projection (now : Nat) (limit : Int) (samples : List (Nat × Int)) : Nat :=
  let xs := samples.filter (fun p => decide (now ≤ p.1 + 4320))
  let f := lineFit xs
  if xs.length < 7 then 0xFFFFFFFF
  else if 0 ≤ f.1 then 0xFFFFFFFF
  else min 0xFFFFFFFF (pubI (f.2.1 + ((limit : Rat) - f.2.2) / f.1)).toNat

/-- Sample one margin. -/
def Dev.sampleMargin (d : Dev) (i : Nat) : Dev :=
  match d.marginNow i with
  | none => d
  | some v =>
    let now := d.rd Reg.NVM_POH
    let ss := (now, v) :: mapGet [] d.hlth.samples i
    let proj := projection now (marginLimit i) ss
    let d1 : Dev := { d with hlth := { d.hlth with samples := mapSet [] d.hlth.samples i ss } }
    let d2 := (d1.wrS (Reg.HLTH_MARGIN_VAL i) v).wr (Reg.HLTH_MARGIN_PROJ i) proj
    let low := decide (proj ≠ 0xFFFFFFFF ∧ proj < now + 8766) && !bitOf d2.hlth.lowSent i
    let d3 : Dev := if low then
        (({ d2 with hlth := { d2.hlth with lowSent := d2.hlth.lowSent + 2 ^ i } } : Dev).wrBit Reg.HLTH_STATUS 9 true).event 2
          .marginLow []
      else d2
    if d3.marginGone i v && !bitOf d3.hlth.goneSent i then
      (({ d3 with hlth := { d3.hlth with goneSent := d3.hlth.goneSent + 2 ^ i } } : Dev).wrBit Reg.HLTH_STATUS 10 true).event 2
        .marginExhausted []
    else d3

/-- MARGIN_SAMPLE: at an hour divisible by 24 that has not been sampled. -/
def Dev.opMarginSample (d : Dev) : Dev :=
  let now := d.rd Reg.NVM_POH
  let done : Bool := match mapGet [] d.hlth.samples 0 with | p :: _ => p.1 == now | [] => false
  if now % 24 ≠ 0 ∨ done then d else (List.range 42).foldl Dev.sampleMargin d

/-! ## The re-plan (R489) -/

/-- The trim that domain v requires in mV. -/
def Dev.reqTrim (d : Dev) (v : Nat) : Nat := 5 * cdiv (d.dMax v).toNat 2000

/-- The trim of domain v after a re-plan. -/
def Dev.newTrim (d : Dev) (v : Nat) : Nat := max (d.rdF (Reg.HLTH_AVS v) 0 8) (min 60 (d.reqTrim v))

/-- Half the refresh interval is due on channel c. -/
def Dev.halfDue (d : Dev) (c : Nat) : Bool := d.halfRefresh c || (decide (d.tRet c ≠ 0) && decide (d.tRet c < 128))

/-- The retraining period of channel c after a re-plan in ms. -/
def Dev.newPeriod (d : Dev) (c : Nat) : Nat :=
  let p := d.rdF (Reg.MEMC_CH_REFRESH c) 16 16
  if bitOf d.hlth.drifted c && decide (128 < p) then max 128 (p / 2) else p

/-- The alternate of lane l moves on. -/
def Dev.altDue (d : Dev) (l : Nat) : Bool :=
  decide (3 ≤ mapGet 0 d.hlth.badScans l) && decide (d.rdF (Reg.LANE_LN_ALT_REQ l) 0 2 < 3) && !d.laneChange l

/-- The settings that REPLAN reports: trims, frequency bins, refresh intervals, retraining periods, alternates. -/
def Dev.settings (d : Dev) : List Nat :=
  (List.range 5).map (fun v => d.rdF (Reg.HLTH_AVS v) 0 8) ++ (List.range 5).map (fun v => d.rdF (Reg.HLTH_AVS v) 24 1) ++
    (List.range 4).map (fun c => d.rdF (Reg.MEMC_CH_REFRESH c) 0 16) ++
    (List.range 4).map (fun c => d.rdF (Reg.MEMC_CH_REFRESH c) 16 16) ++
    (List.range 36).map (fun l => d.rdF (Reg.LANE_LN_ALT_REQ l) 0 2)

/-- The required trims, and the frequency bins, which are only reported. -/
def Dev.reportPlan (d : Dev) : Dev :=
  (List.range 5).foldl (fun acc v =>
    (acc.wrF (Reg.HLTH_AVS v) 8 8 (satU 8 (d.reqTrim v))).wrBit (Reg.HLTH_AVS v) 24 (decide (60 < d.reqTrim v))) d

/-- Apply the plan. -/
def Dev.applyPlan (d : Dev) : Dev :=
  let d1 := (List.range 5).foldl (fun acc v => acc.wrF (Reg.HLTH_AVS v) 0 8 (d.newTrim v)) d
  let d2 := (List.range 4).foldl (fun acc c =>
    let a1 := if d.halfDue c then (acc.wrBit (Reg.HLTH_DRAM c) 16 true).wrF (Reg.MEMC_CH_REFRESH c) 0 16 1950 else acc
    a1.wrF (Reg.MEMC_CH_REFRESH c) 16 16 (d.newPeriod c)) d1
  let d3 := (List.range 36).foldl (fun acc l =>
    if d.altDue l then
      let a1 := acc.wrF (Reg.LANE_LN_ALT_REQ l) 0 2 (d.rdF (Reg.LANE_LN_ALT_REQ l) 0 2 + 1)
      { a1 with hlth := { a1.hlth with badScans := mapErase l a1.hlth.badScans } }
    else acc) d2
  { d3 with hlth := { d3.hlth with drifted := 0 } }

/-- HEALTH_REPLAN, at a re-plan point. -/
def Dev.opReplanHealth (d : Dev) : Dev :=
  if d.anyActive then d
  else
    let d1 := d.reportPlan
    let d2 := d1.applyPlan
    let changed := decide (d.settings ≠ d2.settings)
    if d.feat 45 then
      let d3 := d2.wrBit Reg.HLTH_STATUS 8 false
      if changed then (d3.bump Reg.HLTH_REPLAN_COUNT).event 2 .replan (vals (d.settings ++ d2.settings)) else d3
    else
      let d3 := (List.range 5).foldl (fun acc v => acc.wrF (Reg.HLTH_AVS v) 16 8 (d1.newTrim v)) d1
      d3.wrBit Reg.HLTH_STATUS 8 (decide (d1.settings ≠ d2.settings))

/-! ## Tests and sensors (R490-R493) -/

/-- RETENTION_TEST: the shortest withheld time that showed an error, or 512 for none. -/
def Dev.opRetention (d : Dev) (c found : Nat) : Dev :=
  if d.bit Reg.PLACE_CH_OK c then d.wrF (Reg.HLTH_DRAM c) 0 16 ([64, 128, 256, 512].getD found 512) else d

/-- C in uF and the hold-up at 280 W in 0.1 ms of a measurement. -/
def holdUpC (m : HoldUp) : Rat := (2 * m.load * m.time * 1000 : Rat) / ((m.v1 * m.v1 : Rat) - (m.v2 * m.v2 : Rat))
def holdUpT (m : HoldUp) : Rat :=
  (2 * m.load * m.time : Rat) * ((m.v1 * m.v1 : Rat) - (m.vMin * m.vMin : Rat)) /
    (((m.v1 * m.v1 : Rat) - (m.v2 * m.v2 : Rat)) * 56000000)

/-- HLTH_HOLDUP.  A decay in which the voltage does not fall, or does not start above the dropout voltage, gives no figure: it is left
open. -/
def Dev.opHoldUp (d : Dev) (m : HoldUp) : Dev :=
  let r := (Config.freeWord d.freeCtr).toNat
  let c := if m.v2 < m.v1 then satU 16 (pubI (holdUpC m)).toNat else r % 0x10000
  let t := if m.v2 < m.v1 ∧ m.vMin < m.v1 then satU 16 (pubI (holdUpT m)).toNat else r / 0x10000
  (d.wr Reg.HLTH_HOLDUP (c + t * 0x10000)).tick

/-- HOLDUP_TEST: enabled, at a re-plan point. -/
def Dev.opHoldUpTest (d : Dev) (m : HoldUp) : Dev := if d.cfB Reg.HLTH_CFG 4 && !d.anyActive then d.opHoldUp m else d

/-- The largest of a list. -/
def listMax : List Int → Int
  | [] => 0
  | x :: xs => xs.foldl max x

/-- The readings of `n` sensors in 1/16 degC, each within its 16-bit field. -/
def readings (n : Nat) (xs : List Int) : List Int := (List.range n).map (fun i => satS 16 (xs.getD i 0))

/-- BASEPLATE_TEMP_READ (R493), and R41. -/
def Dev.opBasePlate (d : Dev) (plate die : List Int) : Dev :=
  let top := listMax plate
  let d1 := (List.range 3).foldl (fun acc n => acc.wrF (Reg.HLTH_TEMP_BP n) 0 16 (uns 16 (plate.getD n 0))) d
  let d2 := d1.wr Reg.HLTH_TEMP_BASE (uns 16 top + uns 16 (listMax die) * 0x10000)
  let hot := decide (70 * 16 < top)
  let d3 := if hot && !d2.pwr.hot then d2.event 2 .baseplateHot [] else d2
  let d4 : Dev := { d3 with pwr := { d3.pwr with hot := hot } }
  if 80 * 16 < top then d4.enterHold true id else d4

/-! ## Calibration (R494-R497) -/

/-- The unit of a calibration exists; a camera is up. -/
def Dev.calUnitOk (d : Dev) (cal unit : Nat) : Bool :=
  if cal = 1 then decide (unit < 36)
  else if cal = 2 then decide (unit < 8)
  else if cal = 3 then decide (unit = 0)
  else if cal = 4 ∨ cal = 5 then decide (unit < 4)
  else if cal = 6 then decide (unit < 7)
  else decide (unit < 2) && d.camUp unit

/-- The body of CAL_RUN. -/
def Dev.calBody (d : Dev) (o : Out) : Dev :=
  let cal := byteAt o.entry 8
  let unit := numAt o.entry 12 4
  if cal = 5 ∧ d.inHold = false then d.complete o NOT_IN_HOLD 0 []
  else if 7 ≤ cal ∧ unit < 2 ∧ (d.cs unit).cal.isSome then d.complete o TABLE_LOCKED 0 []
  else if d.calUnitOk cal unit = false then d.complete o OUT_OF_RANGE 0 []
  else if 7 ≤ cal then
    let n := d.rdF Reg.HLTH_CAL_CFG 0 6
    let x : CamCal := { kind := cal, left := if n = 0 then 64 else n, order := d.rdF (Reg.VPIPE_CAM_ORDER unit) 0 1 }
    let c := d.cs unit
    ((d.setCs unit { c with cal := some x }).wrF (Reg.VPIPE_CAM_ORDER unit) 0 1 1).keep o
  else d.keep o

/-- A CAL_RUN waits for the calibration. -/
def Dev.calWaits (d : Dev) (cal unit : Nat) : Bool :=
  d.host.outs.any (fun o => entOpcode o.entry == 0x0360 && byteAt o.entry 8 == cal && numAt o.entry 12 4 == unit)

/-- The calibration runs by itself. -/
def Dev.calAuto (d : Dev) (cal : Nat) : Bool :=
  if cal = 1 then d.cfB Reg.HLTH_CFG 0
  else if cal = 2 then d.cfB Reg.HLTH_CFG 1
  else if cal = 3 then d.cfB Reg.HLTH_CFG 2
  else if cal = 6 then d.cfB Reg.HLTH_CFG 3
  else cal == 4

/-- CALIBRATION: a calibration 1 to 6 runs on its unit, for its schedule or for a CAL_RUN, with the figure found. -/
def Dev.opCalibration (d : Dev) (cal unit fig : Nat) : Dev :=
  let channelOk := !(cal == 4 || cal == 5) || d.bit Reg.PLACE_CH_OK unit
  let placeOk := cal != 5 || d.inHold
  if 1 ≤ cal ∧ cal ≤ 6 ∧ d.calUnitOk cal unit ∧ channelOk ∧ placeOk ∧ (d.calWaits cal unit ∨ d.calAuto cal) then
    let d1 := if cal = 5 then d.wr (Reg.MEMC_CH_MARGIN unit) (fig % 0x1000000)
      else if cal = 3 then d.tick.wr Reg.HEEL_OSC_PPM (Config.freeWord d.freeCtr).toNat
      else d
    d1.calDone cal unit fig
  else d

/-! ## Reading the event log (R126, R498, R501) -/

/-- The bytes of a record. -/
def recordBytes (r : LogRec) : List Byte :=
  let ascii : Char → Byte := fun c => BitVec.ofNat 8 c.toNat
  let name := ((evName r.ev).toList.map ascii ++ List.replicate 24 0).take 24
  let head := leBytes 8 r.seq ++ leBytes 8 r.time ++ name ++ leBytes 1 r.origin ++ leBytes 1 (evClass r.ev) ++
    leBytes 2 r.payload.length
  head ++ leBytes 4 (crc32c (head ++ leBytes 4 0 ++ r.payload)) ++ r.payload

/-- Whole records, at most `n`, that fit a number of bytes. -/
def fitRecs : Nat → Nat → List LogRec → List LogRec
  | 0, _, _ => []
  | _, _, [] => []
  | n + 1, room, r :: rs => if recBytes r ≤ room then r :: fitRecs n (room - recBytes r) rs else []

/-- A sequence number that the module has assigned is missing from what is returned. -/
def logGap (lo : Nat) : List LogRec → Bool
  | [] => false
  | r :: rs => decide (lo < r.seq) || logGap (r.seq + 1) rs

/-- RESULT of LOG_READ, and its mailbox data: the first and the next sequence number. -/
def logResult (lo : Nat) (rs : List LogRec) : Nat := rs.length + b2n (logGap lo rs) * 0x80000000

/-- The records that LOG_READ selects. -/
def Dev.logFrom (d : Dev) (o : Out) : List LogRec :=
  (d.log.ring ++ d.log.staging).filter (fun r => decide (numAt o.entry 8 8 ≤ r.seq))

/-- Complete LOG_READ with the records written. -/
def Dev.logDone (d : Dev) (o : Out) (rs : List LogRec) : Dev :=
  match rs.head?, rs.getLast? with
  | some a, some z =>
    d.complete o OK (logResult (max (numAt o.entry 8 8) d.log.firstSeq) rs) (leBytes 8 a.seq ++ leBytes 8 (z.seq + 1))
  | _, _ =>
    let free := (List.range 16).map (fun i => Config.freeByte (d.freeCtr + i))
    ({ d with freeCtr := d.freeCtr + 16 } : Dev).complete o OK 0 free

/-- The body of LOG_READ. -/
def Dev.logBody (dma : Dma) (d : Dev) (o : Out) : Dev :=
  let all := d.logFrom o
  let max_ := numAt o.entry 16 4
  let plain : Dev := d.dmaOut o dma (fun room => (fitRecs (min max_ all.length) room all).flatMap recordBytes)
    (fun y n => y.logDone o (fitRecs (min max_ all.length) n all))
  if d.cfB Reg.HLTH_CFG 5 && d.rd Reg.DFL_CMP_OK != 0 && !d.inRecovery then
    match d.buffer o.entry dma with
    | .ok els =>
      let rs := fitRecs (min max_ all.length) (bufTotal els) all
      match rs.head?, rs.getLast? with
      | some a, some z =>
        let res := logResult (max (numAt o.entry 8 8) d.log.firstSeq) rs
        d.addStream { use := 4, input := rs.flatMap recordBytes, verify := d.cfB Reg.DFL_CMP_CTRL 3, out := some { o with note := res },
                      item := z.seq + 1, bar := a.seq, els := els, err := dataErr dma }
      | _, _ => plain
    | _ => plain
  else plain

/-! ## The health report -/

/-- HLTH offsets 0x0000-0x03FF and NVM offsets 0x0000-0x00FF. -/
def Dev.healthBytes (d : Dev) : List Byte :=
  wordsBytes ((List.range 256).map (fun i => d.hostRead (Reg.HLTH_CFG + 4 * i)) ++
    (List.range 64).map (fun i => d.hostRead (Reg.NVM_STATUS + 4 * i)))

/-- The body of HEALTH_READ. -/
def Dev.healthBody (dma : Dma) (d : Dev) (o : Out) : Dev :=
  d.dmaOut o dma (fun _ => d.healthBytes) (fun y n => y.complete o OK n [])

/-! ## Firmware images (R124, R503, R504) -/

/-- The image named is the one that runs. -/
def Dev.imageRuns (d : Dev) (k : Nat) : Bool := d.rdF Reg.SYS_STATUS 13 1 == k && !d.inRecovery

/-- State of an image in the BOOT record; its version register. -/
def Dev.setImgState (d : Dev) (k st : Nat) : Dev := d.wrF Reg.NVM_BOOT (2 + 2 * k) 2 st
def imgVer (k : Nat) : Nat := if k = 0 then Reg.NVM_IMGA_VER else Reg.NVM_IMGB_VER

/-- Program an image. -/
def Dev.setImg (d : Dev) (k : Nat) (x : ImgSt) : Dev := { d with hlth := { d.hlth with imgs := mapSet {} d.hlth.imgs k x } }

/-- The bytes of an image after a write; its version is the one its header holds. -/
def Dev.program (d : Dev) (k : Nat) (old bs : List Byte) : Dev :=
  let all := old ++ bs
  let d1 := (d.setImg k { bytes := all, open_ := bs.length % 4096 == 0 }).setImgState k 1
  if 12 ≤ all.length then d1.wr (imgVer k) (numAt all 8 4) else d1.tick.wr (imgVer k) (Config.freeWord d1.freeCtr).toNat

/-- The body of FW_WRITE. -/
def Dev.fwWriteBody (dma : Dma) (programFails : Bool) (d : Dev) (o : Out) : Dev :=
  let k := byteAt o.entry 8
  let off := numAt o.entry 12 4
  let old := d.img k
  let at_ := old.open_ && old.bytes.length == off
  if d.imageRuns k then d.complete o IMAGE_RUNNING 0 []
  else if off % 4096 ≠ 0 ∨ (off ≠ 0 ∧ at_ = false) then d.complete o OUT_OF_RANGE 0 []
  else d.dmaIn o dma (fun n => if 0x10000000 < off + n then some OUT_OF_RANGE else none) (fun y bs =>
    if programFails then
      ((((y.setImg k {}).setImgState k 1).wr (imgVer k) 0).bump Reg.NVM_FLASH_ERR_COUNT).complete o NVM_FAULT 0 []
    else (y.program k (if off = 0 then [] else old.bytes) bs).complete o OK bs.length [])

/-- The body of FW_VERIFY. -/
def Dev.fwVerifyBody (d : Dev) (o : Out) : Dev :=
  let k := byteAt o.entry 8
  if d.imageRuns k then d.complete o IMAGE_RUNNING 0 []
  else if d.imgOk k then (d.setImgState k 2).complete o OK (d.rd (imgVer k)) []
  else (d.setImgState k 3).complete o FW_SIGNATURE 0 []

/-- The body of FW_SELECT. -/
def Dev.fwSelectBody (d : Dev) (o : Out) : Dev :=
  let k := byteAt o.entry 8
  if d.imageRuns k then d.complete o IMAGE_RUNNING 0 []
  else if d.rdF Reg.NVM_BOOT (2 + 2 * k) 2 ≠ 2 then d.complete o FW_UNVERIFIED 0 []
  else (d.wrF Reg.NVM_BOOT 0 1 k).complete o OK 0 []

/-! ## Meanings -/

/-- POH_INCREMENT (R485). -/
def execPohIncrement (s : State) : Host.Outcome State Fault Refusal := s.always s.dev.opPoh

/-- AGEING_MEASUREMENT (R486). -/
def execAgeingMeasurement (rings : List (Nat × Nat)) (s : State) : Host.Outcome State Fault Refusal :=
  s.withDev (s.dev.opAgeing rings)

/-- MARGIN_SAMPLE (R487, R488). -/
def execMarginSample (s : State) : Host.Outcome State Fault Refusal := s.withDev s.dev.opMarginSample

/-- HEALTH_REPLAN (R489). -/
def execHealthReplan (s : State) : Host.Outcome State Fault Refusal := s.withDev s.dev.opReplanHealth

/-- RETENTION_TEST (R490). -/
def execRetentionTest (chan found : Fin 4) (s : State) : Host.Outcome State Fault Refusal :=
  s.withDev (s.dev.opRetention chan found)

/-- HOLDUP_TEST (R492). -/
def execHoldupTest (meas : HoldUp) (s : State) : Host.Outcome State Fault Refusal :=
  s.withDev (s.dev.opHoldUpTest meas)

/-- MAINS_DIP_RETURN (R43, R492). -/
def execMainsDipReturn (meas : HoldUp) (s : State) : Host.Outcome State Fault Refusal :=
  s.withDev (s.dev.opHoldUp meas)

/-- BASEPLATE_TEMP_READ (R41, R493). -/
def execBaseplateTempRead (plate die : List Int) (s : State) : Host.Outcome State Fault Refusal :=
  s.withDev (s.dev.opBasePlate (readings 3 plate) (readings 5 die))

/-- CAL_RUN (R494, R496). -/
def execCalRun (q : Fin 16) (s : State) : Host.Outcome State Fault Refusal := s.withDev (s.dev.runCmd q 0x0360 Dev.calBody)

/-- CALIBRATION (R494, R497). -/
def execCalibration (cal : Fin 9) (target : Fin 64) (figure : Word) (s : State) : Host.Outcome State Fault Refusal :=
  s.withDev (s.dev.opCalibration cal target figure.toNat)

/-- LOG_FLUSH (R500). -/
def execLogFlush (s : State) : Host.Outcome State Fault Refusal := s.always (if s.dev.pwr.failing then s.dev else s.dev.flushLog)

/-- LOG_READ (R123, R126, R501). -/
def execLogRead (q : Fin 16) (dma : Dma) (s : State) : Host.Outcome State Fault Refusal :=
  s.withDev (s.dev.runCmd q 0x0301 (Dev.logBody dma))

/-- HEALTH_READ (R123). -/
def execHealthRead (q : Fin 16) (dma : Dma) (s : State) : Host.Outcome State Fault Refusal :=
  s.withDev (s.dev.runCmd q 0x0302 (Dev.healthBody dma))

/-- FW_WRITE (R123, R124, R504). -/
def execFwWrite (q : Fin 16) (dma : Dma) (programFails : Bool) (s : State) : Host.Outcome State Fault Refusal :=
  s.withDev (s.dev.runCmd q 0x0310 (Dev.fwWriteBody dma programFails))

/-- FW_VERIFY (R123, R124, R503). -/
def execFwVerify (q : Fin 16) (s : State) : Host.Outcome State Fault Refusal := s.withDev (s.dev.runCmd q 0x0311 Dev.fwVerifyBody)

/-- FW_SELECT (R123, R124). -/
def execFwSelect (q : Fin 16) (s : State) : Host.Outcome State Fault Refusal := s.withDev (s.dev.runCmd q 0x0312 Dev.fwSelectBody)

end Sys2Proof.Machine
end

