-- ==== Sys2Proof/Machine/Checks.lean ====
section
/-!
DEFINITION. The nine checks of CFG_COMMIT (R82, R513): reserved values, features, field ranges, lanes and rows, pair, placement,
sources and dependent values.  Every function reads the image that is checked as the configuration in force of `d`.
-/

namespace Sys2Proof.Machine

/-! ## Field rules -/

/-- A field of some registers, with the values it may hold. -/
structure FieldRule where
  addrs : List Nat
  lo : Nat
  width : Nat
  ok : Nat → Bool

/-- Instances of a register. -/
def insts (f : Nat → Nat) (n : Nat) : List Nat := (List.range n).map f

/-- A range of values. -/
def within (a b v : Nat) : Bool := decide (a ≤ v ∧ v ≤ b)

/-- A range of a signed byte. -/
def withinS (a b : Int) (v : Nat) : Bool := decide (a ≤ sgn 8 v ∧ sgn 8 v ≤ b)

/-- The addresses at which a rule fails. -/
def Dev.ruleBad (d : Dev) (r : FieldRule) : List Nat := r.addrs.filter (fun a => !r.ok (d.cfF a r.lo r.width))

/-- A position source code that is not reserved (R206). -/
def srcCode (v : Nat) : Bool := v != 6

/-- Check 2: the enumerated fields (R12). -/
def enumRules : List FieldRule :=
  (List.range 8).map (fun b => ⟨[Reg.DFL_P1_DROP], 2 * b, 2, within 1 3⟩) ++
  [ ⟨[Reg.DFL_CMP_CTRL], 0, 2, within 0 2⟩,
    ⟨insts Reg.RE_SCREEN 8, 0, 2, within 1 2⟩,
    ⟨[Reg.POS_REF], 0, 3, srcCode⟩,
    ⟨[Reg.POS_REF], 4, 3, srcCode⟩,
    ⟨[Reg.POS_OBS], 0, 4, within 0 7⟩,
    ⟨insts Reg.POS_ENC_CFG 4, 5, 2, within 0 2⟩,
    ⟨insts Reg.POS_CMP_CFG 8, 1, 3, srcCode⟩,
    ⟨insts Reg.POS_EMU_CFG 2, 1, 3, srcCode⟩,
    ⟨insts Reg.ADC_CH_CFG 8, 0, 2, within 0 2⟩ ] ++
  [ ⟨insts Reg.LACE_CFG 8, 8, 8, within 1 255⟩,
    ⟨insts Reg.CXP_CAM_CFG 2, 1, 2, within 0 2⟩,
    ⟨insts Reg.CXP_CAM_CFG 2, 3, 3, within 0 6⟩,
    ⟨[Reg.NET_CFG], 0, 2, within 0 2⟩,
    ⟨[Reg.NET_CFG], 5, 2, within 0 2⟩ ]

/-- Check 4: the ranges that the chapters give. -/
def rangeRules : List FieldRule :=
  [ ⟨[Reg.PLACE_SPEED_MAX], 0, 32, within 1000 280000⟩,
    ⟨[Reg.PLACE_REPEAT], 0, 5, within 0 16⟩,
    ⟨[Reg.PLACE_DRAM_RESERVE], 0, 32, within 0 40000⟩,
    ⟨[Reg.PLACE_GRAIN], 0, 4, within 8 16⟩,
    ⟨[Reg.PLACE_RATE_FLOOR], 0, 32, within 100 20000⟩,
    ⟨[Reg.POS_REF], 0, 3, within 0 5⟩,
    ⟨[Reg.POS_CHECK_TOL], 0, 32, within 1 1000000⟩,
    ⟨[Reg.POS_COAST], 0, 32, within 0 100000⟩,
    ⟨[Reg.POS_DIR_HYST], 0, 32, within 1 1000000⟩,
    ⟨[Reg.POS_TRACK_ERR_MAX], 0, 32, within 1 1000000⟩ ] ++
  [ ⟨insts Reg.POS_SSI_CFG 2, 3, 7, within 8 64⟩,
    ⟨insts Reg.POS_SSI_FIELDS 2, 6, 6, within 1 48⟩,
    ⟨insts Reg.POS_SSI_FIELDS 2, 19, 5, within 0 16⟩,
    ⟨insts Reg.POS_SSI_TIMING 2, 0, 16, within 100 10000⟩,
    ⟨insts Reg.POS_SSI_PERIOD 2, 0, 32, within 0 65535⟩,
    ⟨insts Reg.POS_SSI_TIMEOUT 2, 0, 32, within 1 1000⟩,
    ⟨insts Reg.POS_SSI_FAULT_LIMIT 2, 0, 32, within 1 255⟩,
    ⟨insts Reg.POS_CMP_CFG 8, 1, 3, within 0 5⟩,
    ⟨insts Reg.POS_EMU_CFG 2, 1, 3, within 0 5⟩,
    ⟨insts Reg.POS_EMU_N 2, 0, 32, within 1 16777215⟩,
    ⟨insts Reg.POS_EMU_M 2, 0, 32, within 1 16777215⟩ ] ++
  [ ⟨insts Reg.ADC_CH_CFG 8, 12, 8, within 1 255⟩,
    ⟨insts Reg.ADC_CH_RATE 8, 0, 32, within 1 65535⟩,
    ⟨[Reg.FIRE_TEMP_STALE], 0, 32, within 16 1024⟩,
    ⟨insts Reg.FIRE_BAR_OFFSET 8, 0, 32, within 0 1000000000⟩,
    ⟨insts Reg.CXP_CAM_PITCH 2, 0, 32, within 0x10000 0x0FFFFFFF⟩,
    ⟨insts Reg.CXP_CAM_RATE_MAX 2, 0, 32, within 100 24000⟩,
    ⟨insts Reg.CXP_CAM_OFFSET 2, 0, 32, within 0 1000000000⟩,
    ⟨insts Reg.CXP_CAM_TRIG_LAT 2, 0, 32, within 0 100000⟩,
    ⟨[Reg.VPIPE_FRAME_LINES], 0, 32, within 256 4096⟩,
    ⟨[Reg.VPIPE_OVF_LINES], 0, 32, within 64 4096⟩,
    ⟨[Reg.VPIPE_ARCHIVE], 0, 4, within 0 4⟩,
    ⟨[Reg.VPIPE_ARCHIVE], 4, 16, within 1 65535⟩,
    ⟨[Reg.VPIPE_NR], 0, 4, within 0 4⟩,
    ⟨[Reg.VPIPE_FAULT_LIM], 0, 12, within 0 4096⟩ ] ++
  [ ⟨[Reg.LOOP_COL_CYCLE], 0, 32, within 10000 1000000⟩,
    ⟨[Reg.LOOP_COL_DEADBAND], 0, 16, within 0 1000⟩,
    ⟨[Reg.LOOP_COL_RATE], 0, 11, within 1 1024⟩,
    ⟨[Reg.LOOP_COL_RATE], 16, 12, within 1 2048⟩,
    ⟨[Reg.LOOP_COL_RAMP], 0, 16, within 100 20000⟩,
    ⟨[Reg.LOOP_COL_RAMP], 16, 7, within 1 64⟩,
    ⟨[Reg.LOOP_COL_SUSPECT_MAX], 0, 12, within 0 4096⟩,
    ⟨[Reg.LOOP_REG_CYCLE], 0, 32, within 10000 1000000⟩,
    ⟨[Reg.LOOP_REG_CFG], 8, 8, within 1 255⟩,
    ⟨[Reg.LOOP_REG_RATE], 0, 8, within 1 255⟩,
    ⟨[Reg.LOOP_REG_RATE], 16, 13, within 1 4096⟩,
    ⟨[Reg.LOOP_AWL], 4, 4, within 1 15⟩ ] ++
  [ ⟨[Reg.TIME_SERVO], 0, 8, within 1 255⟩,
    ⟨[Reg.TIME_SERVO], 8, 8, within 1 255⟩,
    ⟨[Reg.TIME_LOCK_THR], 0, 32, within 1 1000000⟩,
    ⟨[Reg.TIME_HO_DRIFT], 0, 32, within 0 100000⟩,
    ⟨[Reg.TIME_PPS_OUT], 0, 10, within 1 999⟩,
    ⟨[Reg.NET_INTERVALS], 0, 8, withinS (-7) 4⟩,
    ⟨[Reg.NET_INTERVALS], 8, 8, withinS (-3) 4⟩,
    ⟨[Reg.NET_INTERVALS], 16, 8, withinS (-7) 5⟩,
    ⟨[Reg.NET_INTERVALS], 24, 8, within 2 10⟩ ] ++
  [ ⟨[Reg.MEMC_PD_IDLE], 0, 32, fun v => v == 0 || within 100 1000000 v⟩,
    ⟨[Reg.MEMC_SR_IDLE], 0, 32, within 1 10000⟩,
    ⟨[Reg.MEMC_ERASE_THR], 0, 32, within 1 65535⟩,
    ⟨[Reg.MEMC_UE_LIMIT], 0, 32, within 1 65535⟩,
    ⟨[Reg.MEMC_SCRUB_HOURS], 0, 32, within 1 168⟩,
    ⟨[Reg.PAIR_MATCH_MS], 0, 32, within 1 10000⟩,
    ⟨[Reg.PAIR_SYNC_LEAD], 0, 32, within 100 1800⟩,
    ⟨[Reg.PWR_PHASE_TIMEOUT], 0, 32, within 1 1000⟩,
    ⟨[Reg.PWR_DRAIN_TIMEOUT], 0, 32, within 1 1000⟩,
    ⟨[Reg.PWR_BUDGET], 0, 32, within 50 400⟩,
    ⟨[Reg.PWR_SR_LIMIT], 0, 32, within 10 100000⟩,
    ⟨[Reg.PWR_MOTION], 0, 8, within 1 255⟩,
    ⟨[Reg.PWR_MOTION], 8, 8, within 1 255⟩,
    ⟨[Reg.HLTH_CFG], 16, 7, within 1 63⟩,
    ⟨[Reg.HLTH_CFG], 24, 8, within 1 100⟩ ]

/-! ## Tables -/

/-- The written length of a table. -/
def Dev.tableLen (d : Dev) (id : Nat) : Nat := (mapGet {} d.cfg.force.tables id : Table).len

/-- `n` bytes of a table from offset `o` are 0. -/
def Dev.tableZero (d : Dev) (id o n : Nat) : Bool := d.tableNum id o n == 0

/-- The CRC-32C of a table of `total` bytes stands at `o`, computed with that field as 0. -/
def Dev.tableCrc (d : Dev) (id total o : Nat) : Bool :=
  let bs := mapRead 0 (d.table id) 0 total
  crc32c (bs.take o ++ leBytes 4 0 ++ bs.drop (o + 4)) == d.tableNum id o 4

/-- Offset of row i of table 0x2201. -/
def eqOff (i : Nat) : Nat := 32 + 16 * i

/-- R323, check 2 of table 0x2201. -/
def Dev.eqBad2 (d : Dev) : Bool :=
  let n : Nat → Nat → Nat := d.tableNum 0x2201
  !(n 0 4 == 0x45515442 && n 4 1 == 1 && n 5 1 == 0 &&
    (List.range d.eqRows).all (fun i =>
      let o := eqOff i
      decide (n (o + 1) 1 < 8) && decide (n (o + 4) 1 < 16) && decide (n (o + 7) 1 < 16) && decide (n (o + 13) 1 < 16) &&
        n (o + 14) 2 == 0))

/-- R321, R323, check 4 of table 0x2201. -/
def Dev.eqBad4 (d : Dev) : Bool :=
  let n : Nat → Nat → Nat := d.tableNum 0x2201
  let rows := d.eqRows
  let key : Nat → Nat × Nat × Nat := fun i => (n (eqOff i) 1, n (eqOff i + 1) 1, n (eqOff i + 2) 2)
  !(within 1 1024 rows && d.tableLen 0x2201 == 32 + 16 * rows && d.tableCrc 0x2201 (32 + 16 * rows) 28 &&
    (List.range rows).all (fun i =>
      let o := eqOff i
      let lane := n o 1
      let preset := n (o + 13) 1
      decide (lane ≤ 35) && decide (n (o + 5) 1 ≤ 16) && decide (n (o + 6) 1 ≤ 32) && decide (n (o + 5) 1 + n (o + 6) 1 ≤ 24) &&
        (List.range 5).all (fun k => withinS (-63) 63 (n (o + 8 + k) 1)) &&
        (if lane < 8 then decide (preset ≤ 10) else preset == 15) &&
        (List.range i).all (fun j => key j != key i)))

/-- Tables 0x2410 + c (R344): check 2, then check 4. -/
def Dev.corrBad2 (d : Dev) (c : Nat) : Bool :=
  let id := 0x2410 + c
  !(d.tableNum id 0 4 == 0x56435442 && d.tableNum id 4 1 == 1 && d.tableZero id 5 3 && d.tableZero id 80 44 &&
    (List.range camPixels).all (fun p => d.tableZero id (153 + 32 * p) 7 && decide (d.tableNum id (152 + 32 * p) 1 < 64)))
def Dev.corrBad4 (d : Dev) (c : Nat) : Bool := !(d.tableLen (0x2410 + c) == 393344 && d.tableCrc (0x2410 + c) 393344 124)

/-- The resolution along the web of the image. -/
def Dev.dpiOf (d : Dev) : Nat := [1200, 900, 800, 600].getD (d.cfF Reg.FIRE_CTRL 0 2) 1200

/-- Tables 0x2420 + c (R346): check 2, then check 4 with the limits of AWL regions (R368). -/
def Dev.regionBad2 (d : Dev) (c : Nat) : Bool :=
  let id := 0x2420 + c
  !(d.tableNum id 0 4 == 0x52474E52 && d.tableNum id 4 1 == 1 && d.tableZero id 5 1 && d.tableZero id 8 20 &&
    (List.range (d.tableNum id 6 2)).all (fun i =>
      decide (d.tableNum id (32 + 32 * i) 1 ≤ 3) && d.tableZero id (32 + 32 * i + 26) 6))
def Dev.regionBad4 (d : Dev) (c : Nat) : Bool :=
  let id := 0x2420 + c
  let count := d.tableNum id 6 2
  !(decide (count ≤ 80) && d.tableLen id == 32 + 32 * count && d.tableCrc id (32 + 32 * count) 28 &&
    (List.range count).all (fun i =>
      let t : Nat → Nat → Nat := fun o n => d.tableNum id (32 + 32 * i + o) n
      t 0 1 == 0 ||
      (decide (t 1 1 ≤ 7) && (decide (t 2 1 ≤ 23) || t 2 1 == 0xFF) && (if t 0 1 = 2 then decide (t 3 1 ≤ 5) else t 3 1 == 0) &&
        decide (t 4 2 < t 6 2) && decide (t 6 2 ≤ 12288) && within 1 65536 (t 16 4) && (t 20 4 == 0 || decide (t 16 4 ≤ t 20 4)) &&
        (t 0 1 != 3 || (t 16 4 % 16 == 0 && decide (8 * 1200 ≤ t 16 4 / 16 * d.dpiOf))))))

/-- Table 0x2500 (R358): check 2, check 4 and check 9. -/
def Dev.colBad2 (d : Dev) : Bool :=
  let n : Nat → Nat → Nat := d.tableNum 0x2500
  !(n 0 4 == 0x544C4F43 && n 4 1 == 1 && d.tableZero 0x2500 22 38 &&
    (List.range (n 6 2)).all (fun i => n (64 + 16 * i + 7) 1 == 0 && n (64 + 16 * i + 14) 2 == 0))
def Dev.colBad4 (d : Dev) : Bool :=
  let n : Nat → Nat → Nat := d.tableNum 0x2500
  let count := n 6 2
  let tone : Nat → Nat := fun j => n (8 + j) 1
  !(within 1 8 (n 5 1) && decide (count ≤ 160) && d.tableLen 0x2500 == 64 + 16 * count && d.tableCrc 0x2500 (64 + 16 * count) 60 &&
    (List.range 8).all (fun j =>
      if j < n 5 1 then within 1 254 (tone j) && (j == 0 || decide (tone (j - 1) < tone j)) else tone j == 0) &&
    (List.range count).all (fun i =>
      let t : Nat → Nat := fun o => n (64 + 16 * i + o) 1
      decide (t 0 ≤ 1) && decide (t 1 ≤ 79) && decide (t 2 ≤ 7) && decide (t 3 ≤ 23) && decide (t 4 ≤ 63) && within 1 64 (t 5) &&
        decide (t 4 + t 5 ≤ 64) && decide (t 6 < n 5 1)))
def Dev.colBad9 (d : Dev) : Bool :=
  let t : Nat → Nat → Nat := fun i o => d.tableNum 0x2500 (64 + 16 * i + o) 1
  !(List.range (d.tableNum 0x2500 6 2)).all (fun i =>
    let r := 0x2420 + t i 0
    let o := 32 + 32 * t i 1
    decide (t i 1 < d.tableNum r 6 2) && d.tableNum r o 1 == 1 && d.tableNum r (o + 1) 1 == t i 2 &&
      d.tableNum r (o + 2) 1 == t i 3 && (List.range i).all (fun j => t j 0 != t i 0 || t j 1 != t i 1))

/-- Camera c is enabled in the image. -/
def Dev.camOn (d : Dev) (c : Nat) : Bool := d.cfB (Reg.CXP_CAM_CFG c) 0

/-- The tables that fail a check, of those that are used (R513) or written. -/
def Dev.badTables (d : Dev) (four : Bool) : List Nat :=
  let due : Nat → Bool → Bool := fun id used => used || decide (d.tableLen id ≠ 0)
  (if (if four then d.eqBad4 else d.eqBad2) then [0x2201] else []) ++
    (List.range 2).filterMap (fun c =>
      if due (0x2410 + c) (d.camOn c) && (if four then d.corrBad4 c else d.corrBad2 c) then some (0x2410 + c) else none) ++
    (List.range 2).filterMap (fun c =>
      if due (0x2420 + c) (d.camOn c) && (if four then d.regionBad4 c else d.regionBad2 c) then some (0x2420 + c) else none) ++
    (if due 0x2500 (d.feat 35) && (if four then d.colBad4 else d.colBad2) then [0x2500] else [])

/-! ## The checks -/

/-- The field or table that a check reports: the lowest register address, else the first table. -/
def firstBad (regs tables : List Nat) : Option Nat :=
  match regs.min? with
  | some a => some a
  | none => tables.head?

/-- Check 3: values in use and the feature each needs (R513). -/
def Dev.uses (d : Dev) : List (Nat × Nat) :=
  let contone := d.feat 10 || d.feat 11
  let on : Bool → Nat → Nat → List (Nat × Nat) := fun c a f => if c then [(a, f)] else []
  let ssi : Nat → Bool := fun v => v == 4 || v == 5
  d.enBars.flatMap (fun b =>
    let m := d.cfF (Reg.RE_SCREEN b) 0 2
    on (contone && m == 1) (Reg.RE_SCREEN b) 20 ++ on (contone && m == 2) (Reg.RE_SCREEN b) 21 ++
      on (d.cfB (Reg.RE_DNC b) 16) (Reg.RE_DNC b) 22) ++
    on (d.cfB Reg.DFL_CMP_CTRL 3) Reg.DFL_CMP_CTRL 17 ++
    (List.range 4).flatMap (fun k => on (d.cfB (Reg.POS_ENC_CFG k) 0) (Reg.POS_ENC_CFG k) 24) ++
    (List.range 2).flatMap (fun k => on (d.cfB (Reg.POS_SSI_CFG k) 0) (Reg.POS_SSI_CFG k) 25) ++
    on (ssi (d.cfF Reg.POS_REF 0 3) || ssi (d.cfF Reg.POS_REF 4 3)) Reg.POS_REF 25 ++
    (List.range 8).flatMap (fun k =>
      let a := Reg.POS_CMP_CFG k
      on (d.cfB a 0) a 27 ++ on (d.cfB a 0 && ssi (d.cfF a 1 3)) a 25) ++
    (List.range 2).flatMap (fun e =>
      let a := Reg.POS_EMU_CFG e
      on (d.cfB a 0) a 26 ++ on (d.cfB a 0 && ssi (d.cfF a 1 3)) a 25) ++
    (List.range 8).flatMap (fun n => on (d.cfF (Reg.ADC_CH_CFG n) 0 2 != 0) (Reg.ADC_CH_CFG n) 29) ++
    (List.range 2).flatMap (fun c => on (d.camOn c) (Reg.CXP_CAM_CFG c) 32) ++
    on (d.cfB Reg.LOOP_AWL 0) Reg.LOOP_AWL 34 ++
    on (d.cfF Reg.TIME_CFG 0 2 == 1) Reg.TIME_CFG 37 ++ on (d.cfF Reg.TIME_CFG 0 2 == 3) Reg.TIME_CFG 41 ++
    on (d.cfF Reg.NET_CFG 0 2 == 1) Reg.NET_CFG 37 ++ on (d.cfF Reg.NET_CFG 0 2 == 2) Reg.NET_CFG 38 ++
    on (d.cfB Reg.NET_CFG 3) Reg.NET_CFG 39 ++ on (d.cfF Reg.NET_CFG 5 2 == 2) Reg.NET_CFG 40 ++
    on (d.cfB Reg.PAIR_CFG 0) Reg.PAIR_CFG 41 ++ on (d.cfB Reg.PAIR_CFG 2) Reg.PAIR_CFG 42

/-- Check 3 on the tables (R332, R513): a used table of regions that names kinds without their features, SPECTRAL for PATCH and MARK
and AWL for AWL. -/
def Dev.tableUses (d : Dev) : List Nat :=
  (List.range 2).filterMap (fun c =>
    let id := 0x2420 + c
    let kinds := (List.range (min 80 (d.tableNum id 6 2))).map (fun i => d.tableNum id (32 + 32 * i) 1)
    if d.camOn c && kinds.any (fun k => ((k == 1 || k == 2) && !d.feat 33) || (k == 3 && !d.feat 34)) then some id else none)

/-- The Lace lanes in use. -/
def Dev.laceLanes (d : Dev) : List Nat :=
  d.enBars.flatMap (fun b => (8 + 2 * b) :: (if d.cfB (Reg.LACE_CFG b) 1 then [] else [9 + 2 * b]))

/-- The Shank lanes in use. -/
def Dev.shankLanes (d : Dev) : List Nat := if d.cfB Reg.PAIR_CFG 0 then [24, 25] else []

/-- Registers that check 4 refuses beside the ranges of single fields. -/
def Dev.rangeExtra (d : Dev) : List Nat :=
  (List.range 8).filterMap (fun b =>
    if 256 < 2 * d.cfF (Reg.RE_DNC b) 0 8 + 2 * d.cfF (Reg.RE_DNC b) 8 8 then some (Reg.RE_DNC b) else none) ++
    (d.laceLanes ++ d.shankLanes).filterMap (fun l =>
      if d.cfB (Reg.LANE_LN_CFG l) 2 then none else some (Reg.LANE_LN_CFG l)) ++
    (if d.cfF Reg.LOOP_AWL_THR 16 16 < d.cfF Reg.LOOP_AWL_THR 0 16 then [] else [Reg.LOOP_AWL_THR]) ++
    (if d.cf Reg.TIME_LOCK_THR < d.cf Reg.TIME_BIG_THR then [] else [Reg.TIME_BIG_THR]) ++
    (if d.cf Reg.PAIR_QUIET_PERIOD ≠ 0 ∧ d.cf Reg.PAIR_QUIET_PERIOD ≤ d.cf Reg.PAIR_QUIET_LINE then [Reg.PAIR_QUIET_LINE] else [])

/-- An ALT 0 row exists for a lane by step 1 or 2 of R322. -/
def Dev.hasRow (d : Dev) (l rate : Nat) : Bool := (d.eqFind l d.slot 0 rate).isSome || (d.eqFind l d.slot 0 0).isSome

/-- Check 5. -/
def Dev.rowsOk (d : Dev) : Bool :=
  d.laceLanes.all (fun l => d.hasRow l (d.laneRateOf l)) &&
    (List.range 2).all (fun c => !d.camOn c ||
      (List.range (d.camLinks c)).all (fun k => (d.eqFind (26 + 4 * c + k) d.slot 0 0).isSome))

/-- Check 7: the windows hold 2 s of uncompressed P2 lines at the configured maximum speed. -/
def Dev.windowOk (d : Dev) : Bool :=
  let bars := d.enBars.length
  let dpi := d.dpiOf
  let w := winMib d.channels (d.cfF Reg.PLACE_REPEAT 0 5) bars * 0x100000
  bars == 0 || decide (2 * (d.cf Reg.PLACE_SPEED_MAX * dpi / 1524) * 24576 ≤ w)

/-- A position channel is enabled; its scale. -/
def Dev.chanOn (d : Dev) (ch : Nat) : Bool :=
  if ch < 4 then d.cfB (Reg.POS_ENC_CFG ch) 0 else if ch < 6 then d.cfB (Reg.POS_SSI_CFG (ch - 4)) 0 else false
def Dev.chanScale (d : Dev) (ch : Nat) : Nat :=
  if ch < 4 then d.cf (Reg.POS_ENC_SCALE ch) else d.cf (Reg.POS_SSI_SCALE (ch - 4))

/-- Two bit ranges of a serial frame overlap. -/
def overlaps (a n b m : Nat) : Bool := decide (0 < n ∧ 0 < m ∧ a < b + m ∧ b < a + n)

/-- R245: the dependencies of an enabled serial channel; the register that fails. -/
def Dev.ssiWrong (d : Dev) (k : Nat) : Option Nat :=
  let f := Reg.POS_SSI_FIELDS k
  let lsb := d.cfF f 0 6
  let bits := d.cfF f 6 6
  let err := if d.cfB f 18 then 1 else 0
  let crc := d.cfF f 19 5
  let frame := d.cfF (Reg.POS_SSI_CFG k) 3 7
  let lead := d.cfF (Reg.POS_SSI_CFG k) 10 2
  let khz := d.cfF (Reg.POS_SSI_TIMING k) 0 16
  let period := d.cf (Reg.POS_SSI_PERIOD k)
  if d.cfB (Reg.POS_SSI_CFG k) 0 = false then none
  else if frame < lsb + bits ∨ overlaps lsb bits (d.cfF f 12 6) err ∨ overlaps lsb bits 0 crc ∨ overlaps (d.cfF f 12 6) err 0 crc
  then some f
  else if 1000000 ≤ d.cfF (Reg.POS_SSI_TIMING k) 16 8 * 20 * khz then some (Reg.POS_SSI_TIMING k)
  else if period ≠ 0 ∧ 2 * period * khz < (2 * (lead + frame) + 1) * 1000 + 2 * d.cf (Reg.POS_SSI_TIMEOUT k) * khz
  then some (Reg.POS_SSI_PERIOD k)
  else if 2 ^ (bits - 1) ≤ d.cf (Reg.POS_SSI_MAX_STEP k) then some (Reg.POS_SSI_MAX_STEP k)
  else none

/-- R222, R245: the observer bandwidth is too high for a serial source of the image. -/
def Dev.bwBad (d : Dev) : Bool :=
  let hz := 25 * 2 ^ d.cfF Reg.POS_OBS 0 4
  let src : List Nat := d.cfF Reg.POS_REF 0 3 :: (if d.cfB Reg.POS_REF 8 then [d.cfF Reg.POS_REF 4 3] else [])
  src.any (fun s => (s == 4 || s == 5) && decide (1000000 < 5 * hz * d.cf (Reg.POS_SSI_PERIOD (s - 4))))

/-- POS_REF breaks R245. -/
def Dev.refBad (d : Dev) : Bool :=
  let r := d.cfF Reg.POS_REF 0 3
  let c := d.cfF Reg.POS_REF 4 3
  let ok : Nat → Bool := fun ch => d.chanOn ch && d.chanScale ch != 0
  !ok r || (c != 7 && (c == r || !ok c)) || (d.cfB Reg.POS_REF 8 && c == 7)

/-- Link rate of a camera in Mb/s. -/
def Dev.camMbps (d : Dev) (c : Nat) : Nat := [1250, 2500, 3125, 5000, 6250, 10000, 12500].getD (d.cfF (Reg.CXP_CAM_CFG c) 3 3) 0

/-- Check 9: registers whose dependent values do not agree. -/
def Dev.depBad (d : Dev) : List Nat :=
  let cams := (List.range 2).filter d.camOn
  let on : Bool → Nat → List Nat := fun c a => if c then [a] else []
  let slow : Nat → Bool := fun a => cams.any (fun c =>
    decide (d.cf a < cdiv (d.cf Reg.VPIPE_FRAME_LINES * 1000000) (d.cf (Reg.CXP_CAM_RATE_MAX c))))
  let dpi := d.dpiOf
  on d.refBad Reg.POS_REF ++ on d.bwBad Reg.POS_OBS ++
    (List.range 4).flatMap (fun k =>
      let i := d.cf (Reg.POS_ENC_IDX_INTERVAL k)
      on (d.chanOn k && i != 0 && decide (i ≤ 2 * d.cf (Reg.POS_ENC_IDX_TOL k))) (Reg.POS_ENC_IDX_TOL k)) ++
    (List.range 2).filterMap d.ssiWrong ++
    (List.range 2).flatMap (fun e =>
      let a := Reg.POS_EMU_CFG e
      on (d.cfB a 0 && !d.chanOn (d.cfF a 1 3)) a ++
        on (d.cfB a 0 && d.cf (Reg.POS_EMU_Z_PERIOD e) % 4 != 0) (Reg.POS_EMU_Z_PERIOD e)) ++
    cams.flatMap (fun c =>
      on (decide (76 * d.camLinks c * d.camMbps c * 1000000 < 100 * (d.cf (Reg.CXP_CAM_RATE_MAX c) * 884736)))
        (Reg.CXP_CAM_RATE_MAX c)) ++
    on (!cams.isEmpty && decide (2684354560 <
      2 * (d.cfF Reg.VPIPE_ARCHIVE 0 4 * d.cf Reg.VPIPE_FRAME_LINES + d.cf Reg.VPIPE_OVF_LINES) * 110608)) Reg.VPIPE_ARCHIVE ++
    on (slow Reg.LOOP_COL_CYCLE) Reg.LOOP_COL_CYCLE ++
    on (decide (d.cfF Reg.LOOP_COL_RAMP 0 16 * 1000 * dpi / (d.cfF Reg.LOOP_COL_RAMP 16 7 * 25400) < 2048)) Reg.LOOP_COL_RAMP ++
    on (slow Reg.LOOP_REG_CYCLE) Reg.LOOP_REG_CYCLE ++
    on (!d.enBars.contains (d.cfF Reg.LOOP_REG_CFG 0 3)) Reg.LOOP_REG_CFG

/-- The checks 2 to 9 in order: the number and the field of the first that fails. -/
def Dev.imageCheck (d : Dev) : Option (Nat × Nat) :=
  let two := firstBad (enumRules.flatMap d.ruleBad) (d.badTables false)
  let three := firstBad ((d.uses.filter (fun u => !d.feat u.2)).map Prod.fst) d.tableUses
  let four := firstBad (rangeRules.flatMap d.ruleBad ++ d.rangeExtra) (d.badTables true)
  let six : Option Nat :=
    if d.feat 41 = false then none
    else if d.bit Reg.SYS_STRAPS 6 = false then some Reg.PAIR_CFG
    else if d.hasRow 24 128 && d.hasRow 25 128 then none
    else some 0x2201
  let eight := firstBad ((List.range 8).filterMap (fun k =>
    let a := Reg.POS_CMP_CFG k
    if d.cfB a 0 && !d.chanOn (d.cfF a 1 3) then some a else none)) []
  let nine := firstBad d.depBad (if d.feat 35 && d.colBad9 then [0x2500] else [])
  match two, three, four with
  | some a, _, _ => some (2, a)
  | none, some a, _ => some (3, a)
  | none, none, some a => some (4, a)
  | none, none, none =>
    if d.rowsOk = false then some (5, 0x2201)
    else
      match six with
      | some a => some (6, a)
      | none =>
        if d.windowOk = false then some (7, Reg.PLACE_REPEAT)
        else
          match eight, nine with
          | some a, _ => some (8, a)
          | none, some a => some (9, a)
          | none, none => none

end Sys2Proof.Machine
end

