-- ==== Sys2Proof/Machine/Control.lean ====
section
/-!
DEFINITION. Feature negotiation (R77-R79) and the configuration session (R80-R85, R115, R116, R511): CFG_BEGIN, CFG_WRITE,
CFG_COMMIT, CFG_READ and the stored copies.
-/

namespace Sys2Proof.Machine

/-! ## Feature negotiation (R77-R79) -/

/-- What each feature bit requires (R79): groups of which one bit must be accepted. -/
def featNeeds : List (Nat × List (List Nat)) :=
  [ (1, [[0]]), (2, [[0]]), (3, [[0]]), (12, [[8, 9]]), (13, [[10, 11]]), (17, [[16]]), (20, [[10, 11]]), (21, [[10, 11]]),
    (26, [[24, 25]]), (27, [[24, 25]]), (28, [[27]]), (33, [[32]]), (34, [[33]]), (35, [[33], [10, 11]]), (36, [[33]]),
    (38, [[37]]), (39, [[37]]), (40, [[37]]), (42, [[41]]), (44, [[43]]) ]

/-- The feature bits R79 lists; all others are reserved. -/
def featListed : List Nat :=
  [0, 1, 2, 3] ++ (List.range 11).map (fun i => 8 + i) ++ [20, 21, 22, 23, 24, 25, 26, 27, 28, 29] ++
    (List.range 14).map (fun i => 32 + i)

/-- The host has written 1 to feature bit n, locked or not. -/
def Dev.accepts (d : Dev) (n : Nat) : Bool := d.bit (Reg.SYS_FEAT_ACCEPT (n / 32)) (n % 32)

/-- Feature bit n fails the check of FEAT_LOCK: QF_BASE missing, a requirement missing, or a reserved bit set. -/
def Dev.featBad (d : Dev) (n : Nat) : Bool :=
  if n = 0 then !d.accepts 0
  else d.accepts n &&
    (!featListed.contains n || featNeeds.any (fun r => r.1 == n && r.2.any (fun g => !g.any d.accepts)))

/-- FEAT_LOCK: a locked set stays as it is. -/
def Dev.opFeatLock (d : Dev) : Dev :=
  if d.featLocked then d
  else
    match (List.range 256).find? d.featBad with
    | some n => d.wr Reg.SYS_FEAT_ERR (n + 0x100)
    | none => d.wrBit Reg.SYS_STATUS 9 true

/-- A write of SYS_FEAT_ACCEPT word i: a 1 for a bit that is not offered stays 0 and is logged; after the lock the write is
ignored and logged (R77, R78). -/
def Dev.opFeatAccept (d : Dev) (i v : Nat) : Dev :=
  let a := Reg.SYS_FEAT_ACCEPT i
  let offered := Nat.land v (d.rd (Reg.SYS_FEAT_OFFER i))
  if d.featLocked then d.writeIgnored a v
  else
    let d1 := d.wr a offered
    if offered = v then d1 else d1.writeIgnored a v

/-- The accepted feature bits, rising. -/
def Dev.featSet (d : Dev) : List Nat := (List.range 256).filter d.accepts

/-! ## Images and stored copies (R80, R84, R85) -/

/-- The image of reset values: no table is written. -/
def resetImage : Image := { regs := resetRwh }

/-- The next store goes to copy B: it is the invalid one, or the one with the lower sequence number (R84). -/
def CfgSt.storeToB (c : CfgSt) : Bool :=
  match c.copyA, c.copyB with
  | .valid a _ _, .valid b _ _ => decide (b < a)
  | .valid _ _ _, _ => true
  | _, _ => false

/-- Store a copy (R84). -/
def CfgSt.store (c : CfgSt) (x : CopySt) : CfgSt := if c.storeToB then { c with copyB := x } else { c with copyA := x }

/-- The pair that had formed with the withdrawn configuration is no pair any more. -/
def Dev.unform (d : Dev) : Dev :=
  let p : PairSt := { d.pair with hbLast := none, rxSeq := 0, helloIn := false, helloBoth := false, part := [] }
  (({ d with pair := p } : Dev).wrBit Reg.PAIR_STATUS 4 false).wrBit Reg.PAIR_STATUS 5 false

/-- FIRE_BARb_STATUS.ENABLED follows FIRE_BAR_EN in force. -/
def Dev.showEnabled (d : Dev) : Dev :=
  (List.range 8).foldl (fun acc b => acc.wrBit (Reg.FIRE_BAR_STATUS b) 0 (acc.barEn b)) d

/-- Open a session from an image (R80): the committed configuration is withdrawn. -/
def Dev.openSession (d : Dev) (img : Image) : Dev :=
  let d1 : Dev := { d with cfg := { d.cfg with session := some img, force := resetImage } }
  let d2 := (((d1.wrF Reg.SYS_STATUS 4 3 2).wr Reg.SYS_CFG_RUN_COUNT 0).wr Reg.SYS_CFG_RUN_CRC 0).wr Reg.SYS_CFG_SEQ 0
  d2.unform.showEnabled

/-- The body of CFG_BEGIN. -/
def Dev.cfgBeginBody (d : Dev) (o : Out) : Dev :=
  let src := byteAt o.entry 8
  if src = 0 then (d.openSession resetImage).complete o OK 0 []
  else if src = 1 then
    match d.cfg.located with
    | some (seq, feats, img) =>
      if feats = d.featSet then (d.openSession img).complete o OK seq [] else d.complete o NO_STORED_CFG 0 []
    | none => d.complete o NO_STORED_CFG 0 []
  else
    match d.cfg.last with
    | some img => (d.openSession img).complete o OK d.cfg.lastSeq []
    | none => d.complete o NOT_COMMITTED 0 []

/-! ## Writes to the staging image (R81, R115, R116) -/

/-- The configuration tables by number. -/
def cfgTables : List Nat := [0x2201, 0x2410, 0x2411, 0x2420, 0x2421, 0x2500]

/-- The address rules of TARGET 0 (R115, R116). -/
def regSpanOk (off len : Nat) : Bool :=
  off % 4 == 0 && len % 4 == 0 && isRwh off && (List.range (len / 4)).all (fun i => isRwh (off + 4 * i))

/-- The TARGET, OFFSET and LENGTH name a part of the configuration. -/
def cfgSpanOk (target off len : Nat) : Bool := if target = 0 then regSpanOk off len else cfgTables.contains target

/-- Bits of a register that a write sets. -/
def writable (a : Nat) : Nat := match rowAt a with | some r => r.wmask | none => 0

/-- Words into registers from an address upward. -/
def Image.putRegs (img : Image) (a : Nat) : List Nat → Image
  | [] => img
  | w :: ws => Image.putRegs { img with regs := mapSet 0 img.regs a (BitVec.ofNat 32 (Nat.land w (writable a))) } (a + 4) ws

/-- Bytes into a table. -/
def Image.putTable (img : Image) (id off : Nat) (bs : List Byte) : Image :=
  let t : Table := mapGet {} img.tables id
  let t' : Table := { len := if bs.isEmpty then t.len else max t.len (off + bs.length), bytes := mapWrite 0 t.bytes off bs }
  { img with tables := mapSet {} img.tables id t' }

/-- Bytes of the RWH registers, which every image holds (R80). -/
def rwhBytes : Nat := 4 * ((((List.range 64).flatMap rowsOfBlock).filter (fun r => r.acc == .rwh)).map (fun r => r.n1 * r.n2)).sum

/-- Bytes the image takes after a write to one of its tables: the registers and the tables. -/
def Image.sizeWith (img : Image) (id top : Nat) : Nat :=
  rwhBytes + (cfgTables.map (fun i => let n := (mapGet {} img.tables i : Table).len; if i = id then max n top else n)).sum

/-- A write enters the staging image and is counted. -/
def Dev.stage (d : Dev) (img : Image) (target off : Nat) (bs : List Byte) : Dev :=
  let img' := if target = 0 then img.putRegs off (bytesWords bs) else img.putTable target off bs
  let crc := crc32cMore (d.rd Reg.SYS_CFG_RUN_CRC) (leBytes 4 target ++ leBytes 4 off ++ leBytes 4 bs.length ++ bs)
  let d1 : Dev := { d with cfg := { d.cfg with session := some img' } }
  (d1.wr Reg.SYS_CFG_RUN_COUNT (d.rd Reg.SYS_CFG_RUN_COUNT + 1)).wr Reg.SYS_CFG_RUN_CRC crc

/-- The body of CFG_WRITE. -/
def Dev.cfgWriteBody (dma : Dma) (d : Dev) (o : Out) : Dev :=
  let target := numAt o.entry 8 4
  let off := numAt o.entry 12 4
  let len := numAt o.entry 16 4
  match d.cfg.session with
  | none => d.complete o NO_SESSION 0 []
  | some img =>
    let chk : Nat → Option Nat := fun n =>
      if cfgSpanOk target off len = false ∨ n < len then some OUT_OF_RANGE
      else if target ≠ 0 ∧ len ≠ 0 ∧ 0x200000 < img.sizeWith target (off + len) then some CFG_IMAGE_FULL
      else none
    d.dmaIn o dma chk (fun y bs =>
      let y1 := y.stage img target off (bs.take len)
      y1.complete o OK (y1.rd Reg.SYS_CFG_RUN_COUNT) [])

/-! ## CFG_READ (R511) -/

/-- Bytes of a part of an image. -/
def Image.part (img : Image) (target off len room : Nat) : List Byte :=
  if target = 0 then
    (wordsBytes ((List.range (len / 4)).map (fun i => (mapGet 0 img.regs (off + 4 * i)).toNat))).take room
  else
    let t : Table := mapGet {} img.tables target
    mapRead 0 t.bytes off (min (min (off + len) t.len) (off + room) - off)

/-- The body of CFG_READ. -/
def Dev.cfgReadBody (dma : Dma) (d : Dev) (o : Out) : Dev :=
  let target := numAt o.entry 8 4
  let off := numAt o.entry 12 4
  let len := numAt o.entry 16 4
  let source : Option Image :=
    match d.cfg.session with
    | some img => some img
    | none => if d.cfgField = 3 then some d.cfg.force else none
  match source with
  | none => d.complete o NOT_COMMITTED 0 []
  | some img =>
    if cfgSpanOk target off len = false then d.complete o OUT_OF_RANGE 0 []
    else d.dmaOut o dma (fun room => img.part target off len room) (fun y n => y.complete o OK n [])

/-! ## CFG_COMMIT (R82-R84) -/

/-- The sequence number of the next commit (R83). -/
def CfgSt.nextSeq (c : CfgSt) : Nat :=
  max c.lastSeq (match c.newest with | some (s, _, _) => s | none => 0) + 1

/-- What takes its configured form when a configuration takes force: windows (R144), the position source (R218), the serial and
analogue inputs (R214, R241), the emulation outputs (R238), the correction banks of the cameras (R344), the lanes (R324), the bar offsets (R249) and the field outputs. -/
def Dev.applyConfig (d : Dev) : Dev :=
  let base : CamSt → CamSt := fun x => { x with banks := [] }
  let d1 : Dev := { d with cam := d.cam.map (fun x => (x.1, base x.2)) }
  (((((((d1.resizeWindows.showRepeat).selectSource true).inputsCommit).emuCommit).laneCommit).showEnabled).showOmega).outputs

/-- The configuration takes force and the session closes (R83). -/
def Dev.takeForce (d : Dev) (img : Image) : Dev :=
  let seq := d.cfg.nextSeq
  let d1 : Dev := { d with cfg := { d.cfg with session := none, force := img, last := some img, lastSeq := seq } }
  ((d1.wrF Reg.SYS_STATUS 4 3 3).wr Reg.SYS_CFG_SEQ seq).applyConfig

/-- The body of CFG_COMMIT. -/
def Dev.cfgCommitBody (storeFails : Bool) (d : Dev) (o : Out) : Dev :=
  match d.cfg.session with
  | none => d.complete o NO_SESSION 0 []
  | some img =>
    if numAt o.entry 8 4 ≠ d.rd Reg.SYS_CFG_RUN_COUNT ∨ numAt o.entry 12 4 ≠ d.rd Reg.SYS_CFG_RUN_CRC then
      d.complete o CFG_CHECK_FAILED 0x1000000 []
    else
      match ({ d with cfg := { d.cfg with force := img } } : Dev).imageCheck with
      | some (check, field) => d.complete o CFG_CHECK_FAILED (check * 0x1000000 + field) []
      | none =>
        let d1 := d.takeForce img
        let seq := d1.cfg.lastSeq
        if bitOf (byteAt o.entry 16) 0 = false then d1.complete o OK seq []
        else if storeFails then ({ d1 with cfg := d1.cfg.store .bad } : Dev).complete o CFG_STORE_FAILED 0 []
        else ({ d1 with cfg := d1.cfg.store (.valid seq d.featSet img) } : Dev).complete o OK seq []

/-! ## Meanings -/

/-- FEAT_LOCK (R77, R79). -/
def execFeatLock (s : State) : Host.Outcome State Fault Refusal := s.withDev s.dev.dozeExit.opFeatLock

/-- CFG_BEGIN (R80, R115, R116). -/
def execCfgBegin (q : Fin 16) (s : State) : Host.Outcome State Fault Refusal := s.withDev (s.dev.runCmd q 0x0101 Dev.cfgBeginBody)

/-- CFG_WRITE (R81, R115, R116). -/
def execCfgWrite (q : Fin 16) (dma : Dma) (s : State) : Host.Outcome State Fault Refusal :=
  s.withDev (s.dev.runCmd q 0x0102 (Dev.cfgWriteBody dma))

/-- CFG_COMMIT (R82-R84, R115, R116, R513). -/
def execCfgCommit (q : Fin 16) (storeFails : Bool) (s : State) : Host.Outcome State Fault Refusal :=
  s.withDev (s.dev.runCmd q 0x0103 (Dev.cfgCommitBody storeFails))

/-- CFG_READ (R115, R511). -/
def execCfgRead (q : Fin 16) (dma : Dma) (s : State) : Host.Outcome State Fault Refusal :=
  s.withDev (s.dev.runCmd q 0x0104 (Dev.cfgReadBody dma))

end Sys2Proof.Machine
end

