-- ==== Sys2Proof/Machine/Resets.lean ====
section
/-!
DEFINITION. What resets, stops or restarts the module from outside: mains, PERST#, the ejector and the PRESENT pins, straps,
the reference clock, the safety partition's reset request (R43, R47, R62-R72, R458), and the restart of a plane (R24, R95, R105,
R114, R131).
-/

namespace Sys2Proof.Machine

/-! ## Resets (R70-R72) -/

/-- A full reset: every output is unpowered first (R53). -/
def Dev.fullRestart (d : Dev) (cause : Nat) (up : StartUp) : Dev := (d.unpower.j2Quiet).restart true cause up

/-- A warm reset by PERST#: also from SLEEP and DEEP_SLEEP (R480) and from a start-up that stays at step 4. -/
def Dev.opPerst (d : Dev) (up : StartUp) : Dev := if d.pwr.failing ∨ d.pState = 5 then d else d.warmRestart 1 up

/-- R458: the partition requests a warm reset 100 ms after it has entered the safe state, which appended SAFE_STATE; after a
reset for the same kind of fault within 10 minutes it does not. -/
def Dev.opSafetyReset (d : Dev) (up : StartUp) : Dev :=
  if d.bit Reg.SAFE_STATUS 3 = false ∨ d.safe.asked then d
  else
    let again := match d.safe.lastReset with | some (b, t) => b == d.safe.safeBit && decide (d.tc ≤ t + 240000000000) | none => false
    if again then { d with safe := { d.safe with asked := true } }
    else
      ({ d with safe := { d.safe with asked := true, lastReset := some (d.safe.safeBit, d.tc) } } : Dev).warmRestart 6 up

/-- The main PLL does not relock after a reference fault. -/
def Dev.opClockFault (d : Dev) (up : StartUp) : Dev := if d.refFault then d.fullRestart 7 up else d

/-! ## Mains (R43) -/

/-- Power-fail warning. -/
def Dev.opPowerFail (d : Dev) : Dev :=
  if d.pwr.failing then d
  else
    let d1 := d.enterHold true (fun x => x.append 4 .pwrFail [])
    let d2 := (d1.flushLog.unpower).j2Quiet.wakeRelease
    { d2 with pwr := { d2.pwr with failing := true } }

/-- The mains returns after power-fail warning. -/
def Dev.opPowerReturn (d : Dev) (up : StartUp) : Dev := if d.pwr.failing then d.fullRestart 5 up else d

/-! ## Presence and the ejector (R63-R66) -/

/-- EJECT opens; without mains only its position changes. -/
def Dev.opEjectOpen (d : Dev) : Dev :=
  if d.pwr.ejected then d
  else if d.pwr.failing then { d with pwr := { d.pwr with ejected := true } }
  else
    let d1 := ((d.enterHold true id).release).flushLog.j2Quiet
    ({ d1 with pwr := { d1.pwr with ejected := true } } : Dev).send (.pin "REMOVE" 0 1)

/-- EJECT closes again; without mains only its position changes, and the module starts once mains is applied (R63, R70). -/
def Dev.opEjectClose (d : Dev) (up : StartUp) : Dev :=
  if d.pwr.ejected = false then d
  else if d.pwr.failing then { d with pwr := { d.pwr with ejected := false } }
  else (({ d with pwr := { d.pwr with ejected := false } } : Dev).send (.pin "REMOVE" 0 0)).fullRestart 3 up

/-- A PRESENT pin reads 1 while EJECT is closed. -/
def Dev.opForcedRemoval (d : Dev) : Dev :=
  if d.pwr.ejected ∨ d.pwr.removed ∨ d.pwr.failing then d
  else
    let d1 := (d.j2Quiet.release).enterHold false id
    ({ d1 with pwr := { d1.pwr with removed := true } } : Dev).append 4 .forcedRemoval []

/-- The J2 transmitters and ROLE are enabled. -/
def Dev.j2On (d : Dev) : Dev :=
  let d1 : Dev := { d with pwr := { d.pwr with j2 := true } }
  if d1.bit Reg.PAIR_STATUS 8 then d1.send (.pin "ROLE" 0 1) else d1

/-- Both PRESENT pins have read 0 for 100 ms. -/
def Dev.opPresent (d : Dev) (up : StartUp) : Dev :=
  if d.pwr.failing ∨ d.pwr.ejected then d
  else if d.pwr.removed then (({ d with pwr := { d.pwr with removed := false } } : Dev).fullRestart 4 up).j2On
  else if d.pwr.j2 then d
  else d.j2On

/-- One PRESENT pin has read 0 and the other 1 for longer than 1 s. -/
def Dev.opMisaligned (d : Dev) : Dev := if d.pwr.failing then d else d.j2Quiet.append 4 .misalignedInsertion []

/-- A strap changes after reset (R47): STRAP_CHANGED shows whether the present straps differ from the latched ones. -/
def Dev.opStraps (d : Dev) (straps : Nat) : Dev :=
  if d.pwr.failing then d
  else
    let d1 : Dev := { d with pwr := { d.pwr with straps := straps } }
    (d1.wrBit Reg.SYS_STRAPS 7 (straps != d1.rdF Reg.SYS_STRAPS 0 7)).append 4 .strapChanged []

/-! ## The reference (R69) -/

/-- A reference fault of a module on SHREF. -/
def Dev.opRefFault (d : Dev) (deviation : Int) : Dev :=
  if d.bit Reg.CLK_STATUS 0 then d
  else
    let d1 := (((d.wrBit Reg.CLK_STATUS 3 true).wrBit Reg.CLK_STATUS 4 true).wrS Reg.CLK_ROOT_DEV deviation).bump Reg.CLK_FAULT_COUNT
    d1.enterHold true (fun x => x.append 0 .refFault [])

/-! ## Plane restart (R24, R95, R105, R114) -/

/-- The command belongs to the plane. -/
def ofPlane (p : Nat) (o : Out) : Bool := opPlane (entOpcode o.entry) == p

/-- A configuration of waiting commands without those of a plane. -/
def Dev.dropOuts (d : Dev) (p : Nat) : Dev :=
  let keeps : Out → Bool := fun o => !ofPlane p o
  let cmp : CmpJob → Bool := fun c => match c.out with | some o => keeps o | none => true
  let pr : PairSt := { d.pair with waits := d.pair.waits.filter (fun w => keeps w.out),
                                   startWait := d.pair.startWait.filter keeps }
  let st : StripSt := { d.strip with waits := d.strip.waits.filter (fun w => keeps w.out),
                                     cmpWait := d.strip.cmpWait.filter cmp }
  { d with host := { d.host with outs := d.host.outs.filter keeps }, pair := pr, strip := st }

/-- Started commands of the plane that wait complete, and then those fetched and not started. -/
def Dev.endCommands (d : Dev) (p : Nat) : Dev :=
  let sel := d.allOuts.filter (ofPlane p)
  let d1 := sel.foldl (fun acc o => acc.complete o PLANE_RESTARTED 0 []) (d.dropOuts p)
  (List.range 16).foldl (fun acc q =>
    if acc.qPlane q = p then (acc.setQs q { acc.qs q with cut := (acc.qs q).fetched.length }).drain q else acc) d1

/-- Entries of a transmit time stamp queue that name no message awaiting one go (R387). -/
def Dev.cleanTsq (d : Dev) (p : Nat) : Dev :=
  let x := d.np p
  let awaited : TsEntry → Bool := fun e => match x.req with | some (s, none) => s == e.id | _ => false
  d.setNp p { x with tsq := x.tsq.filter awaited }

/-- PLANE_RESTART. -/
def Dev.opPlaneRestart (d : Dev) (p : Nat) : Dev :=
  let entryWaits := d.entering && d.phase == 1 && !d.pwr.shelf
  let d1 := d.endCommands p
  if p = 0 then d1
  else if p = 1 then d1.enterHold false id
  else
    let d2 := if entryWaits then d1.entryOver else d1
    let d3 := ((d2.wrBit Reg.TIME_STATUS 5 false).loopsHold 2).toHoldover false
    (d3.cleanTsq 0).cleanTsq 1

/-! ## Meanings -/

/-- POWER_ON (R70, R73, R74, R85). -/
def execPowerOn (up : StartUp) (s : State) : Host.Outcome State Fault Refusal := s.always (s.dev.fullRestart 0 up)

/-- PERST (R70, R71, R480). -/
def execPerst (up : StartUp) (s : State) : Host.Outcome State Fault Refusal := s.always (s.dev.opPerst up)

/-- WARM_RESET (R71). -/
def execWarmReset (up : StartUp) (s : State) : Host.Outcome State Fault Refusal := s.withDev (s.dev.dozeExit.warmRestart 2 up)

/-- SAFETY_RESET_REQUEST (R458). -/
def execSafetyResetRequest (up : StartUp) (s : State) : Host.Outcome State Fault Refusal := s.withDev (s.dev.opSafetyReset up)

/-- CLOCK_FAULT (R69, R70). -/
def execClockFault (up : StartUp) (s : State) : Host.Outcome State Fault Refusal := s.withDev (s.dev.opClockFault up)

/-- POWER_FAIL_WARNING (R43). -/
def execPowerFailWarning (s : State) : Host.Outcome State Fault Refusal := s.always s.dev.opPowerFail

/-- POWER_FAIL_RETURN (R43, R70). -/
def execPowerFailReturn (up : StartUp) (s : State) : Host.Outcome State Fault Refusal := s.always (s.dev.opPowerReturn up)

/-- EJECT_OPEN (R62, R64, R431). -/
def execEjectOpen (s : State) : Host.Outcome State Fault Refusal := s.always s.dev.opEjectOpen

/-- EJECT_CLOSE (R64, R70). -/
def execEjectClose (up : StartUp) (s : State) : Host.Outcome State Fault Refusal := s.always (s.dev.opEjectClose up)

/-- FORCED_REMOVAL (R65, R431). -/
def execForcedRemoval (s : State) : Host.Outcome State Fault Refusal := s.always s.dev.opForcedRemoval

/-- PRESENT_SETTLED (R63, R65). -/
def execPresentSettled (up : StartUp) (s : State) : Host.Outcome State Fault Refusal := s.always (s.dev.opPresent up)

/-- MISALIGNED_INSERTION (R66). -/
def execMisalignedInsertion (s : State) : Host.Outcome State Fault Refusal := s.always s.dev.opMisaligned

/-- STRAP_CHANGED (R47). -/
def execStrapChanged (straps : BitVec 7) (s : State) : Host.Outcome State Fault Refusal := s.always (s.dev.opStraps straps.toNat)

/-- REF_FAULT (R69). -/
def execRefFault (deviation : Int) (s : State) : Host.Outcome State Fault Refusal := s.withDev (s.dev.opRefFault deviation)

/-- PLANE_RESTART (R24, R95, R105, R114, R131, R371, R382, R387). -/
def execPlaneRestart (plane : Fin 3) (s : State) : Host.Outcome State Fault Refusal := s.withDev (s.dev.opPlaneRestart plane)

end Sys2Proof.Machine
end

