-- ==== Sys2Proof/Machine/RegWrite.lean ====
section
/-!
DEFINITION. Host writes by address (R8, R10-R12, R77, R78, R81, R90, R91, R94, R101, R210, R235, R387, R388, R410, R413, R509), and
the failing transfer of a command (R107).  An address from 0x100_0000 on stands for BAR2: BAR0 ends below it.
-/

namespace Sys2Proof.Machine

/-! ## Plain registers -/

/-- A register after a write of the bits a host write sets. -/
def merged (old v wmask : Nat) : Nat := old - Nat.land old wmask + Nat.land v wmask

/-- A write takes effect (R8, R11). -/
def Dev.plainWrite (d : Dev) (r : RegRow) (a v : Nat) : Dev := d.wr a (merged (d.rd a) v r.wmask)

/-- A write that an owning rule refuses (R10), or the write. -/
def Dev.writeUnless (d : Dev) (no : Bool) (r : RegRow) (a v : Nat) : Dev := if no then d.writeIgnored a v else d.plainWrite r a v

/-- An RWH register: the staging image in a session, in HOLD; otherwise ignored and logged (R8, R10, R81). -/
def Dev.rwhWrite (d : Dev) (a v : Nat) : Dev :=
  match d.cfg.session with
  | some img => if d.inHold then d.stage img 0 a (leBytes 4 v) else d.writeIgnored a v
  | none => d.writeIgnored a v

/-! ## Bits cleared by writing 1 -/

/-- The fault conditions of an encoder channel are gone (R210). -/
def Dev.encClear (d : Dev) (k : Nat) : Bool := d.rdF (Reg.POS_ENC_STATUS k) 1 2 == 0

/-- As many frames in a row are bad as make a serial channel fault (R215). -/
def Dev.ssiStill (d : Dev) (c : Nat) : Bool := decide (d.cf (Reg.POS_SSI_FAULT_LIMIT c) ≤ d.rdF (Reg.POS_SSI_STATUS c) 6 8)

/-- The bits of a W1C register that stay 1 after a write of 1: a condition is still present (R210, R215, R387). -/
def Dev.stays (d : Dev) (base i : Nat) : Nat :=
  if base = Reg.POS_ENC_STATUS 0 then b2n (!d.encClear i)
  else if base = Reg.POS_SSI_STATUS 0 then b2n (d.ssiStill i)
  else if base = Reg.NET_PORT_TSQ_STATUS 0 then (if 16 ≤ (d.np i).tsq.length then 0x20 else 0)
  else 0

/-- A W1C register. -/
def Dev.clearWrite (d : Dev) (r : RegRow) (i a v : Nat) : Dev :=
  let old := d.rd a
  let c := Nat.land (Nat.land v r.cmask) old
  d.wr a (old - (c - Nat.land c (d.stays r.base i)))

/-! ## Registers with rules of their own -/

/-- A word of the MSI-X table: a vector that is no longer masked sends what is pending (R101). -/
def Dev.msixWrite (d : Dev) (i v : Nat) : Dev :=
  let d1 := d.wr (Reg.HOSTQ_MSIX_TABLE i) v
  let n := i / 4
  if i % 4 = 3 ∧ bitOf v 0 = false ∧ d1.bit (Reg.HOSTQ_MSIX_PBA (n / 32)) (n % 32) then
    (d1.wrBit (Reg.HOSTQ_MSIX_PBA (n / 32)) (n % 32) false).vector n
  else d1

/-- A queue size: a log value outside 4 to 12 leaves its field as it was and is logged (R12, R93). -/
def Dev.sizeWrite (d : Dev) (q v : Nat) : Dev :=
  let a := Reg.HOSTQ_Q_SIZE q
  let pick : Nat → Nat := fun lo => if within 4 12 (fld v lo 4) then fld v lo 4 else d.rdF a lo 4
  let d1 := d.wr a (pick 0 + pick 4 * 16)
  if within 4 12 (fld v 0 4) && within 4 12 (fld v 4 4) then d1 else d1.writeIgnored a v

/-- A set-up register of a queue pair: ignored while ENABLE or ACTIVE is 1 (R94). -/
def Dev.setupWrite (d : Dev) (r : RegRow) (q a v : Nat) : Dev :=
  if d.qEnabled q ∨ d.bit (Reg.HOSTQ_Q_STATUS q) 0 then d
  else if r.base = Reg.HOSTQ_Q_SIZE 0 then d.sizeWrite q v
  else d.plainWrite r a v

/-- A word of a compare entry (R235). -/
def Dev.entryWrite (d : Dev) (r : RegRow) (k j a v : Nat) : Dev :=
  if d.entState k j = 1 then d.writeIgnored a v
  else
    let c := Reg.POS_CMP_E_CTRL k j
    let d1 := d.plainWrite r a v
    d1.wr c (d1.rd c % 0x40)

/-- LANE_EYE_CTRL: DWELL 15 is reserved (R12). -/
def Dev.eyeCtrlWrite (d : Dev) (v : Nat) : Dev :=
  let a := Reg.LANE_EYE_CTRL
  if fld v 6 4 = 15 then (d.wrF a 0 6 v).writeIgnored a v else d.wr a (v % 0x400)

/-- The shadow slot table: bits 6 and 5 of an entry are reserved; in SERVICE it belongs to the placement engine (R412, R413). -/
def Dev.shadowWrite (d : Dev) (a v : Nat) : Dev :=
  if d.inService then d.writeIgnored a v else d.wr a (Nat.land v 0x9F9F9F9F)

/-- RW registers. -/
def Dev.rwWrite (d : Dev) (r : RegRow) (i j a v : Nat) : Dev :=
  let is : Nat → Bool := fun b => r.base == b
  if is (Reg.SYS_FEAT_ACCEPT 0) then d.opFeatAccept i v
  else if is (Reg.HOSTQ_Q_CTRL 0) then (if bitOf v 0 then d.opQueueEnable i v else d.opQueueDisable i v)
  else if is (Reg.HOSTQ_Q_AGG 0) then d.plainWrite r a v
  else if is (Reg.HOSTQ_MSIX_TABLE 0) then d.msixWrite i v
  else if a / 0x10000 = 1 then d.setupWrite r i a v
  else if is (Reg.POS_CMP_E_T_LO 0 0) || is (Reg.POS_CMP_E_T_HI 0 0) || is (Reg.POS_CMP_E_CTRL 0 0) ||
      is (Reg.POS_CMP_E_ADVANCE 0 0) then d.entryWrite r i j a v
  else if is Reg.LANE_EYE_CTRL then d.eyeCtrlWrite v
  else if is (Reg.LANE_LN_TEST 0) then d.opLaneTest i v
  else if a / 0x10000 = 5 then d.writeUnless (d.trigState i == 1) r a v
  else if is (Reg.ARB_SHADOW 0) then d.shadowWrite a v
  else d.plainWrite r a v

/-- W1S registers: what the host requests by a write of 1. -/
def Dev.setWrite (d : Dev) (r : RegRow) (i v : Nat) : Dev :=
  let is : Nat → Bool := fun b => r.base == b
  let on : Nat → Bool := bitOf v
  let also : Bool → (Dev → Dev) → Dev → Dev := fun c f x => if c then f x else x
  if is Reg.SYS_CTRL then
    (let d1 := also (on 1) Dev.opFeatLock d; if on 0 then d1.warmRestart 2 d1.plainUp else d1)
  else if is Reg.POS_CTRL then also (on 0) (fun x => x.wrBit Reg.POS_CTRL 0 true) d
  else if is (Reg.POS_ENC_CTRL 0) then also (on 1) (fun x => x.rezeroOff i) (also (on 0) (fun x => x.opRezeroArm i) d)
  else if is (Reg.POS_CMP_ARM_LO 0) then d.opCmpArm i false v
  else if is (Reg.POS_CMP_ARM_HI 0) then d.opCmpArm i true v
  else if is (Reg.POS_CMP_DISARM_LO 0) then d.opCmpDisarm i false v
  else if is (Reg.POS_CMP_DISARM_HI 0) then d.opCmpDisarm i true v
  else if is (Reg.FIRE_BAR_RESUME 0) then d.opResumeWrite i v
  else if is (Reg.LACE_CTRL 0) then also (on 1) (fun x => x.opSenseReq i) (also (on 0) (fun x => x.opRelink i) d)
  else if is Reg.LANE_EYE_GO then also (on 0) (fun x => x.opEyeGo v) d
  else if is (Reg.LANE_LN_CTRL 0) then
    also (on 2) (fun x => x.wr (Reg.LANE_LN_PRBS_ERR_COUNT i) 0) (also (on 1) (fun x => x.opRetrain i)
      (also (on 0 && isBlockLane i) (fun x => x.wrBit (Reg.LANE_LN_CTRL i) 0 true) d))
  else if is Reg.CXP_CTL_GO then
    (if v % 4 = 1 then d.opControl false v
     else if v % 4 = 2 then d.opControl true v
     else if v % 4 = 3 then d.writeIgnored Reg.CXP_CTL_GO v
     else d)
  else if is Reg.TIME_CTRL then also (on 0) Dev.opSnapshot d
  else if is Reg.TIME_TRIG_ARM then d.opTrigArm v
  else if is Reg.TIME_TRIG_DISARM then d.opTrigDisarm v
  else if is (Reg.NET_PORT_TSQ_POP 0) then also (on 0) (fun x => x.opTsqPop i) d
  else if is Reg.ARB_CTRL then also (on 0) (fun x => x.opSwap v) d
  else d

/-! ## By address -/

/-- A write to BAR0; a block that does not answer in RECOVERY takes none, and an unassigned block logs it in every state (R74,
R90). -/
def Dev.bar0Write (d : Dev) (a v : Nat) : Dev :=
  if d.inRecovery && silentBlock a then d
  else
    match rowAt a with
    | none => d.writeIgnored a v
    | some r =>
      let o := a - r.base
      let i := if r.n1 = 1 then 0 else o / r.s1
      let j := if r.n2 = 1 then 0 else o % r.s1 / r.s2
      match r.acc with
      | .ro => d.writeIgnored a v
      | .sro => d.writeIgnored a v
      | .wo => d
      | .rwh => d.rwhWrite a v
      | .rw => d.rwWrite r i j a v
      | .w1c => d.clearWrite r i a v
      | .w1s => d.setWrite r i v

/-- A write to BAR2 (R91): doorbells, device-resident submission queues, and reserved addresses. -/
def Dev.bar2Write (d : Dev) (o v : Nat) : Dev :=
  if o < 0x10000 then
    (if o % 0x1000 = 0 then d.opSqTail (o / 0x1000) v
     else if o % 0x1000 = 4 then d.opCqHead (o / 0x1000) v
     else d)
  else if o < 0x30000 ∧ o % 4 = 0 then
    { d with host := { d.host with bar2 := mapWrite 0 d.host.bar2 o (leBytes 4 v) } }
  else d

/-- REGISTER_WRITE. -/
def Dev.opRegWrite (d : Dev) (a v : Nat) : Dev := if a < 0x1000000 then d.bar0Write a v else d.bar2Write (a - 0x1000000) v

/-! ## Failing transfers (R107) -/

/-- The bodies of the commands that move data, by opcode. -/
def dmaBody (dma : Dma) (opc : Nat) : Option (Dev → Out → Dev) :=
  if opc = 0x0102 then some (Dev.cfgWriteBody dma)
  else if opc = 0x0104 then some (Dev.cfgReadBody dma)
  else if opc = 0x0131 then some (Dev.listBody dma)
  else if opc = 0x0201 ∨ opc = 0x0202 then some (Dev.submitBody dma)
  else if opc = 0x0211 then some (Dev.readBody dma)
  else if opc = 0x0220 then some (Dev.frameBody dma)
  else if opc = 0x0221 then some (Dev.statsBody dma)
  else if opc = 0x0301 then some (Dev.logBody dma)
  else if opc = 0x0302 then some (Dev.healthBody dma)
  else if opc = 0x0310 then some (Dev.fwWriteBody dma false)
  else if opc = 0x0340 then some (Dev.proposeBody dma true)
  else none

/-- The command at the front of a pair moves data, and its transfer fails: it runs, stops there and completes. -/
def Dev.opDmaError (d : Dev) (q : Nat) (dma : Dma) : Dev :=
  match (d.qs q).fetched with
  | [] => d
  | e :: _ =>
    let opc := entOpcode e
    if dma.err.isNone then d
    else if opc = 0x0120 then d.runMatched q opc dma (Dev.admitBody dma)
    else if opc = 0x0210 then d.runMatched q opc dma (Dev.loadBody dma)
    else
      match dmaBody dma opc with
      | some body => d.runCmd q opc body
      | none => d

/-! ## Meanings -/

/-- REGISTER_WRITE (R8, R10-R12, R77, R78, R81, R90, R91, R94, R210, R235, R410, R509). -/
def execRegisterWrite (addr : Nat) (value : Word) (s : State) : Host.Outcome State Fault Refusal :=
  s.withDev (s.dev.dozeExit.opRegWrite addr value.toNat)

/-- DMA_ERROR (R107). -/
def execDmaError (q : Fin 16) (dma : Dma) (s : State) : Host.Outcome State Fault Refusal := s.withDev (s.dev.opDmaError q dma)

end Sys2Proof.Machine
end

