-- ==== Sys2Proof/Machine/Dispatch.lean ====
section
/-!
DEFINITION. The dispatch: one arm for each command, each arm one call of its meaning.
-/

namespace Sys2Proof.Machine

/-- The meaning of a command, by its constructor. -/
def exec (i : Instr) (s : State) : Host.Outcome State Fault Refusal :=
  match i with
  | .powerOn up => Sys2Proof.Machine.execPowerOn up s
  | .perst up => Sys2Proof.Machine.execPerst up s
  | .warmReset up => Sys2Proof.Machine.execWarmReset up s
  | .featLock => Sys2Proof.Machine.execFeatLock s
  | .registerWrite addr value => Sys2Proof.Machine.execRegisterWrite addr value s
  | .strapChanged straps => Sys2Proof.Machine.execStrapChanged straps s
  | .baseplateTempRead plate die => Sys2Proof.Machine.execBaseplateTempRead plate die s
  | .powerFailWarning => Sys2Proof.Machine.execPowerFailWarning s
  | .powerFailReturn up => Sys2Proof.Machine.execPowerFailReturn up s
  | .mainsDipReturn meas => Sys2Proof.Machine.execMainsDipReturn meas s
  | .presentSettled up => Sys2Proof.Machine.execPresentSettled up s
  | .forcedRemoval => Sys2Proof.Machine.execForcedRemoval s
  | .misalignedInsertion => Sys2Proof.Machine.execMisalignedInsertion s
  | .ejectOpen => Sys2Proof.Machine.execEjectOpen s
  | .ejectClose up => Sys2Proof.Machine.execEjectClose up s
  | .refFault deviation => Sys2Proof.Machine.execRefFault deviation s
  | .clockFault up => Sys2Proof.Machine.execClockFault up s
  | .sqTailDoorbell q value => Sys2Proof.Machine.execSqTailDoorbell q value s
  | .cqHeadDoorbell q value => Sys2Proof.Machine.execCqHeadDoorbell q value s
  | .sqFetch q res => Sys2Proof.Machine.execSqFetch q res s
  | .queueEnable q value => Sys2Proof.Machine.execQueueEnable q value s
  | .queueDisable q value => Sys2Proof.Machine.execQueueDisable q value s
  | .queueDrained q => Sys2Proof.Machine.execQueueDrained q s
  | .interruptAggTimeout q => Sys2Proof.Machine.execInterruptAggTimeout q s
  | .hostLinkReset dataLinkLost => Sys2Proof.Machine.execHostLinkReset dataLinkLost s
  | .dmaError q dma => Sys2Proof.Machine.execDmaError q dma s
  | .cfgBegin q => Sys2Proof.Machine.execCfgBegin q s
  | .cfgWrite q dma => Sys2Proof.Machine.execCfgWrite q dma s
  | .cfgCommit q storeFails => Sys2Proof.Machine.execCfgCommit q storeFails s
  | .cfgRead q dma => Sys2Proof.Machine.execCfgRead q dma s
  | .start q => Sys2Proof.Machine.execStart q s
  | .stop q => Sys2Proof.Machine.execStop q s
  | .jobAdmit q dma => Sys2Proof.Machine.execJobAdmit q dma s
  | .jobPlacement => Sys2Proof.Machine.execJobPlacement s
  | .jobRun q => Sys2Proof.Machine.execJobRun q s
  | .jobAbort q => Sys2Proof.Machine.execJobAbort q s
  | .jobStatus q => Sys2Proof.Machine.execJobStatus q s
  | .commitPost q => Sys2Proof.Machine.execCommitPost q s
  | .commitList q dma => Sys2Proof.Machine.execCommitList q dma s
  | .stripSubmit q dma => Sys2Proof.Machine.execStripSubmit q dma s
  | .stripWindowRoom => Sys2Proof.Machine.execStripWindowRoom s
  | .stripSubmitRaw q dma => Sys2Proof.Machine.execStripSubmitRaw q dma s
  | .tableLoad q dma => Sys2Proof.Machine.execTableLoad q dma s
  | .tableRead q dma => Sys2Proof.Machine.execTableRead q dma s
  | .frameRead q dma => Sys2Proof.Machine.execFrameRead q dma s
  | .statsRead q dma => Sys2Proof.Machine.execStatsRead q dma s
  | .logRead q dma => Sys2Proof.Machine.execLogRead q dma s
  | .healthRead q dma => Sys2Proof.Machine.execHealthRead q dma s
  | .fwWrite q dma programFails => Sys2Proof.Machine.execFwWrite q dma programFails s
  | .fwVerify q => Sys2Proof.Machine.execFwVerify q s
  | .fwSelect q => Sys2Proof.Machine.execFwSelect q s
  | .powerSet q => Sys2Proof.Machine.execPowerSet q s
  | .agentTimeout agent => Sys2Proof.Machine.execAgentTimeout agent s
  | .drainAbort => Sys2Proof.Machine.execDrainAbort s
  | .dozeExit => Sys2Proof.Machine.execDozeExit s
  | .timeStep q => Sys2Proof.Machine.execTimeStep q s
  | .safePropose q dma answers => Sys2Proof.Machine.execSafePropose q dma answers s
  | .pairCtrl q => Sys2Proof.Machine.execPairCtrl q s
  | .calRun q => Sys2Proof.Machine.execCalRun q s
  | .loopCtrl q => Sys2Proof.Machine.execLoopCtrl q s
  | .lineTick job => Sys2Proof.Machine.execLineTick job s
  | .overspeedResume => Sys2Proof.Machine.execOverspeedResume s
  | .rasterLine bar part => Sys2Proof.Machine.execRasterLine bar part s
  | .engineFault engine cause => Sys2Proof.Machine.execEngineFault engine cause s
  | .stripDecode lane poison => Sys2Proof.Machine.execStripDecode lane poison s
  | .decompressionLaneFail lane imageBad => Sys2Proof.Machine.execDecompressionLaneFail lane imageBad s
  | .placementReplan => Sys2Proof.Machine.execPlacementReplan s
  | .compressionStream verifyFails => Sys2Proof.Machine.execCompressionStream verifyFails s
  | .quadratureError k => Sys2Proof.Machine.execQuadratureError k s
  | .wireDisagree k pair => Sys2Proof.Machine.execWireDisagree k pair s
  | .positionLost => Sys2Proof.Machine.execPositionLost s
  | .index k => Sys2Proof.Machine.execIndex k s
  | .idxMissed k => Sys2Proof.Machine.execIdxMissed k s
  | .rezeroArm k => Sys2Proof.Machine.execRezeroArm k s
  | .rezeroCancel k => Sys2Proof.Machine.execRezeroCancel k s
  | .ssiFrame chan bits wire => Sys2Proof.Machine.execSsiFrame chan bits wire s
  | .ssiFrameTimeout chan clocked => Sys2Proof.Machine.execSsiFrameTimeout chan s clocked
  | .observerUpdate => Sys2Proof.Machine.execObserverUpdate s
  | .posSnapshot => Sys2Proof.Machine.execPosSnapshot s
  | .cmpArm k hi value => Sys2Proof.Machine.execCmpArm k hi value s
  | .cmpDisarm k hi value => Sys2Proof.Machine.execCmpDisarm k hi value s
  | .cmpFire k => Sys2Proof.Machine.execCmpFire k s
  | .cmpPulseReturn k => Sys2Proof.Machine.execCmpPulseReturn k s
  | .emuStep e => Sys2Proof.Machine.execEmuStep e s
  | .adcSample n code => Sys2Proof.Machine.execAdcSample n code s
  | .temps bar frame => Sys2Proof.Machine.execTemps bar frame s
  | .headTempStale bar head => Sys2Proof.Machine.execHeadTempStale bar head s
  | .headResumeWrite bar value => Sys2Proof.Machine.execHeadResumeWrite bar value s
  | .laceLinkUp bar => Sys2Proof.Machine.execLaceLinkUp bar s
  | .laceStepTimeout bar => Sys2Proof.Machine.execLaceStepTimeout bar s
  | .laceRetry bar => Sys2Proof.Machine.execLaceRetry bar s
  | .echoReply bar frame => Sys2Proof.Machine.execEchoReply bar frame s
  | .authResponse bar frame => Sys2Proof.Machine.execAuthResponse bar frame s
  | .setupAck bar frame => Sys2Proof.Machine.execSetupAck bar frame s
  | .hmemData bar frame => Sys2Proof.Machine.execHmemData bar frame s
  | .senseData bar frame => Sys2Proof.Machine.execSenseData bar frame s
  | .fill bar frame => Sys2Proof.Machine.execFill bar frame s
  | .status bar frame => Sys2Proof.Machine.execStatus bar frame s
  | .portStatus bar frame => Sys2Proof.Machine.execPortStatus bar frame s
  | .floodInterval => Sys2Proof.Machine.execFloodInterval s
  | .inhibitTokenRepeat bar => Sys2Proof.Machine.execInhibitTokenRepeat bar s
  | .relink bar => Sys2Proof.Machine.execRelink bar s
  | .senseReq bar => Sys2Proof.Machine.execSenseReq bar s
  | .laneLockLost lane syncErrs => Sys2Proof.Machine.execLaneLockLost lane syncErrs s
  | .laneRetrain lane res => Sys2Proof.Machine.execLaneRetrain lane res s
  | .bitslip lane res => Sys2Proof.Machine.execBitslip lane res s
  | .retrain lane => Sys2Proof.Machine.execRetrain lane s
  | .errRestart lane => Sys2Proof.Machine.execErrRestart lane s
  | .laneTest lane value => Sys2Proof.Machine.execLaneTest lane value s
  | .eyeScanGo => Sys2Proof.Machine.execEyeScanGo s
  | .eyeScanDone width height => Sys2Proof.Machine.execEyeScanDone width height s
  | .cxpCtlRead => Sys2Proof.Machine.execCxpCtlRead s
  | .cxpCtlWrite => Sys2Proof.Machine.execCxpCtlWrite s
  | .controlAccessDone res => Sys2Proof.Machine.execControlAccessDone res s
  | .cameraBringup cam find => Sys2Proof.Machine.execCameraBringup cam find s
  | .camDown cam => Sys2Proof.Machine.execCamDown cam s
  | .cameraLineTrigger cam => Sys2Proof.Machine.execCameraLineTrigger cam s
  | .cameraLine cam item => Sys2Proof.Machine.execCameraLine cam item s
  | .frameCloseTimeout cam => Sys2Proof.Machine.execFrameCloseTimeout cam s
  | .visionLine => Sys2Proof.Machine.execVisionLine s
  | .colourCycle => Sys2Proof.Machine.execColourCycle s
  | .rampStep bar => Sys2Proof.Machine.execRampStep bar s
  | .registerCycle => Sys2Proof.Machine.execRegisterCycle s
  | .timeSnapshot => Sys2Proof.Machine.execTimeSnapshot s
  | .servoUpdate theta tau => Sys2Proof.Machine.execServoUpdate theta tau s
  | .timeStepTimeout => Sys2Proof.Machine.execTimeStepTimeout s
  | .timeHoldover cause => Sys2Proof.Machine.execTimeHoldover cause s
  | .ptpMessage port head body => Sys2Proof.Machine.execPtpMessage port head body s
  | .netLinkUp port => Sys2Proof.Machine.execNetLinkUp port s
  | .netLinkDown port => Sys2Proof.Machine.execNetLinkDown port s
  | .tsqPop port => Sys2Proof.Machine.execTsqPop port s
  | .tsqOverflow port => Sys2Proof.Machine.execTsqOverflow port s
  | .trigArm value => Sys2Proof.Machine.execTrigArm value s
  | .trigDisarm value => Sys2Proof.Machine.execTrigDisarm value s
  | .triggerFire unit => Sys2Proof.Machine.execTriggerFire unit s
  | .ppsIn widthNs => Sys2Proof.Machine.execPpsIn widthNs s
  | .ppsOut => Sys2Proof.Machine.execPpsOut s
  | .ppsOutFall => Sys2Proof.Machine.execPpsOutFall s
  | .memoryRequest chan port addr write opp => Sys2Proof.Machine.execMemoryRequest chan port addr write opp s
  | .arbiterGrant chan => Sys2Proof.Machine.execArbiterGrant chan s
  | .dramRead chan err => Sys2Proof.Machine.execDramRead chan err s
  | .dramChannelFailed chan cause => Sys2Proof.Machine.execDramChannelFailed chan cause s
  | .patrolScrub chan err => Sys2Proof.Machine.execPatrolScrub chan err s
  | .caparAlert chan inReplay => Sys2Proof.Machine.execCaparAlert chan inReplay s
  | .zqCalibration chan ok => Sys2Proof.Machine.execZqCalibration chan ok s
  | .dqsCorrection chan drift ok => Sys2Proof.Machine.execDqsCorrection chan drift ok s
  | .rankPowerDown chan rank => Sys2Proof.Machine.execRankPowerDown chan rank s
  | .selfRefreshEntry chan => Sys2Proof.Machine.execSelfRefreshEntry chan s
  | .swap => Sys2Proof.Machine.execSwap s
  | .arbPortMasked port => Sys2Proof.Machine.execArbPortMasked port s
  | .hello frame => Sys2Proof.Machine.execHello frame s
  | .helloSend => Sys2Proof.Machine.execHelloSend s
  | .heartbeatSend => Sys2Proof.Machine.execHeartbeatSend s
  | .heartbeat frame => Sys2Proof.Machine.execHeartbeat frame s
  | .pairLoss => Sys2Proof.Machine.execPairLoss s
  | .commit frame => Sys2Proof.Machine.execCommit frame s
  | .decision frame => Sys2Proof.Machine.execDecision frame s
  | .loop frame => Sys2Proof.Machine.execLoop frame s
  | .lineCrc frame => Sys2Proof.Machine.execLineCrc frame s
  | .cmd frame => Sys2Proof.Machine.execCmd frame s
  | .cmdMatchTimeout key => Sys2Proof.Machine.execCmdMatchTimeout key s
  | .job frame => Sys2Proof.Machine.execJob frame s
  | .state frame => Sys2Proof.Machine.execState frame s
  | .resign frame => Sys2Proof.Machine.execResign frame s
  | .diag frame => Sys2Proof.Machine.execDiag frame s
  | .mismatchResolveTimeout => Sys2Proof.Machine.execMismatchResolveTimeout s
  | .syncReq frame => Sys2Proof.Machine.execSyncReq frame s
  | .released frame => Sys2Proof.Machine.execReleased frame s
  | .safetyEvaluation in1 in2 key rb1 rb2 => Sys2Proof.Machine.execSafetyEvaluation in1 in2 key rb1 rb2 s
  | .permitTest chan ok => Sys2Proof.Machine.execPermitTest chan ok s
  | .safeSpeedTrip edges => Sys2Proof.Machine.execSafeSpeedTrip edges s
  | .safeBarInhibit => Sys2Proof.Machine.execSafeBarInhibit s
  | .dutyParameterCheck found => Sys2Proof.Machine.execDutyParameterCheck found s
  | .safeState cause => Sys2Proof.Machine.execSafeState cause s
  | .safetyResetRequest up => Sys2Proof.Machine.execSafetyResetRequest up s
  | .wake source unit up => Sys2Proof.Machine.execWake source unit up s
  | .powerSequencerWindow => Sys2Proof.Machine.execPowerSequencerWindow s
  | .shelfWake up addr => Sys2Proof.Machine.execShelfWake up s addr
  | .shelfPowerOff addr => Sys2Proof.Machine.execShelfPowerOff s addr
  | .pohIncrement => Sys2Proof.Machine.execPohIncrement s
  | .ageingMeasurement rings => Sys2Proof.Machine.execAgeingMeasurement rings s
  | .marginSample => Sys2Proof.Machine.execMarginSample s
  | .healthReplan => Sys2Proof.Machine.execHealthReplan s
  | .retentionTest chan found => Sys2Proof.Machine.execRetentionTest chan found s
  | .marginScan => Sys2Proof.Machine.execMarginScan s
  | .holdupTest meas => Sys2Proof.Machine.execHoldupTest meas s
  | .calibration cal target figure => Sys2Proof.Machine.execCalibration cal target figure s
  | .logFlush => Sys2Proof.Machine.execLogFlush s
  | .planeRestart plane => Sys2Proof.Machine.execPlaneRestart plane s
  | .quadratureCount k up => Sys2Proof.Machine.execQuadratureCount k up s
  | .wireDisagreeEnd k pair => Sys2Proof.Machine.execWireDisagreeEnd k pair s
  | .hostLinkUp width speed => Sys2Proof.Machine.execHostLinkUp width speed s
  | .rebuildDone => Sys2Proof.Machine.execRebuildDone s

end Sys2Proof.Machine
end

