-- ==== Sys2Proof/Safety.lean ====
section
/-!
DEFINITION. What claims mean by a safe module: a step that answers a next state, outputs that are inert, an image that is
well formed, and maps in canonical form.
-/

namespace Sys2Proof.Machine

/-- An outcome is a next state. -/
def Goes (o : Host.Outcome State Fault Refusal) : Prop := ∃ t, o = .next t

/-- The command answers a next state in which the module is `d`; what waits in the queue is untouched. -/
def Does (c : Instr) (s : State) (d : Dev) : Prop := exec c s = .next { s with dev := d }

/-- Both FIRE_PERMIT outputs are commanded off. -/
def Dev.permitsOff (d : Dev) : Prop := d.bit Reg.SAFE_STATUS 0 = false ∧ d.bit Reg.SAFE_STATUS 1 = false

/-- The register file and the memories are in canonical form: keys strictly rising, no entry equal to its default. -/
def Dev.mapsWf (d : Dev) : Prop :=
  mapWf 0 d.regs = true ∧ mapWf 0 d.cfg.force.regs = true ∧ mapWf 0 d.host.hostMem = true ∧ mapWf 0 d.host.bar2 = true

/-- Running the machine's step `n` times, stopping at the first fault or refusal. -/
def runSteps : Nat → State → Host.Outcome State Fault Refusal
  | 0, s => .next s
  | n + 1, s =>
    match step s with
    | .next t => runSteps n t
    | .fault r => .fault r
    | .refused r => .refused r

/-- The command `opc` at the front of queue pair q starts as `o`, which leaves the module as `d1` with the SQ head
advanced, and passes the checks that hold for every command (R97, R98, R110 steps 1 to 5); the module runs. -/
structure Dev.Starts (d : Dev) (q opc : Nat) (o : Out) (d1 : Dev) : Prop where
  runs : d.halted = false
  front : d.frontIs q opc = true
  start : d.startFront q = some (o, d1)
  checks : d1.cmdCheck q o.entry = none

/-- The command `opc` at the front of queue pair q starts in a formed pair, outside the STANDBY (R424): its KEY and DIGEST are formed,
an ACTIVE sends its CMD frame, and the command passes the checks that hold for every command; it is then `o` and the module `d1`. -/
structure Dev.StartsMatched (d : Dev) (q opc : Nat) (dma : Dma) (o : Out) (d1 : Dev) : Prop where
  runs : d.halted = false
  front : d.frontIs q opc = true
  begun : ∃ o0 d0, d.startFront q = some (o0, d0) ∧ (d0.pairOn && d0.formed) = true ∧ d0.role ≠ 2 ∧
    ∀ n key dg d2, n = mapGet 0 d0.pair.counts (countKey o0.entry) + 1 → key = matchKey o0.entry n →
      dg = d0.matchDigest o0.entry dma →
      d2 = { d0 with pair := { d0.pair with counts := mapSet 0 d0.pair.counts (countKey o0.entry) n } } →
      o = (if d0.role = 0 then o0 else { o0 with mkey := some (key, dg) }) ∧
      d1 = (if d0.role = 1 then d2.shank 7 (cmdBody key dg 0xFFFF 0) else d2)
  checks : d1.cmdCheck q o.entry = none

/-- A command that a formed pair would match starts: outside a formed pair, or in one outside the STANDBY. -/
def Dev.Runs (d : Dev) (q opc : Nat) (dma : Dma) (o : Out) (d1 : Dev) : Prop :=
  (d.Starts q opc o d1 ∧ (d1.pairOn && d1.formed) = false) ∨ d.StartsMatched q opc dma o d1

/-- The bytes of a frame without block error. -/
def bytesOf (bl : List Blk) : List Byte := match deframe bl with | some x => x.2 | none => []

/-- A Lace frame of a kind is taken on port b: the port listens, the bucket has room for it, it has no block error and the TYPE of its
kind, its CRC, tag and SEQ hold (leaving the module as `d1`), and its header, size and zero bytes are as R283 to R298 lay them out;
`body` is its body. -/
structure Dev.Frame (d : Dev) (b kind : Nat) (bl : List Blk) (d1 : Dev) (body : List Byte) : Prop where
  open_ : 2 ≤ d.portState b ∧ d.portState b ≠ 7
  room : 16 * frameSize bl ≤ ((d.refill b).ls b).bucket
  blocks : deframe bl = some (nodeType kind, bytesOf bl)
  crc : laceCrcOk (bytesOf bl) = true
  taken : ((d.refill b).setLs b { (d.refill b).ls b with
    bucket := ((d.refill b).ls b).bucket - 16 * frameSize bl }).tagSeq b (bytesOf bl) = (d1, true)
  body_eq : body = ((bytesOf bl).drop 16).take (numAt (bytesOf bl) 2 2)
  kind_eq : byteAt (bytesOf bl) 0 = kind
  fits : laceFits (d.ls b).key.isSome (nodeType kind) (bytesOf bl) = true

/-- A Shank frame of a kind is heard: pair operation runs, a lane of the Shank is up, it has no block error and TYPE 0x10, and its CRC
and kind hold (R419). -/
def Dev.hears (d : Dev) (kind : Nat) (bl : List Blk) : Prop :=
  d.pairOn = true ∧ d.shankUp = true ∧ deframe bl = some (0x10, bytesOf bl) ∧ shankCrcOk (bytesOf bl) = true ∧
    byteAt (bytesOf bl) 0 = kind

/-- The body of a frame as this frame alone carries it. -/
def bodyOf (bl : List Blk) : List Byte := ((bytesOf bl).drop 16).take (numAt (bytesOf bl) 2 2)

/-- The epoch and the SEQ of a Shank frame. -/
def epochOf (bl : List Blk) : Nat := numAt (bytesOf bl) 4 4
def seqOf (bl : List Blk) : Nat := numAt (bytesOf bl) 8 8

/-- A Shank frame other than a heartbeat is taken whole: it is heard, its SEQ counts, and it is the last of its parts; the
module is then `d1` and the whole body `body` (R419, R420). -/
structure Dev.Shank (d : Dev) (kind : Nat) (bl : List Blk) (d1 : Dev) (body : List Byte) : Prop where
  heard : d.hears kind bl
  counts : ((d.seeEpoch (epochOf bl)).shankSeq (seqOf bl)).2 = true
  last : bitOf (byteAt (bytesOf bl) 1) 0 = false
  dev : ∀ x, x = ((d.seeEpoch (epochOf bl)).shankSeq (seqOf bl)).1 →
    d1 = { x with pair := { x.pair with part := mapErase kind x.pair.part } } ∧
    body = mapGet [] x.pair.part kind ++ bodyOf bl

/-- The module answers host writes: it is not halted and not in RECOVERY. -/
def Dev.answers (d : Dev) : Prop := d.halted = false ∧ d.inRecovery = false

/-- Nothing but the register a differs between two states of the module. -/
def Dev.OnlyReg (d d' : Dev) (a : Nat) : Prop := (∃ m, d' = { d with regs := m }) ∧ ∀ b, b ≠ a → d'.rd b = d.rd b

/-- What a command does to the module when no command waits behind it. -/
def Dev.after (d : Dev) (c : Instr) : Dev :=
  match exec c { dev := d } with
  | .next t => t.dev
  | _ => d

/-- The rows that act while nothing but the heel domain works (R43, R63-R66, R70, R468, R477-R482, R485, R500). -/
def wakesHalted : Instr → Bool
  | .powerOn _ | .perst _ | .strapChanged _ | .powerFailWarning | .powerFailReturn _ | .presentSettled _ => true
  | .forcedRemoval | .misalignedInsertion | .ejectOpen | .ejectClose _ | .triggerFire _ | .wake _ _ _ => true
  | .powerSequencerWindow | .shelfWake _ _ | .shelfPowerOff _ | .pohIncrement | .logFlush => true
  | _ => false

/-- The module right after a start-up in which nothing failed: in HOLD, with the reset's cause and straps shown, no job, no
command fetched or started, no session, the RWH registers at their reset values and the feature set unlocked (R70, R73, R85). -/
structure Dev.FreshHold (d : Dev) (cause : Nat) (up : StartUp) : Prop where
  hold : d.inHold = true
  why : d.rd Reg.SYS_LAST_RESET = cause
  straps : d.rd Reg.SYS_STRAPS = up.straps.toNat
  jobs : d.job = {}
  queues : d.host.qs = [] ∧ d.host.outs = []
  session : d.cfg.session = none
  rwh : d.cfg.force.regs = resetRwh
  unlocked : d.featLocked = false

/-- A start-up in which nothing fails: the PLL locks, every DRAM channel trains, the self-tests pass, and no second source acts within
1 ms of the reset. -/
def goodStart (up : StartUp) : Prop := up.pllOk = true ∧ up.badChannels = 0 ∧ up.testFails = none ∧ up.also = none

/-- The register file is in canonical form, and the selected firmware image is verified (R503). -/
def Dev.imageGood (d : Dev) : Prop := mapWf 0 d.regs = true ∧ d.imgOk (d.rdF Reg.NVM_BOOT 0 1) = true

/-- A command completes OK, and the entries behind it that name no command complete in their turn. -/
def Dev.finish (d : Dev) (q : Nat) (o : Out) (result : Nat) (data : List Byte) : Dev := (d.complete o OK result data).drain q

/-- The RW registers that a host write only sets. -/
def plainRw : List Nat :=
  [Reg.HOSTQ_Q_AGG 0, Reg.POS_ENC_REZERO_VALUE 0, Reg.POS_CMP_PULSE 0, Reg.LACE_SENSE_HEAD 0, Reg.LACE_HMEM_SEL 0,
   Reg.LANE_LN_ALT_REQ 0, Reg.CXP_CTL_SEL, Reg.CXP_CTL_ADDR, Reg.CXP_CTL_DATA, Reg.VPIPE_CAM_ORDER 0, Reg.ARB_PORT_CFG 0,
   Reg.HLTH_CAL_CFG]

end Sys2Proof.Machine
end

