-- ==== Sys2Proof/Certificates/Slice0/Obligations.lean ====
section
/-!
DEFINITION. The statements for the provers.  Each cites the rules of spec/ it rests on; a statement about a command names in its
hypotheses the state and the operands on which the command has its own effect, and gives the whole next state, so that what
it leaves out is unchanged.  Numbers written as log entry n are the rows of notes/assumptions/.
-/

open Sys2Proof Sys2Proof.Machine

/-! ## The queue of commands and the frame of the model -/

/-- A step takes the command at the front of the queue and runs it on the rest. With no command waiting and no power-state entry in
progress, a step is one edge of the counter's clock: the counter gains the increment of TIME_STATUS and HO_AGE is refreshed
(R373, R374; the idle step is log entry 3). -/
def Obligations.StepRunsTheFrontCommandOrIdles : Prop :=
  (∀ (c : Instr) (cs : List Instr) (s : State),
     step { s with pending := c :: cs } = exec c { s with pending := cs }) ∧
  (∀ s : State, s.pending = [] → s.dev.pwr.failing = false → s.dev.pwr.stuck = false → s.dev.entering = false →
     step s = .next { s with dev := s.dev.clockEdge } ∧
     s.dev.clockEdge.tc = (s.dev.tc + s.dev.rdF Reg.TIME_STATUS 8 3) % 2 ^ 64)

/-- Every command answers a next state, whatever its operands and whatever the state of the module, and leaves the waiting commands
alone (log entry 6). -/
def Obligations.EveryCommandCompletes : Prop :=
  ∀ (c : Instr) (s : State), ∃ d, exec c s = .next { s with dev := d }

/-- What a command does to the module depends on the module alone, not on what waits behind it; a queue of commands runs first in,
first out, each exactly once, and leaves what stood behind them. -/
def Obligations.QueueRunsInOrder : Prop :=
  ∀ (cs rest : List Instr) (s : State),
    runSteps cs.length { s with pending := cs ++ rest } =
      .next { dev := cs.foldl Dev.after s.dev, pending := rest }

/-- From every state any number of steps answers a next state, in which as many commands fewer wait: the module never stops. -/
def Obligations.TheModuleNeverStops : Prop :=
  ∀ (n : Nat) (s : State), ∃ t, runSteps n s = .next t ∧ t.pending = s.pending.drop n

/-- While nothing but the heel domain works, every command outside the named rows leaves the module exactly as it was: its
registers, its memories, its log and what it has sent (R43, R74, R468; log entry 7). -/
def Obligations.HaltedModuleIsInert : Prop :=
  ∀ (c : Instr) (s : State), s.dev.halted = true → wakesHalted c = false → exec c s = .next s

/-- After reset nothing waits, the time counter reads 0 (R374), SYS_ID reads its number, the module is in HOLD with both fire
permits commanded off (R447), no feature is accepted or locked (R77), no queue pair is enabled or active (R93), every RWH
register reads its reset value (R80), and the register file and the memories are in canonical form. That reset stands for HOLD
after a first start-up is the model's choice (log entry 11). -/
def Obligations.ResetStateIsAsTheSpecSays : Prop :=
  let d := State.reset.dev
  State.reset.pending = [] ∧ d.tc = 0 ∧ d.rd Reg.SYS_ID = 0x08200A5E ∧ d.inHold = true ∧ d.halted = false ∧ d.permitsOff ∧
  d.featLocked = false ∧ (∀ i : Fin 8, d.rd (Reg.SYS_FEAT_ACCEPT i) = 0) ∧
  (∀ q : Fin 16, d.qEnabled q = false ∧ d.bit (Reg.HOSTQ_Q_STATUS q) 0 = false) ∧
  d.cfg.force.regs = resetRwh ∧ d.cfg.session = none ∧ d.job = {} ∧ d.tx = [] ∧ d.mapsWf

/-- The canonical form is one: two register files or memories in canonical form that read alike at every address are equal; and a
write of consecutive bytes reads back as written and leaves every other address as it was. -/
def Obligations.MemoriesAreWhatTheyRead : Prop :=
  (∀ m n : NMap Byte, mapWf 0 m = true → mapWf 0 n = true → (∀ k, mapGet 0 m k = mapGet 0 n k) → m = n) ∧
  (∀ m n : NMap Word, mapWf 0 m = true → mapWf 0 n = true → (∀ k, mapGet 0 m k = mapGet 0 n k) → m = n) ∧
  (∀ (m : NMap Byte) (k : Nat) (bs : List Byte), mapWf 0 m = true →
    (∀ i, i < bs.length → mapGet 0 (mapWrite 0 m k bs) (k + i) = bs.getD i 0) ∧
    (∀ a, a < k ∨ k + bs.length ≤ a → mapGet 0 (mapWrite 0 m k bs) a = mapGet 0 m a))

/-- The frame of rows that write one register: wireDisagreeEnd of an ENC pair, errRestart, posSnapshot, pohIncrement, retentionTest
and rankPowerDown answer a next state in which no register but theirs, and nothing else of the module or of the queue, has
changed; wireDisagreeEnd of the PPS_IN pair changes no register at all. -/
def Obligations.SingleRegisterRowsChangeNothingElse : Prop :=
  (∀ (s : State) (k pair : Fin 4), s.dev.halted = false →
    (pair ≠ 3 → ∃ d, Does (.wireDisagreeEnd k pair) s d ∧ s.dev.OnlyReg d (Reg.POS_ENC_STATUS k)) ∧
    (pair = 3 → Does (.wireDisagreeEnd k pair) s { s.dev with time := { s.dev.time with ppsWire := false } })) ∧
  (∀ (s : State) (l : Fin 36), s.dev.answers →
    ∃ d, Does (.errRestart l) s d ∧ s.dev.dozeExit.OnlyReg d (Reg.LANE_LN_PRBS_ERR_COUNT l)) ∧
  (∀ s : State, s.dev.answers → ∃ d, Does .posSnapshot s d ∧ s.dev.dozeExit.OnlyReg d Reg.POS_CTRL) ∧
  (∀ s : State, ∃ d, Does .pohIncrement s d ∧ s.dev.OnlyReg d Reg.NVM_POH) ∧
  (∀ (s : State) (c found : Fin 4), ∃ d, Does (.retentionTest c found) s d ∧ s.dev.OnlyReg d (Reg.HLTH_DRAM c)) ∧
  (∀ (s : State) (c : Fin 4) (r : Fin 2), ∃ d, Does (.rankPowerDown c r) s d ∧ s.dev.OnlyReg d (Reg.MEMC_CH_STATUS c))

/-! ## Host queues (R86-R108) -/

/-- A valid doorbell moves its pointer: an SQ tail below the size and not beyond the SQ head minus one, a CQ head below the size and
not beyond the CQ tail, after which the entries that waited for a slot go on, also of a pair that a disable or an error has
stopped and that is still active (R94, R97-R99). An invalid doorbell stops the pair: DB_ERR is set, QUEUE_ERROR is appended and
the plane's event vector signalled, and the pointer stays (R99). A fetch of a pair whose SQ lies in host memory adds its
entries, in ring order and no more than the tail doorbell made available, each of 64 bytes, behind those already fetched;
entries that name no command then complete. A fetch that fails sets FETCH_ERR, appends QUEUE_ERROR, signals the plane's event
vector (R96, R97, R99, R109) and is counted as an uncorrectable error of the link (the count is the model's choice, log entry
98). -/
def Obligations.DoorbellsAndFetches : Prop :=
  ((∀ (s : State) (q : Fin 16) (v : Word), s.dev.halted = false →
     let d := s.dev.dozeExit
     let n := d.sqSize q
     let new := v.toNat % 0x10000
     let old := d.rdF (Reg.HOSTQ_Q_SQ_TAIL q) 0 16
     let head := d.rdF (Reg.HOSTQ_Q_SQ_HEAD q) 0 16
     d.qFetching q = true → new < n → (new + n - old) % n ≤ (head + n - 1 + n - old) % n →
     exec (.sqTailDoorbell q v) s = .next { s with dev := d.wrF (Reg.HOSTQ_Q_SQ_TAIL q) 0 16 new }) ∧
   (∀ (s : State) (q : Fin 16) (v : Word), s.dev.halted = false →
     let d := s.dev.dozeExit
     let n := d.cqSize q
     let new := v.toNat % 0x10000
     let old := d.rdF (Reg.HOSTQ_Q_CQ_HEAD q) 0 16
     let tail := d.rdF (Reg.HOSTQ_Q_CQ_TAIL q) 0 16
     d.cqServed q = true → new < n → (new + n - old) % n ≤ (tail + n - old) % n →
     exec (.cqHeadDoorbell q v) s = .next { s with dev := ((d.wrF (Reg.HOSTQ_Q_CQ_HEAD q) 0 16 new).drain q).clearActive q })) ∧
  (∀ (s : State) (q : Fin 16) (v : Word), s.dev.halted = false →
     let d := s.dev.dozeExit
     let stopped := ((d.wrBit (Reg.HOSTQ_Q_STATUS q) 1 true).append (d.qPlane q) .queueError (vals [q, 1])).vector
       (eventVector (d.qPlane q))
     let new := v.toNat % 0x10000
     (d.qFetching q = true →
       (d.sqSize q ≤ new ∨
         (d.rdF (Reg.HOSTQ_Q_SQ_HEAD q) 0 16 + d.sqSize q - 1 + d.sqSize q - d.rdF (Reg.HOSTQ_Q_SQ_TAIL q) 0 16) % d.sqSize q <
           (new + d.sqSize q - d.rdF (Reg.HOSTQ_Q_SQ_TAIL q) 0 16) % d.sqSize q) →
       exec (.sqTailDoorbell q v) s = .next { s with dev := stopped }) ∧
     (d.cqServed q = true →
       (d.cqSize q ≤ new ∨
         (d.rdF (Reg.HOSTQ_Q_CQ_TAIL q) 0 16 + d.cqSize q - d.rdF (Reg.HOSTQ_Q_CQ_HEAD q) 0 16) % d.cqSize q <
           (new + d.cqSize q - d.rdF (Reg.HOSTQ_Q_CQ_HEAD q) 0 16) % d.cqSize q) →
       exec (.cqHeadDoorbell q v) s = .next { s with dev := stopped })) ∧
  (∀ (s : State) (q : Fin 16), s.dev.halted = false → s.dev.qFetching q = true →
     (∀ es : List (List Byte), s.dev.bit (Reg.HOSTQ_Q_CTRL q) 3 = false →
       let got := (es.map (padTo 64)).take (min es.length (s.dev.sqWaiting q))
       let d' := s.dev.setQs q { s.dev.qs q with fetched := (s.dev.qs q).fetched ++ got }
       exec (.sqFetch q (.entries es)) s = .next { s with dev := d'.drain q }) ∧
     (let d' := (s.dev.wrBit (Reg.HOSTQ_Q_STATUS q) 3 true).append (s.dev.qPlane q) .queueError (vals [q, 3])
      exec (.sqFetch q .error) s =
       .next { s with dev := (d'.vector (eventVector (s.dev.qPlane q))).bump Reg.HOSTQ_UE_COUNT }))

/-- An accepted enable sets ENABLE, leaves STATUS with ACTIVE alone, and starts with the four pointers 0, phase 1 and nothing
fetched; a refused one leaves ENABLE at 0 and sets CFG_ERR (R93). ENABLE written 0 on an enabled pair stops fetching; ACTIVE
clears as soon as nothing fetched is left and every started command has completed: at once, or when QUEUE_DRAINED says so (R94). -/
def Obligations.QueuePairsAreEnabledAndDrained : Prop :=
  (∀ (s : State) (q : Fin 16) (v : Word), s.dev.halted = false →
     let d := s.dev.dozeExit
     d.qEnabled q = false → d.bit (Reg.HOSTQ_Q_STATUS q) 0 = false →
     ((d.writeCtrl q v.toNat).pairOk q = true → ∃ d',
       exec (.queueEnable q v) s = .next { s with dev := d' } ∧
       d'.qEnabled q = true ∧ d'.rd (Reg.HOSTQ_Q_STATUS q) = 1 ∧ d'.rd (Reg.HOSTQ_Q_SQ_HEAD q) = 0 ∧
       d'.rd (Reg.HOSTQ_Q_SQ_TAIL q) = 0 ∧ d'.rd (Reg.HOSTQ_Q_CQ_HEAD q) = 0 ∧
       d'.rd (Reg.HOSTQ_Q_CQ_TAIL q) = 0x10000 ∧ d'.qs q = {} ∧ d'.host.hostMem = d.host.hostMem) ∧
     ((d.writeCtrl q v.toNat).pairOk q = false →
       exec (.queueEnable q v) s =
         .next { s with dev := (d.writeCtrl q v.toNat).wrBit (Reg.HOSTQ_Q_STATUS q) 2 true })) ∧
  (∀ (s : State) (q : Fin 16), s.dev.halted = false →
     (∀ v : Word,
       let d := s.dev.dozeExit
       d.qEnabled q = true → ∃ d',
         exec (.queueDisable q v) s = .next { s with dev := d' } ∧ d'.qEnabled q = false ∧ d'.qFetching q = false ∧
         d'.bit (Reg.HOSTQ_Q_CTRL q) 10 = bitOf v.toNat 10 ∧ d'.host = d.host ∧
         (d'.bit (Reg.HOSTQ_Q_STATUS q) 0 = true ↔ d.bit (Reg.HOSTQ_Q_STATUS q) 0 = true ∧
           ¬((d.qs q).fetched = [] ∧ d.qOuts q = []))) ∧
     (s.dev.qEnabled q = false → (s.dev.qs q).fetched = [] → s.dev.qOuts q = [] →
       exec (.queueDrained q) s = .next { s with dev := s.dev.wrBit (Reg.HOSTQ_Q_STATUS q) 0 false }))

/-- When the oldest unsignalled completion entry reaches AGG_TIME on a pair with IRQ_EN, the completion vector goes out, or its
pending bit is set while the vector is masked, and the count starts anew (R102). A host link reset disables every pair, drops
what was fetched and not started, masks every MSI-X vector, appends HOST_LINK_RESET, counts it and shows it; the commands that
started, wherever they wait, will post no completion entry; printing, the pair and the configuration are not affected (R89). The
trained width and speed show in HOSTQ_STATUS beside LINK_UP, LINK_RESET_SEEN stays, and LINK_DEGRADED is appended exactly when
the link is below 32.0 GT/s x8; WAKE# is released (R87, R478). -/
def Obligations.HostLinkEventsTakeEffect : Prop :=
  (∀ (s : State) (q : Fin 16), s.dev.halted = false → s.dev.bit (Reg.HOSTQ_Q_CTRL q) 10 = true →
     0 < (s.dev.qs q).unsent →
     let v := s.dev.rdF (Reg.HOSTQ_Q_CTRL q) 4 6
     let d' := if s.dev.bit (Reg.HOSTQ_MSIX_TABLE (4 * v + 3)) 0 then
         s.dev.wrBit (Reg.HOSTQ_MSIX_PBA (v / 32)) (v % 32) true
       else
         s.dev.send (.msix (s.dev.rd64 (Reg.HOSTQ_MSIX_TABLE (4 * v))) (s.dev.rd (Reg.HOSTQ_MSIX_TABLE (4 * v + 2))))
     exec (.interruptAggTimeout q) s = .next { s with dev := d'.setQs q { s.dev.qs q with unsent := 0 } }) ∧
  (∀ (s : State) (lost : Bool), s.dev.halted = false → ∃ d',
     exec (.hostLinkReset lost) s = .next { s with dev := d' } ∧
     (∀ q : Fin 16, d'.qEnabled q = false ∧ d'.qs q = {}) ∧
     (∀ v : Fin 64, d'.rd (Reg.HOSTQ_MSIX_TABLE (4 * v + 3)) = 1) ∧
     d'.bit Reg.HOSTQ_STATUS 8 = true ∧ (lost = true → d'.bit Reg.HOSTQ_STATUS 0 = false) ∧
     d'.rd Reg.HOSTQ_FLR_COUNT = min (s.dev.rd Reg.HOSTQ_FLR_COUNT + 1) 0xFFFFFFFF ∧
     (∀ o ∈ d'.allOuts, o.post = false) ∧ d'.host.hostMem = s.dev.host.hostMem ∧
     d'.cfg = s.dev.cfg ∧ d'.job = s.dev.job ∧ d'.fire = s.dev.fire ∧ d'.rast = s.dev.rast ∧
     d'.rd Reg.PAIR_STATUS = s.dev.rd Reg.PAIR_STATUS ∧ d'.rd Reg.SYS_STATUS = s.dev.rd Reg.SYS_STATUS) ∧
  (∀ (s : State) (w : Fin 4) (sp : Fin 5), s.dev.halted = false →
     let width := 2 ^ w.val
     let speed := sp.val + 1
     let d1 := s.dev.wakeRelease.wr Reg.HOSTQ_STATUS (1 + width * 2 + speed * 32 + s.dev.rdF Reg.HOSTQ_STATUS 8 1 * 256)
     exec (.hostLinkUp w sp) s =
       .next { s with dev := if width < 8 ∨ speed < 5 then d1.append 0 .linkDegraded (vals [width, speed]) else d1 } ∧
     s.dev.wakeRelease.pwr.wakePin = false)

/-! ## Resets, mains, presence and the reference (R43, R47, R62-R76) -/

/-- Mains applied, mains back after a power-fail warning, EJECT closed after a removal, a main PLL that does not relock, and PRESENT
settled after a forced removal: each is a full reset with its own cause, and a start-up in which nothing fails ends in HOLD with
the time counter at 0 (R65, R69, R70, R73, R374). PERST#, a write of WARM_RESET and the safety partition's request are warm
resets: HOLD is entered first, the log goes to MRAM, the outputs go unpowered, and the start-up ends in HOLD with the time
counter and the count of host link resets as they were (R70, R71, R458). -/
def Obligations.ResetsStartUpIntoHold : Prop :=
  (∀ (s : State) (up : StartUp), goodStart up →
     let off := fun d : Dev => d.unpower.j2Quiet.wakeRelease
     ((off s.dev).imageGood → ∃ d', exec (.powerOn up) s = .next { s with dev := d' } ∧ d'.FreshHold 0 up ∧ d'.tc = 0) ∧
     ((off s.dev).imageGood → s.dev.pwr.failing = true → ∃ d',
       exec (.powerFailReturn up) s = .next { s with dev := d' } ∧ d'.FreshHold 5 up ∧ d'.tc = 0) ∧
     (s.dev.halted = false → (off s.dev).imageGood → s.dev.refFault = true → ∃ d',
       exec (.clockFault up) s = .next { s with dev := d' } ∧ d'.FreshHold 7 up ∧ d'.tc = 0) ∧
     (let e := ({ s.dev with pwr := { s.dev.pwr with ejected := false } } : Dev).send (.pin "REMOVE" 0 0)
      (off e).imageGood → s.dev.pwr.ejected = true → s.dev.pwr.failing = false → ∃ d',
       exec (.ejectClose up) s = .next { s with dev := d' } ∧ d'.FreshHold 3 up ∧ d'.tc = 0) ∧
     (let e : Dev := { s.dev with pwr := { s.dev.pwr with removed := false } }
      (off e).imageGood → s.dev.pwr.removed = true → s.dev.pwr.ejected = false → s.dev.pwr.failing = false → ∃ d',
       exec (.presentSettled up) s = .next { s with dev := d' } ∧ d'.FreshHold 4 up ∧ d'.tc = 0 ∧ d'.pwr.j2 = true)) ∧
  (∀ (s : State) (up : StartUp), goodStart up →
     let ended := fun d : Dev => ((d.enterHold true id).flushLog).unpower
     let good := fun d : Dev => ((ended d).toHoldover false).wakeRelease.imageGood
     let kept := fun (w d' : Dev) => d'.tc = w.tc ∧ d'.rd Reg.HOSTQ_FLR_COUNT = w.rd Reg.HOSTQ_FLR_COUNT ∧
       d'.log.ring = w.log.ring ∧ d'.host.hostMem = w.host.hostMem
     (good s.dev → s.dev.pwr.failing = false → s.dev.pState ≠ 5 → ∃ d',
       exec (.perst up) s = .next { s with dev := d' } ∧ d'.FreshHold 1 up ∧ kept (ended s.dev) d') ∧
     (s.dev.halted = false → good s.dev.dozeExit → ∃ d',
       exec (.warmReset up) s = .next { s with dev := d' } ∧ d'.FreshHold 2 up ∧ kept (ended s.dev.dozeExit) d') ∧
     (let e : Dev := { s.dev with safe := { s.dev.safe with asked := true, lastReset := some (s.dev.safe.safeBit, s.dev.tc) } }
      s.dev.halted = false → good e → s.dev.bit Reg.SAFE_STATUS 3 = true →
       s.dev.safe.asked = false →
       (∀ b t, s.dev.safe.lastReset = some (b, t) → b ≠ s.dev.safe.safeBit ∨ t + 240000000000 < s.dev.tc) → ∃ d',
       exec (.safetyResetRequest up) s = .next { s with dev := d' } ∧ d'.FreshHold 6 up ∧ kept (ended e) d'))

/-- A power-fail warning enters HOLD with RESIGN, appends PWR_FAIL once firing has ended, finishes the log, leaves the outputs
unpowered and J2 quiet, and stops the module until the mains returns (R43). When EJECT opens, HOLD is entered with RESIGN, the
shared outputs are released, the log is written out, J2 goes quiet and REMOVE lights last (R64). A PRESENT pin that reads 1 with
EJECT closed quiets J2, gives the role up without RESIGN and appends FORCED_REMOVAL; a misaligned insertion keeps J2 quiet and
is appended; PRESENT settled enables J2 again (R63, R65, R66). A strap that changes after reset changes nothing but
STRAP_CHANGED, which shows whether the straps now differ from the latched ones, and the log, which gains STRAP_CHANGED: the
latched straps stay until the next reset (R47). A reference fault of a module that runs on SHREF shows REF_FAULT and HOLDOVER
with the deviation, is counted, and enters HOLD with RESIGN, where REF_FAULT is appended once firing has ended; a module on its
own root has no such fault (R69). A restart of the control plane ends that plane's commands alone: those started complete with
PLANE_RESTARTED and those fetched complete in their turn; a restart of the data plane enters HOLD besides, without RESIGN; one
of the management plane puts the time servo into holdover and holds the loops (R24, R95, R114, R371, R382). -/
def Obligations.PinsPowerAndPlanesActOnTheModule : Prop :=
  (∀ s : State, s.dev.pwr.failing = false →
     let d1 := s.dev.enterHold true (fun x => x.append 4 .pwrFail [])
     let d2 := (d1.flushLog.unpower).j2Quiet.wakeRelease
     let d' : Dev := { d2 with pwr := { d2.pwr with failing := true } }
     exec .powerFailWarning s = .next { s with dev := d' } ∧ d'.halted = true ∧ d1.flushLog.log.staging = [] ∧
     d1.flushLog.unpower.permitsOff ∧ d'.pwr.j2 = false) ∧
  (∀ s : State, s.dev.pwr.failing = false → s.dev.pwr.ejected = false →
     let d1 := ((s.dev.enterHold true id).release).flushLog.j2Quiet
     let d' := ({ d1 with pwr := { d1.pwr with ejected := true } } : Dev).send (.pin "REMOVE" 0 1)
     exec .ejectOpen s = .next { s with dev := d' } ∧ d'.pwr.j2 = false ∧ d'.tx = d1.tx ++ [.pin "REMOVE" 0 1]) ∧
  (∀ s : State, s.dev.pwr.failing = false →
     (s.dev.pwr.ejected = false → s.dev.pwr.removed = false →
       let d1 := (s.dev.j2Quiet.release).enterHold false id
       let d' := ({ d1 with pwr := { d1.pwr with removed := true } } : Dev).append 4 .forcedRemoval []
       exec .forcedRemoval s = .next { s with dev := d' } ∧ d'.pwr.removed = true) ∧
     (let d' := s.dev.j2Quiet.append 4 .misalignedInsertion []
      exec .misalignedInsertion s = .next { s with dev := d' } ∧ d'.pwr.j2 = false) ∧
     (∀ up, s.dev.pwr.ejected = false → s.dev.pwr.removed = false → s.dev.pwr.j2 = false → ∃ d',
       exec (.presentSettled up) s = .next { s with dev := d' } ∧ d'.pwr.j2 = true ∧ d'.regs = s.dev.regs)) ∧
  (∀ (s : State) (straps : BitVec 7), s.dev.pwr.failing = false →
     let e : Dev := { s.dev with pwr := { s.dev.pwr with straps := straps.toNat } }
     let d1 := e.wrBit Reg.SYS_STRAPS 7 (straps.toNat != s.dev.rdF Reg.SYS_STRAPS 0 7)
     let d' := d1.append 4 .strapChanged []
     exec (.strapChanged straps) s = .next { s with dev := d' } ∧
     d'.rdF Reg.SYS_STRAPS 0 7 = s.dev.rdF Reg.SYS_STRAPS 0 7 ∧ d'.host = s.dev.host ∧ d'.cfg = s.dev.cfg ∧
     d'.job = s.dev.job ∧ d'.tx = s.dev.tx) ∧
  (∀ (s : State) (dev : Int), s.dev.halted = false →
     (s.dev.bit Reg.CLK_STATUS 0 = false →
       let d1 := (((s.dev.wrBit Reg.CLK_STATUS 3 true).wrBit Reg.CLK_STATUS 4 true).wrS Reg.CLK_ROOT_DEV dev).bump
         Reg.CLK_FAULT_COUNT
       exec (.refFault dev) s = .next { s with dev := d1.enterHold true (fun x => x.append 0 .refFault []) } ∧
       d1.refFault = true ∧ d1.rdS Reg.CLK_ROOT_DEV = sgn 32 (uns 32 dev) ∧
       d1.rd Reg.CLK_FAULT_COUNT = min (s.dev.rd Reg.CLK_FAULT_COUNT + 1) 0xFFFFFFFF) ∧
     (s.dev.bit Reg.CLK_STATUS 0 = true → exec (.refFault dev) s = .next s)) ∧
  (∀ s : State, s.dev.halted = false →
     exec (.planeRestart 0) s = .next { s with dev := s.dev.endCommands 0 } ∧
     exec (.planeRestart 1) s = .next { s with dev := (s.dev.endCommands 1).enterHold false id } ∧
     (s.dev.entering = false →
       let d3 := (((s.dev.endCommands 2).wrBit Reg.TIME_STATUS 5 false).loopsHold 2).toHoldover false
       exec (.planeRestart 2) s = .next { s with dev := (d3.cleanTsq 0).cleanTsq 1 }))

/-- Whatever leads from SERVICE to HOLD leaves the module inert before the waiting STOP commands complete with the number of jobs
aborted: STATE reads HOLD, both fire permits are commanded off, the role is NONE and the shared outputs are not driven (R75,
R115, R416, R447). -/
def Obligations.EnteringHoldLeavesTheModuleInert : Prop :=
  ∀ (d : Dev) (resigns : Bool), d.inService = true → ∃ e : Dev,
    d.enterHold resigns id = e.completeWhere (fun o => entOpcode o.entry == 0x0111) OK (fun _ => d.activeIds.length) ∧
    e.inHold = true ∧ e.permitsOff ∧ e.role = 0 ∧ e.bit Reg.PAIR_STATUS 8 = false

/-! ## Registers, completion and configuration (R8-R12, R77-R85, R100-R108, R110, R511) -/

/-- A host write to a register is taken by its access code. A read-only register, a safety register and an address that holds none
keep everything but the log, which gains WRITE_IGNORED with the address and the value; a write-only address takes nothing; an
RWH register outside a session is ignored and logged, and in a session in HOLD enters the staging image; a plain RW register
takes the bits that exist and no other register changes (R8, R10, R11, R81). -/
def Obligations.RegisterWritesFollowTheAccessCode : Prop :=
  ∀ (s : State) (a : Nat) (v : Word), s.dev.answers → a < 0x1000000 →
    let w := s.dev.dozeExit
    (rowAt a = none → exec (.registerWrite a v) s = .next { s with dev := w.append 0 .writeIgnored (vals [a, v.toNat]) }) ∧
    (∀ r, rowAt a = some r → (r.acc = .ro ∨ r.acc = .sro) →
      exec (.registerWrite a v) s = .next { s with dev := w.append 0 .writeIgnored (vals [a, v.toNat]) }) ∧
    (∀ r, rowAt a = some r → r.acc = .wo → exec (.registerWrite a v) s = .next { s with dev := w }) ∧
    (∀ r, rowAt a = some r → r.acc = .rwh → (w.cfg.session = none ∨ w.inHold = false) →
      exec (.registerWrite a v) s = .next { s with dev := w.append 0 .writeIgnored (vals [a, v.toNat]) }) ∧
    (∀ r img, rowAt a = some r → r.acc = .rwh → w.cfg.session = some img → w.inHold = true →
      exec (.registerWrite a v) s = .next { s with dev := w.stage img 0 a (leBytes 4 v.toNat) }) ∧
    (∀ r, rowAt a = some r → r.acc = .rw → r.base ∈ plainRw →
      let d' := w.wr a (w.rd a - Nat.land (w.rd a) r.wmask + Nat.land v.toNat r.wmask)
      exec (.registerWrite a v) s = .next { s with dev := d' } ∧ ∀ b, b ≠ a → d'.rd b = w.rd b)

/-- A completion without mailbox writes exactly sixteen bytes of host memory, at the CQ tail: TAG, STATUS, RESULT, SQ head, pair and
PHASE; the tail moves on by one and PHASE inverts where it wraps; every other byte of host memory is as before (R100). When the
result of an MBOX command is ready, the data words and TAG_STATUS of the plane's mailbox are written, and SEQ + 1 modulo 65,536
with VALID = 1 (R103, R104). -/
def Obligations.CompletionsReachTheHost : Prop :=
  (∀ (d : Dev) (o : Out) (status result : Nat) (data : List Byte),
     o.actRes = none → o.mkey = none → o.post = true → d.mboxOn o.entry = false → o.q < 16 →
     let t := d.rdF (Reg.HOSTQ_Q_CQ_TAIL o.q) 0 16
     let ph := d.rdF (Reg.HOSTQ_Q_CQ_TAIL o.q) 16 1
     let base := d.rd64 (Reg.HOSTQ_Q_CQ_BASE_LO o.q) + 16 * t
     let d' := d.complete o status result data
     (∀ i, i < 16 → mapGet 0 d'.host.hostMem (base + i) =
       (cqEntry (entTag o.entry) status result o.sqHead o.q ph).getD i 0) ∧
     (∀ a, (a < base ∨ base + 16 ≤ a) → mapGet 0 d'.host.hostMem a = mapGet 0 d.host.hostMem a) ∧
     (t + 1 < d.cqSize o.q → d'.rd (Reg.HOSTQ_Q_CQ_TAIL o.q) = t + 1 + ph * 0x10000) ∧
     (t + 1 = d.cqSize o.q → d'.rd (Reg.HOSTQ_Q_CQ_TAIL o.q) = (1 - ph) * 0x10000) ∧
     d'.host.bar2 = d.host.bar2 ∧ d'.cfg = d.cfg ∧ d'.job = d.job ∧ d'.log = d.log) ∧
  (∀ (d : Dev) (plane tag status : Nat) (data : List Byte), plane < 3 → tag < 0x10000 → status < 0x10000 →
     let d' := d.mailbox plane tag status data
     d'.rd (Reg.HOSTQ_MBOX_TAG_STATUS plane) = tag + status * 0x10000 ∧
     d'.rdF (Reg.HOSTQ_MBOX_STAT plane) 0 16 = (d.rdF (Reg.HOSTQ_MBOX_STAT plane) 0 16 + 1) % 0x10000 ∧
     d'.bit (Reg.HOSTQ_MBOX_STAT plane) 16 = true ∧
     ∀ j, j < 8 → d'.rd (Reg.HOSTQ_MBOX_DATA plane j) = numAt (data ++ List.replicate 32 0) (4 * j) 4)

/-- The checks of R110 come in order: an unknown opcode, a plane that is not the queue's, a reserved field, a feature that is not
accepted, and the state of the module. A command that fails a check which every command passes completes with that check's
status and has no other effect: its SQ slot is freed and nothing else happens (R92, R96, R110). A DMA request that fails stops
the transfer: the command at the front of the pair runs, and completes with the data offset of the request, after which
DMA_ERROR is appended with the host address, the offset and the kind; a transfer to the host has by then written the bytes
before that offset and no others (R107; that the link counts it is log entry 98). -/
def Obligations.CommandsAreCheckedBeforeTheyRun : Prop :=
  (∀ (d : Dev) (q : Nat) (e : List Byte),
     (cmdInfo (entOpcode e) = none → d.cmdCheck q e = some INVALID_OPCODE) ∧
     (∀ c, cmdInfo (entOpcode e) = some c →
       let planeOk := opPlane c.opc = d.qPlane q ∧ entPlane e = d.qPlane q
       let fieldsOk := entFlags e < 4 ∧ numAt e 6 2 = 0 ∧ paramsOk c e = true ∧ enumsOk c.opc e = true
       let featsOk := ∀ n ∈ needFeats c.opc e, d.feat n = true
       (¬planeOk → d.cmdCheck q e = some WRONG_PLANE) ∧
       (planeOk → ¬fieldsOk → d.cmdCheck q e = some RESERVED_FIELD) ∧
       (planeOk → fieldsOk → ¬featsOk → d.cmdCheck q e = some FEATURE_NOT_ACCEPTED) ∧
       (planeOk → fieldsOk → featsOk → d.inRecovery = true → ¬(c.recovery = true ∧ q = 2) →
         d.cmdCheck q e = some RECOVERY_ONLY) ∧
       (planeOk → fieldsOk → featsOk → d.inHold = true → c.hold = false → d.cmdCheck q e = some IN_HOLD) ∧
       (planeOk → fieldsOk → featsOk → d.inService = true → c.service = false → d.cmdCheck q e = some NOT_IN_HOLD) ∧
       (planeOk → fieldsOk → featsOk → d.inHold = true → c.hold = true → d.featLocked = false → c.recovery = false →
         d.cmdCheck q e = some FEATURES_UNLOCKED) ∧
       (planeOk → fieldsOk → featsOk → d.inHold = true → c.hold = true → d.featLocked = true → d.cmdCheck q e = none))) ∧
  (∀ (s : State) (q : Fin 16) (o : Out) (d1 : Dev) (st : Nat) (dma : Dma) (fails : Bool), s.dev.halted = false →
     s.dev.startFront q = some (o, d1) → d1.cmdCheck q o.entry = some st →
     let d' := (d1.complete o st 0 []).drain q
     (s.dev.frontIs q 0x0101 = true → exec (.cfgBegin q) s = .next { s with dev := d' }) ∧
     (s.dev.frontIs q 0x0102 = true → exec (.cfgWrite q dma) s = .next { s with dev := d' }) ∧
     (s.dev.frontIs q 0x0103 = true → exec (.cfgCommit q fails) s = .next { s with dev := d' }) ∧
     (s.dev.frontIs q 0x0104 = true → exec (.cfgRead q dma) s = .next { s with dev := d' }) ∧
     (s.dev.frontIs q 0x0123 = true → exec (.jobStatus q) s = .next { s with dev := d' }) ∧
     (s.dev.frontIs q 0x0201 = true → exec (.stripSubmit q dma) s = .next { s with dev := d' }) ∧
     (s.dev.frontIs q 0x0301 = true → exec (.logRead q dma) s = .next { s with dev := d' }) ∧
     (s.dev.frontIs q 0x0320 = true → exec (.powerSet q) s = .next { s with dev := d' }) ∧
     (s.dev.frontIs q 0x0350 = true → exec (.pairCtrl q) s = .next { s with dev := d' })) ∧
  ((∀ (s : State) (q : Fin 16) (dma : Dma) (o : Out) (d1 : Dev) (opc : Nat) (body : Dev → Out → Dev),
     s.dev.Starts q opc o d1 → dmaBody dma opc = some body → dma.err ≠ none →
     exec (.dmaError q dma) s = .next { s with dev := (body d1 o).drain q }) ∧
   (∀ (s : State) (q : Fin 16) (dma : Dma) (o : Out) (d1 : Dev), dma.err ≠ none →
     (s.dev.Runs q 0x0120 dma o d1 → exec (.dmaError q dma) s = .next { s with dev := (Dev.admitBody dma d1 o).drain q }) ∧
     (s.dev.Runs q 0x0210 dma o d1 → exec (.dmaError q dma) s = .next { s with dev := (Dev.loadBody dma d1 o).drain q })) ∧
   (∀ (d : Dev) (o : Out) (dma : Dma) (chk : Nat → Option Nat) (k : Dev → List Byte → Dev) (els : List (Nat × Nat)) (x : DmaErr),
     d.buffer o.entry dma = .ok els → dma.err = some x → x.seg = none → chk (bufTotal els) = none →
     let off := min x.offset (bufTotal els - 1)
     d.dmaIn o dma chk k = ((d.complete o DMA_READ_ERROR off []).append (opPlane (entOpcode o.entry)) .dmaError
       (vals [dataAddr els off, off, x.kind.val])).bump Reg.HOSTQ_UE_COUNT) ∧
   (∀ (d : Dev) (o : Out) (dma : Dma) (bytes : Nat → List Byte) (k : Dev → Nat → Dev) (els : List (Nat × Nat)) (x : DmaErr),
     d.buffer o.entry dma = .ok els → dma.err = some x → x.seg = none →
     let off := min x.offset (bufTotal els - 1)
     let sent := ((bytes (bufTotal els)).take (bufTotal els)).take off
     d.dmaOut o dma bytes k = (((d.scatter els sent).complete o DMA_WRITE_ERROR off []).append
       (opPlane (entOpcode o.entry)) .dmaError (vals [dataAddr els off, off, x.kind.val])).bump Reg.HOSTQ_UE_COUNT))

/-- FEAT_LOCK locks a set in which no bit fails; otherwise the set stays unlocked and SYS_FEAT_ERR names the lowest failing bit; a
locked set stays as it is (R77, R78). CFG_BEGIN opens a session from reset values, from the stored copy located at start-up
where it records the locked features, whose sequence number it returns, or from the last committed configuration; the committed
configuration is withdrawn, every RWH register in force reads its reset value, and the count, the CRC and SYS_CFG_SEQ are 0
(R80; log entry 27). CFG_WRITE puts its bytes into the staging image, extends the running CRC over TARGET, OFFSET, LENGTH and
the data, and returns the new count (R81, R115). CFG_READ copies the named part of the staging image, or of the configuration in
force when no session is open, to the buffer, and returns the number of bytes (R511). -/
def Obligations.SessionsOpenWriteAndRead : Prop :=
  (∀ s : State, s.dev.halted = false →
     let w := s.dev.dozeExit
     (w.featLocked = true → exec .featLock s = .next { s with dev := w }) ∧
     (w.featLocked = false → (∀ n, n < 256 → w.featBad n = false) →
       exec .featLock s = .next { s with dev := w.wrBit Reg.SYS_STATUS 9 true }) ∧
     (∀ n, w.featLocked = false → n < 256 → w.featBad n = true → (∀ m, m < n → w.featBad m = false) →
       exec .featLock s = .next { s with dev := w.wr Reg.SYS_FEAT_ERR (n + 0x100) })) ∧
  ((∀ (s : State) (q : Fin 16) (o : Out) (d1 : Dev), s.dev.Starts q 0x0101 o d1 →
     (byteAt o.entry 8 = 0 →
       exec (.cfgBegin q) s = .next { s with dev := (d1.openSession resetImage).finish q o 0 [] }) ∧
     (∀ seq feats img, byteAt o.entry 8 = 1 → d1.cfg.located = some (seq, feats, img) → feats = d1.featSet →
       exec (.cfgBegin q) s = .next { s with dev := (d1.openSession img).finish q o seq [] }) ∧
     (∀ img, byteAt o.entry 8 = 2 → d1.cfg.last = some img →
       exec (.cfgBegin q) s = .next { s with dev := (d1.openSession img).finish q o d1.cfg.lastSeq [] })) ∧
   (∀ (d : Dev) (img : Image),
     let d' := d.openSession img
     d'.cfg.session = some img ∧ d'.cfg.force = resetImage ∧ d'.cfgField = 2 ∧ d'.rd Reg.SYS_CFG_RUN_COUNT = 0 ∧
     d'.rd Reg.SYS_CFG_RUN_CRC = 0 ∧ d'.rd Reg.SYS_CFG_SEQ = 0 ∧ d'.cfg.last = d.cfg.last ∧ d'.formed = false)) ∧
  (∀ (s : State) (q : Fin 16) (dma : Dma) (o : Out) (d1 : Dev) (img : Image) (els : List (Nat × Nat)),
     s.dev.Starts q 0x0102 o d1 → d1.cfg.session = some img → d1.buffer o.entry dma = .ok els → dataErr dma = none →
     let target := numAt o.entry 8 4
     let off := numAt o.entry 12 4
     let len := numAt o.entry 16 4
     cfgSpanOk target off len = true → len ≤ bufTotal els →
     (target = 0 ∨ len = 0 ∨ img.sizeWith target (off + len) ≤ 0x200000) →
     let bs := (dmaBytes dma (bufTotal els)).take len
     let d2 := d1.stage img target off bs
     exec (.cfgWrite q dma) s = .next { s with dev := d2.finish q o (d2.rd Reg.SYS_CFG_RUN_COUNT) [] } ∧
     d2.rd Reg.SYS_CFG_RUN_COUNT = (d1.rd Reg.SYS_CFG_RUN_COUNT + 1) % 2 ^ 32 ∧
     d2.rd Reg.SYS_CFG_RUN_CRC = crc32cMore (d1.rd Reg.SYS_CFG_RUN_CRC)
       (leBytes 4 target ++ leBytes 4 off ++ leBytes 4 bs.length ++ bs) % 2 ^ 32) ∧
  (∀ (s : State) (q : Fin 16) (dma : Dma) (o : Out) (d1 : Dev) (img : Image) (els : List (Nat × Nat)),
     s.dev.Starts q 0x0104 o d1 → d1.buffer o.entry dma = .ok els → dataErr dma = none →
     (d1.cfg.session = some img ∨ (d1.cfg.session = none ∧ d1.cfgField = 3 ∧ img = d1.cfg.force)) →
     cfgSpanOk (numAt o.entry 8 4) (numAt o.entry 12 4) (numAt o.entry 16 4) = true →
     let bs := (img.part (numAt o.entry 8 4) (numAt o.entry 12 4) (numAt o.entry 16 4) (bufTotal els)).take (bufTotal els)
     exec (.cfgRead q dma) s = .next { s with dev := (d1.scatter els bs).finish q o bs.length [] })

/-! ## Jobs, commit points, strips and tables (R29-R38, R118-R122, R130-R179, R510-R512) -/

/-- CFG_COMMIT compares the host's count and CRC, runs the checks, and names the check and the field that fail, with the session as
it was; a configuration that passes takes force with the next sequence number, and is stored when STORE is 1, where a failing
store is reported and undoes nothing (R82-R84). The configuration that takes force closes the session, shows COMMITTED, and
becomes the last committed one; its sequence number is one above the last assigned and above that of the newest valid stored
copy (R83). JOB_ADMIT of a fresh identifier whose record passes its checks, in the order of R135, and for which there is room,
publishes the job, ADMITTED and unplaced, and returns its ceiling in mm/min, by the health that the control plane has learned
(R137); each failing check has its own status. A job that is admitted is held once, with the ceiling it was answered, behind
those admitted before it, and its entry stands in the job descriptor table; nothing else of the module changes but the shown use
of the repeat store (R137, R138). COMMIT_POST outside the STANDBY admits a record that passes R510's checks, in their order,
with the next sequence number, which it returns; a refused record is appended as COMMIT_REFUSED and completes with its status
(R32, R34, R37, R510). An admitted record is pending on its bars behind those admitted before it, and the next sequence number
is used up. -/
def Obligations.ConfigurationsJobsAndRecordsAreAdmitted : Prop :=
  (∀ (s : State) (q : Fin 16) (fails : Bool) (o : Out) (d1 : Dev) (img : Image),
     s.dev.Starts q 0x0103 o d1 → d1.cfg.session = some img →
     let same := numAt o.entry 8 4 = d1.rd Reg.SYS_CFG_RUN_COUNT ∧ numAt o.entry 12 4 = d1.rd Reg.SYS_CFG_RUN_CRC
     let tried : Dev := { d1 with cfg := { d1.cfg with force := img } }
     let d2 := d1.takeForce img
     let seq := d2.cfg.lastSeq
     let store := bitOf (byteAt o.entry 16) 0
     (¬same → exec (.cfgCommit q fails) s =
       .next { s with dev := (d1.complete o CFG_CHECK_FAILED 0x1000000 []).drain q }) ∧
     (∀ check field, same → tried.imageCheck = some (check, field) → exec (.cfgCommit q fails) s =
       .next { s with dev := (d1.complete o CFG_CHECK_FAILED (check * 0x1000000 + field) []).drain q }) ∧
     (same → tried.imageCheck = none → store = false →
       exec (.cfgCommit q fails) s = .next { s with dev := d2.finish q o seq [] }) ∧
     (same → tried.imageCheck = none → store = true → fails = false →
       let d3 : Dev := { d2 with cfg := d2.cfg.store (.valid seq d1.featSet img) }
       exec (.cfgCommit q fails) s = .next { s with dev := d3.finish q o seq [] }) ∧
     (same → tried.imageCheck = none → store = true → fails = true →
       let d3 : Dev := { d2 with cfg := d2.cfg.store .bad }
       exec (.cfgCommit q fails) s = .next { s with dev := (d3.complete o CFG_STORE_FAILED 0 []).drain q })) ∧
  (∀ (d : Dev) (img : Image),
     let d' := d.takeForce img
     d'.cfg.session = none ∧ d'.cfg.force = img ∧ d'.cfg.last = some img ∧ d'.cfg.lastSeq = d.cfg.nextSeq ∧
     d.cfg.lastSeq < d'.cfg.lastSeq ∧ (∀ seq feats im, d.cfg.newest = some (seq, feats, im) → seq < d'.cfg.lastSeq)) ∧
  (∀ (s : State) (q : Fin 16) (dma : Dma) (o : Out) (d1 : Dev) (els : List (Nat × Nat)),
     s.dev.Runs q 0x0120 dma o d1 →
     let id := numAt o.entry 8 4
     let rep := bitOf (byteAt o.entry 12) 0
     let r := dmaBytes dma (bufTotal els)
     let j := jobOf r rep
     let c := d1.asKnown.ceilings j
     let refused := fun st => exec (.jobAdmit q dma) s = .next { s with dev := (d1.complete o st 0 []).drain q }
     ((d1.findJob id).isSome = true → refused JOB_ID_IN_USE) ∧
     (d1.findJob id = none → d1.buffer o.entry dma = .ok els → dataErr dma = none →
       (r.length ≠ 64 + 32 * popBars (byteAt r 6) → refused OUT_OF_RANGE) ∧
       (r.length = 64 + 32 * popBars (byteAt r 6) →
         (recordFieldsOk r = false → refused RESERVED_FIELD) ∧
         (recordFieldsOk r = true → d1.recordFeatsOk r = false → refused FEATURE_NOT_ACCEPTED) ∧
         (recordFieldsOk r = true → d1.recordFeatsOk r = true → d1.recordRangesOk r id rep = false → refused OUT_OF_RANGE) ∧
         (recordFieldsOk r = true → d1.recordFeatsOk r = true → d1.recordRangesOk r id rep = true →
           (∀ st, d1.asKnown.admitRefusal j c = some st → refused st) ∧
           (d1.asKnown.admitRefusal j c = none → exec (.jobAdmit q dma) s =
             .next { s with dev := (d1.publishJob j r c).finish q o (toMmMin c.2 (dpiOf j.pitch)) (barCeilData j c.1) }))))) ∧
  (∀ (d : Dev) (j : Job) (r : List Byte) (c : List (Nat × Nat × Nat) × Nat),
     let d' := d.publishJob j r c
     (∃ j', d'.job.jobs = d.job.jobs ++ [j'] ∧ j'.id = j.id ∧ j'.phase = j.phase ∧ j'.rate = c.2 ∧
       j'.ceiling = toMmMin c.2 (dpiOf j.pitch) ∧ j'.lines = j.lines ∧ j'.barMask = j.barMask) ∧
     (∃ e, d'.job.jdt = d.job.jdt ++ [e] ∧ e.job = j.id) ∧
     (∀ k ∈ d'.job.ended, k.id ≠ j.id) ∧ d'.job.commits = d.job.commits ∧ d'.cfg = d.cfg ∧ d'.host = d.host ∧
     d'.log = d.log ∧ d'.tx = d.tx) ∧
  (∀ (s : State) (q : Fin 16) (o : Out) (d1 : Dev), s.dev.Runs q 0x0130 ⟨[], [], none⟩ o d1 → d1.role ≠ 2 →
     let c := commitOf ((o.entry.drop 8).take 32)
     (∀ st, d1.commitCheck c true = some st → exec (.commitPost q) s = .next { s with dev :=
       ((d1.append (if c.origin = 2 then 2 else 0) .commitRefused (commitBytes c ++ vals [st])).complete o st 0 []).drain q }) ∧
     (d1.commitCheck c true = none →
       exec (.commitPost q) s = .next { s with dev := (d1.admitCommit c).1.finish q o (d1.admitCommit c).2 [] }) ∧
     (d1.admitCommit c).2 = (d1.job.commitSeq + 1) % 0x100000000) ∧
  (∀ (d : Dev) (c : CommitRec),
     let d' := (d.admitCommit c).1
     (∃ p, d'.job.commits = d.job.commits ++ [p] ∧ p.cp.kind = c.kind ∧ p.cp.bar = c.bar ∧ p.cp.job = c.job ∧
       p.cp.line = c.line ∧ p.cp.seq = (d.job.commitSeq + 1) % 0x100000000 ∧ p.bars = d.commitBars (d.fillCommit c)) ∧
     d'.job.commitSeq = (d.job.commitSeq + 1) % 0x100000000 ∧ d'.host = d.host ∧ d'.cfg = d.cfg)

/-- The placement engine reads the oldest published entry it has not read, and gives the job its engines, lanes and ceiling; with
none to read it does nothing (R137, R142). JOB_RUN outside the STANDBY schedules an admitted job whose bars are free: MODE 0
sets its grid origin at the named position when no tick of it has passed, MODE 1 keeps its start time when that lies ahead; the
command completes when line 0 fires. A job that is unknown or not ADMITTED, bars that carry another job, and a start that has
passed have their own statuses (R118, R247). JOB_ABORT ends a job at the line boundary of each of its bars and returns the
lowest line not issued; of a job that has ended it returns the same figures and changes nothing; JOB_STATUS returns a job's
state, its defect count and its last lines; an unknown job is NO_SUCH_JOB (R115, R131, R132). STOP with MODE 0 aborts and enters
HOLD at once; with MODE 1 it waits until no job is scheduled or printing (R115). -/
def Obligations.JobsArePlacedRunAndStopped : Prop :=
  (∀ s : State, s.dev.halted = false →
     (∀ j, s.dev.job.jobs.find? (fun k => !k.placed) = some j → s.dev.findJob j.id = some j →
       let d0 := (s.dev.assignEngines j).modJob j.id (fun k => { k with placed := true })
       let c := d0.ceilings j
       let d1 := ((d0.setCeil j.id c).assignLanes).showRates
       exec .jobPlacement s =
         .next { s with dev := if toMmMin c.2 (dpiOf j.pitch) = j.ceiling then d1
           else d1.ceilEvent (d1.findJob j.id).toList 0 }) ∧
     ((∀ k ∈ s.dev.job.jobs, k.placed = true) → exec .jobPlacement s = .next s)) ∧
  (∀ (s : State) (q : Fin 16) (o : Out) (d1 : Dev), s.dev.Runs q 0x0121 ⟨[], [], none⟩ o d1 → d1.role ≠ 2 →
     let id := numAt o.entry 8 4
     let at_ := numAt o.entry 16 8
     let x0 : Rat := ((sgn 64 at_ * 65536 : Int) : Rat)
     let refused := fun st => exec (.jobRun q) s = .next { s with dev := (d1.complete o st 0 []).drain q }
     (d1.findJob id = none → refused NO_SUCH_JOB) ∧
     (∀ j, d1.findJob id = some j →
       let passed := 64 * (d1.minOmega j / 64) ≤ gridPhase (d1.xAt d1.tc) x0 (dpiOf j.pitch)
       (j.phase ≠ .admitted → refused NO_SUCH_JOB) ∧
       (j.phase = .admitted → d1.barsBusy j = true → refused BARS_BUSY) ∧
       (j.phase = .admitted → d1.barsBusy j = false → byteAt o.entry 12 = 0 → passed → refused START_PASSED) ∧
       (j.phase = .admitted → d1.barsBusy j = false → byteAt o.entry 12 = 0 → ¬passed →
         exec (.jobRun q) s = .next { s with dev := (((d1.schedule j none).setOrigin id x0 false).keep o).drain q }) ∧
       (j.phase = .admitted → d1.barsBusy j = false → byteAt o.entry 12 ≠ 0 → at_ < d1.tc → refused START_PASSED) ∧
       (j.phase = .admitted → d1.barsBusy j = false → byteAt o.entry 12 ≠ 0 → d1.tc ≤ at_ →
         exec (.jobRun q) s = .next { s with dev := ((d1.schedule j (some at_)).keep o).drain q }))) ∧
  ((∀ (s : State) (q : Fin 16) (o : Out) (d1 : Dev), s.dev.Runs q 0x0122 ⟨[], [], none⟩ o d1 →
     let id := numAt o.entry 8 4
     (∀ j, d1.findJob id = some j → exec (.jobAbort q) s =
       .next { s with dev := ((d1.abortJob id).finish q o (abortResult j) (abortData j)).retryAll.settleStop }) ∧
     (∀ j, d1.findJob id = none → d1.anyJob id = some j → exec (.jobAbort q) s =
       .next { s with dev := (d1.finish q o (abortResult j) (abortData j)).retryAll.settleStop }) ∧
     (d1.findJob id = none → d1.anyJob id = none → exec (.jobAbort q) s =
       .next { s with dev := ((d1.complete o NO_SUCH_JOB 0 []).drain q).retryAll.settleStop })) ∧
   (∀ (s : State) (q : Fin 16) (o : Out) (d1 : Dev), s.dev.Starts q 0x0123 o d1 →
     (d1.anyJob (numAt o.entry 8 4) = none →
       exec (.jobStatus q) s = .next { s with dev := (d1.complete o NO_SUCH_JOB 0 []).drain q }) ∧
     (∀ j, d1.anyJob (numAt o.entry 8 4) = some j →
       let data := (List.range 8).flatMap (fun b => leBytes 3 (lastLine j 24 b)) ++ leBytes 4 (satU 32 j.skipped) ++
         leBytes 4 (satU 32 j.stripFaults)
       exec (.jobStatus q) s =
         .next { s with dev := d1.finish q o (phaseCode j.phase + satU 28 j.defects * 16) data }))) ∧
  (∀ (s : State) (q : Fin 16) (o : Out) (d1 : Dev), s.dev.Runs q 0x0111 ⟨[], [], none⟩ o d1 →
     (byteAt o.entry 8 = 0 → exec (.stop q) s = .next { s with dev := ((d1.keep o).enterHold false id).drain q }) ∧
     (byteAt o.entry 8 ≠ 0 → d1.anyActive = true → exec (.stop q) s = .next { s with dev := (d1.keep o).drain q }) ∧
     (byteAt o.entry 8 ≠ 0 → d1.anyActive = false → entOpcode o.entry = 0x0111 →
       exec (.stop q) s = .next { s with dev := ((d1.keep o).enterHold false id).drain q }))

/-- A commit point record's 32 bytes give the record back, so no field of R29's layout is dropped. -/
def Obligations.CommitRecordRoundTrips : Prop :=
  ∀ c : CommitRec, c.kind < 256 → c.bar < 256 → c.origin < 256 → c.flags < 256 → c.seq < 2 ^ 32 → c.job < 2 ^ 32 →
    c.epoch < 2 ^ 32 → c.line < 2 ^ 64 → c.arg < 2 ^ 64 →
    commitOf (commitBytes c) = c ∧ (commitBytes c).length = 32

/-- COMMIT_LIST writes the whole pending records of a bar, or of all bars, that fit the buffer, in SEQ order, and returns how many;
TABLE_READ writes a bank and returns its CRC-32C (R115, R120). TABLE_LOAD writes a bank that is neither active, pending nor
owned by the colour loop, when its length and CRC check and a screen's thresholds are in range; each failing check has its own
status, in the order of R512, and writes nothing (R122); maps that wait for a bank are tried again (R198). -/
def Obligations.ListsAndTablesAreReadAndLoaded : Prop :=
  ((∀ (s : State) (q : Fin 16) (dma : Dma) (o : Out) (d1 : Dev) (els : List (Nat × Nat)), s.dev.Starts q 0x0131 o d1 →
     d1.buffer o.entry dma = .ok els → dataErr dma = none →
     let bar := byteAt o.entry 8
     (bar < 8 ∨ bar = 0xFF) →
     let bs := (((d1.listCommits bar).take (bufTotal els / 32)).flatMap commitBytes).take (bufTotal els)
     exec (.commitList q dma) s = .next { s with dev := (d1.scatter els bs).finish q o (bs.length / 32) [] }) ∧
   (∀ (s : State) (q : Fin 16) (dma : Dma) (o : Out) (d1 : Dev) (els : List (Nat × Nat)), s.dev.Starts q 0x0211 o d1 →
     d1.buffer o.entry dma = .ok els → dataErr dma = none →
     let e := o.entry
     d1.bankArgsOk (byteAt e 9) (byteAt e 8) (byteAt e 10) = true →
     let bs := d1.bankBytes (byteAt e 9) (byteAt e 8) (byteAt e 10) (byteAt e 11)
     exec (.tableRead q dma) s =
       .next { s with dev := (d1.scatter els (bs.take (bufTotal els))).finish q o (crc32c bs) [] })) ∧
  (∀ (s : State) (q : Fin 16) (dma : Dma) (o : Out) (d1 : Dev) (els : List (Nat × Nat)), s.dev.Runs q 0x0210 dma o d1 →
     let kind := byteAt o.entry 8
     let b := byteAt o.entry 9
     let head := byteAt o.entry 10
     let k := byteAt o.entry 11
     let bs := dmaBytes dma (bufTotal els)
     let refused := fun st => exec (.tableLoad q dma) s = .next { s with dev := ((d1.complete o st 0 []).drain q).retryAll }
     (d1.tableLocked b kind head k = true → refused TABLE_LOCKED) ∧
     (d1.tableLocked b kind head k = false → d1.bankArgsOk b kind head = false → refused OUT_OF_RANGE) ∧
     (d1.tableLocked b kind head k = false → d1.bankArgsOk b kind head = true → d1.buffer o.entry dma = .ok els →
       dataErr dma = none →
       (bufTotal els ≠ bankLen kind → refused OUT_OF_RANGE) ∧
       (bufTotal els = bankLen kind → crc32c bs ≠ numAt o.entry 12 4 → refused TABLE_CRC) ∧
       (bufTotal els = bankLen kind → crc32c bs = numAt o.entry 12 4 → kind = 2 → screenOk bs = false → refused OUT_OF_RANGE) ∧
       (bufTotal els = bankLen kind → crc32c bs = numAt o.entry 12 4 → (kind ≠ 2 ∨ screenOk bs = true) →
         exec (.tableLoad q dma) s = .next { s with dev := ((d1.setBank b kind head k bs).finish q o 0 []).retryAll })))

/-- A STRIP_SUBMIT that is next on its plane, with an accepted envelope and room, stores the strip and returns its bytes; one
without room waits, started and not completed, and STRIP_WINDOW_ROOM gives it its turn again (R121, R145). A raw strip that is
next on its plane and well sized is pre-transformed and waits for a compression lane; the stream that takes a lane is stored
with the envelope the module builds, and a stream whose self-verification fails takes its lane out of service and completes
SELF_VERIFY_FAIL (R173, R178, R179). -/
def Obligations.StripsAreStoredOrCompressed : Prop :=
  (∀ (d : Dev) (j : Job) (w : StripWait) (els : List (Nat × Nat)),
     let e := w.out.entry
     let bytes := dmaBytes w.dma (bufTotal els)
     let sp := stripOf (subLast e) bytes
     d.strip.waits = [] → d.rawBusy w.job w.bar = false → d.findJob w.job = some j → w.bar < 8 →
     bitOf j.barMask w.bar = true → subStrip e = (d.plane j.id w.bar).nextStrip → (d.plane j.id w.bar).lastSeen = false →
     w.done = none → entOpcode e = 0x0201 → d.buffer e w.dma = .ok els → dataErr w.dma = none →
     d.envOk j w.bar (subStrip e) (subLast e) bytes = true →
     let f := d.freeChains j w.bar (sp.history == 0)
     let stored := (f.storeStrip j w.bar sp).complete w.out OK (stripBytes sp) []
     let waiting : Dev := { d with strip := { d.strip with waits := [w] } }
     (∀ (s : State) (q : Fin 16), s.dev.Starts q 0x0201 w.out d → w.job = subJob e → w.bar = subBar e →
       (f.roomFor j (stripBytes sp) w.bar = some OK →
         exec (.stripSubmit q w.dma) s = .next { s with dev := stored.drain q }) ∧
       (f.roomFor j (stripBytes sp) w.bar = none →
         exec (.stripSubmit q w.dma) s = .next { s with dev := waiting.drain q })) ∧
     (∀ s : State, s.dev = waiting → s.dev.halted = false → f.roomFor j (stripBytes sp) w.bar = some OK →
       exec .stripWindowRoom s = .next { s with dev := stored })) ∧
  ((∀ (s : State) (q : Fin 16) (dma : Dma) (o : Out) (d1 : Dev) (j : Job) (els : List (Nat × Nat)),
     s.dev.Starts q 0x0202 o d1 →
     let e := o.entry
     let b := subBar e
     let p := d1.plane j.id b
     let pr : PlaneRec := mapGet {} j.planes b
     let count := numAt e 20 4
     entOpcode e = 0x0202 → d1.strip.waits = [] → d1.rawBusy (subJob e) b = false → d1.findJob (subJob e) = some j → b < 8 →
     bitOf j.barMask b = true → subStrip e = p.nextStrip → p.lastSeen = false → 1 ≤ count → count ≤ 4096 →
     d1.buffer e dma = .ok els → dataErr dma = none → bufTotal els = decodedSize j.mode count → byteAt e 15 = pr.pre →
     p.nextLine + count ≤ j.lines → evenOk j p.nextLine count (subLast e) = true →
     (bitOf (byteAt e 14) 0 = false ∨ d1.feat 15 = true) → d1.rd Reg.DFL_CMP_OK ≠ 0 →
     let c : CmpJob := { use := 2, input := rawInput j pr.pre (dmaBytes dma (bufTotal els)), verify := bitOf (byteAt e 14) 1,
                         out := some o }
     exec (.stripSubmitRaw q dma) s = .next { s with dev := (d1.addStream c).drain q }) ∧
   (∀ (s : State) (bad : Bool), s.dev.halted = false →
     let d := s.dev.fillCmp
     let next := nextStream (d.strip.cmpWait.filter (fun c => c.lane.isSome))
     (next = none → exec (.compressionStream bad) s = .next { s with dev := d }) ∧
     (∀ c, next = some c →
       let d1 : Dev := { d with strip := { d.strip with cmpWait := putStream c [] d.strip.cmpWait } }
       ((c.verify = false ∨ bad = false) → exec (.compressionStream bad) s =
         .next { s with dev := d1.fillCmp.streamDone c (deflate c.input (d1.cmpTables c.use) c.verify) }) ∧
       (c.verify = true → bad = true →
         let lane := c.lane.getD 0
         let d2 := ((d1.wrBit Reg.DFL_CMP_OK lane false).bump Reg.DFL_VERIFY_FAIL_COUNT).event 1 .cmpVerifyFail
           (vals [lane, c.use])
         let after : Dev → Prop := fun d3 =>
           d3.rd Reg.DFL_CMP_OK ≠ 0 → exec (.compressionStream bad) s = .next { s with dev := d3.fillCmp.kickAll }
         (c.out = none → after { d2 with pair := { d2.pair with failed := d2.pair.failed ++ [(c.item, c.bar, SELF_VERIFY_FAIL)] } }) ∧
         (∀ o, c.out = some o → after (d2.complete o SELF_VERIFY_FAIL 0 []))))))

/-- A healthy decompression lane decodes the next strip of the plane that its bar decodes, when its first line may be decoded;
chains that are wholly decoded leave the window, and a submission that waits for it has its turn; a lane out of service does
nothing (R145, R147, R163, R168). A decompression lane that fails leaves service and makes a re-plan due; its chain goes on from
the saved image on a spare lane, or is kept until one is free, and is broken when the image is bad. A re-plan that is due is
done once, for its causes, and counted (R149, R151, R172). -/
def Obligations.LanesDecodeAndHandOn : Prop :=
  (∀ (s : State) (lane : Fin 24) (poison : Option Nat), s.dev.halted = false →
     let b := s.dev.rdF (Reg.DFL_LANE lane) 0 4
     (s.dev.bit Reg.PLACE_DFL_OK lane = false → exec (.stripDecode lane poison) s = .next s) ∧
     (∀ j st, s.dev.bit Reg.PLACE_DFL_OK lane = true → b < 8 → s.dev.decJob lane b = some j →
       (s.dev.plane j.id b).strips.find? (fun x => x.no == (s.dev.plane j.id b).decNext) = some st →
       s.dev.mayDecode j b ((s.dev.plane j.id b).decCycle * j.lines + st.firstLine) = true →
       exec (.stripDecode lane poison) s = .next { s with dev :=
         (((s.dev.decodeStrip lane poison j b st).freeChains j b false).kick j.id b).assignLanes })) ∧
  ((∀ (s : State) (lane : Fin 24) (bad : Bool), s.dev.halted = false →
     let c : LaneCtx := mapGet {} s.dev.strip.lanes lane
     let d1 := s.dev.wrBit Reg.PLACE_DFL_OK lane false
     let d2 : Dev := { d1 with strip := { d1.strip with lanes := mapErase lane d1.strip.lanes },
                               job := { d1.job with replanDue := Nat.lor d1.job.replanDue 1 } }
     let d3 := d2.wr (Reg.DFL_LANE lane) 0xF
     (s.dev.bit Reg.PLACE_DFL_OK lane = false → exec (.decompressionLaneFail lane bad) s = .next s) ∧
     (s.dev.bit Reg.PLACE_DFL_OK lane = true → c.histValid = false →
       exec (.decompressionLaneFail lane bad) s = .next { s with dev := d3 }) ∧
     (∀ t, s.dev.bit Reg.PLACE_DFL_OK lane = true → c.histValid = true → bad = false → d3.spareLane c.bar = some t →
       exec (.decompressionLaneFail lane bad) s = .next { s with dev := (d3.wrF (Reg.DFL_LANE t) 0 4 c.bar).setLane t c }) ∧
     (s.dev.bit Reg.PLACE_DFL_OK lane = true → c.histValid = true → bad = false → d3.spareLane c.bar = none →
       exec (.decompressionLaneFail lane bad) s = .next { s with dev := d3.setLane (24 + c.bar) c }) ∧
     (s.dev.bit Reg.PLACE_DFL_OK lane = true → c.histValid = true → bad = true → ∃ d',
       exec (.decompressionLaneFail lane bad) s = .next { s with dev := d' } ∧ (d'.plane c.job c.bar).broken = true ∧
       d'.rd Reg.DFL_CHAIN_BROKEN_COUNT = min (s.dev.rd Reg.DFL_CHAIN_BROKEN_COUNT + 1) 0xFFFFFFFF ∧
       d'.rd Reg.DFL_LAST_ERR_JOB = c.job % 2 ^ 32)) ∧
   (∀ s : State, s.dev.halted = false →
     let d1 := ({ s.dev with job := { s.dev.job with replanDue := 0 } } : Dev).replan s.dev.job.replanDue
     (s.dev.job.replanDue = 0 → exec .placementReplan s = .next s) ∧
     (s.dev.job.replanDue ≠ 0 →
       exec .placementReplan s = .next { s with dev := if d1.inService then d1.planSlots else d1 })))

/-- The pre-transforms lose nothing: the inverse of a mode's pre-transform gives the lines back (R163, R179). -/
def Obligations.PreTransformsAreInvertible : Prop :=
  ∀ (mode pre : Nat) (before : List Byte) (ls : List (List Byte)), mode < 8 → pre ≤ 2 → before.length = lineBytes mode →
    (∀ l ∈ ls, l.length = lineBytes mode) → inverseLines mode pre before (forwardLines mode pre before ls) = ls

/-! ## Position, compare outputs and the ADC (R206-R245) -/

/-- A quadrature step moves the count of an enabled channel by one, reversed where its configuration says so, and with it the
compare crossings, the emulated encoders and the index window; a quadrature error of two states counts and faults the channel; a
disagreeing wire of A or B faults it, one of Z is reported, and its end clears its bit; the PPS_IN pair has its own flag. The
quadrature state follows the levels of a channel that is not enabled too (R56, R208, R210; log entry 108). A change of a count
that no compare output watches and no emulated encoder follows is the count's alone: the channel reads the new count, and every
other register reads as before. An index is taken once per visit of its quadrature state, when the channel, its index and its
wire are good: an armed re-zero is carried out, the first index anchors the channel, one within the tolerance of an expected
count is latched with its drift, any other is counted and reported; otherwise nothing happens. A window crossed without an index
is counted (R226-R229). -/
def Obligations.CountsAndIndexesAreTaken : Prop :=
  (∀ (s : State) (k : Fin 4), s.dev.halted = false →
     let d := s.dev
     let st := Reg.POS_ENC_STATUS k
     let q := d.rdF st 6 2
     let moved : Nat → Dev := fun n =>
       let x := d.wrF st 6 2 n
       x.setEnc k { x.encSt k with taken := false }
     (∀ up : Bool,
       let c : Int := if up != d.cfB (Reg.POS_ENC_CFG k) 4 then d.count k + 1 else d.count k - 1
       let d1 := moved (if up then q + 1 else q + 3)
       (d.chanEn k = true → Does (.quadratureCount k up) s ((d1.countTo k c).trackWindow k (d.count k) c)) ∧
       (d.chanEn k = false → Does (.quadratureCount k up) s d1)) ∧
     (let d1 := moved (q + 2)
      (d.chanEn k = true → Does (.quadratureError k) s
         ((((d1.bump (Reg.POS_ENC_QERR_COUNT k)).wrBit st 0 true).event 1 .encFault (vals [k, 0])).sourceFault k)) ∧
      (d.chanEn k = false → Does (.quadratureError k) s d1)) ∧
     (∀ pair : Fin 4, pair.val < 3 →
       let d1 := d.wrBit st (1 + pair) true
       (d.chanEn k = true → Does (.wireDisagree k pair) s
         (if pair.val = 2 then d1.event 1 .idxWire (vals [k])
          else ((d1.wrBit st 0 true).event 1 .encFault (vals [k, 1 + pair])).sourceFault k)) ∧
       (d.chanEn k = false → Does (.wireDisagree k pair) s d1) ∧
       Does (.wireDisagreeEnd k pair) s (d.wrBit st (1 + pair) false)) ∧
     Does (.wireDisagree k 3) s { d with time := { d.time with ppsWire := true } } ∧
     Does (.wireDisagreeEnd k 3) s { d with time := { d.time with ppsWire := false } }) ∧
  (∀ (d : Dev) (ch : Fin 6) (c : Int), -9223372036854775808 ≤ c → c < 9223372036854775808 →
     (∀ k : Fin 8, d.cmpEn k = false) → (∀ e : Fin 2, d.emuEn e = false) →
     (d.countTo ch c).count ch = c ∧
     (∀ a, a ≠ countReg ch → a ≠ countReg ch + 4 → (d.countTo ch c).rd a = d.rd a) ∧
     (d.countTo ch c).log = d.log ∧ (d.countTo ch c).tx = d.tx) ∧
  (∀ (s : State) (k : Fin 4), s.dev.halted = false →
     let d := s.dev
     let e := d.encSt k
     let c := d.count k
     let i := d.cf (Reg.POS_ENC_IDX_INTERVAL k)
     let tol : Int := (d.cf (Reg.POS_ENC_IDX_TOL k) : Int)
     let at_ := nearest e.anchor i c
     let hit := d.chanEn k = true ∧ d.cfB (Reg.POS_ENC_CFG k) 9 = true ∧ d.bit (Reg.POS_ENC_STATUS k) 3 = false ∧
       d.rdF (Reg.POS_ENC_STATUS k) 6 2 = d.cfF (Reg.POS_ENC_CFG k) 7 2 ∧ e.taken = false
     let d1 := d.setEnc k { e with taken := true }
     let e1 := d1.encSt k
     let latch : Dev → Int → Dev :=
       fun x drift => (x.wrS64 (Reg.POS_ENC_IDX_LATCH_LO k) c).wrS (Reg.POS_ENC_IDX_DRIFT k) drift
     let armed := d1.bit (Reg.POS_ENC_STATUS k) 5
     let anchored := d1.bit (Reg.POS_ENC_STATUS k) 4
     (hit → armed = true → Does (.index k) s (d1.rezero k)) ∧
     (hit → armed = false → anchored = false → Does (.index k) s
       (latch ((d1.wrBit (Reg.POS_ENC_STATUS k) 4 true).setEnc k { e1 with anchor := c, window := some (c, true, true) }) 0)) ∧
     (hit → armed = false → anchored = true → i = 0 → Does (.index k) s (latch d1 0)) ∧
     (hit → armed = false → anchored = true → i ≠ 0 → c - at_ ≤ tol → at_ - c ≤ tol → e.window = none →
       Does (.index k) s (latch (d1.setEnc k { e1 with window := some (at_, true, true) }) (c - at_))) ∧
     (∀ at' b x, hit → armed = false → anchored = true → i ≠ 0 → c - at_ ≤ tol → at_ - c ≤ tol →
       e.window = some (at', b, x) →
       Does (.index k) s (latch (d1.setEnc k { e1 with window := some (at', b, true) }) (c - at_))) ∧
     (hit → armed = false → anchored = true → i ≠ 0 → (tol < c - at_ ∨ tol < at_ - c) → Does (.index k) s
       (((d1.wr (Reg.POS_ENC_IDX_UNEXP k) (uns 32 c)).bump (Reg.POS_ENC_IDX_BAD_COUNT k)).event 1 .idxUnexpected
         (ivals [((k : Nat) : Int), c, c - at_]))) ∧
     (¬hit → Does (.index k) s d) ∧
     (e.missed = [] → Does (.idxMissed k) s d) ∧
     (∀ m rest, e.missed = m :: rest → Does (.idxMissed k) s
       (((d.setEnc k { e with missed := rest }).bump (Reg.POS_ENC_IDX_MISS_COUNT k)).event 1 .idxMissed
         (ivals [((k : Nat) : Int), m]))))

/-- A host write arms a re-zero, but not in SERVICE on the source in use or the check source; another cancels it; SNAPSHOT is set
for the next update; entries are disarmed (R224, R230, R231). Entries of an enabled compare output that are due act in ascending
order, a scheduled return drives 0; an emulated encoder that is driven takes one step toward its target, and resynchronises
without steps when it lies more than 2^20 behind (R232-R239). An ADC sample saturates, is shown with its number and the counter,
moves the filter by the 2^-k part of its distance, keeps BUSY while a burst goes on, and is held against the limits, which are
reported once per excursion; a channel that is off, whose burst is over, or whose continuous sample is not due takes none
(R241-R243, R376). -/
def Obligations.PositionOutputsAndAdc : Prop :=
  (∀ s : State, s.dev.answers →
     let d := s.dev.dozeExit
     (∀ k : Fin 4,
       let busy := d.inService = true ∧ (d.src = k ∨ d.checkSrc = k)
       (busy → Does (.rezeroArm k) s
         (((d.wrBit (Reg.POS_ENC_CTRL k) 0 false).wrBit (Reg.POS_ENC_STATUS k) 5 false).event 1 .rezeroRefused (vals [k]))) ∧
       (¬busy → Does (.rezeroArm k) s
         ((d.wrBit (Reg.POS_ENC_CTRL k) 0 true).wrBit (Reg.POS_ENC_STATUS k) 5 true)) ∧
       Does (.rezeroCancel k) s
         ((d.wrBit (Reg.POS_ENC_CTRL k) 0 false).wrBit (Reg.POS_ENC_STATUS k) 5 false)) ∧
     Does .posSnapshot s (d.wrBit Reg.POS_CTRL 0 true) ∧
     (∀ (k : Fin 8) (hi : Bool) (v : Word),
       let js := armEntries hi v.toNat
       let st := d.cmpSt k
       Does (.cmpDisarm k hi v) s (js.foldl (fun x j => x.setEntState k j 0)
         (d.setCmp k { st with due := st.due.filter (fun j => !js.contains j) })) ∧
       let bad : Dev → Nat → Bool := fun x j =>
         x.entDir k j == 0 || x.entState k j == 1 || (x.entTimed k j && !x.feat 28)
       let d1 := js.foldl (fun x j => if bad d j then x else (x.setEntState k j 1).entCheck k j) d
       (js.any (bad d) = false → Does (.cmpArm k hi v) s d1) ∧
       (js.any (bad d) = true → Does (.cmpArm k hi v) s
         (d1.writeIgnored (if hi then Reg.POS_CMP_ARM_HI k else Reg.POS_CMP_ARM_LO k) v.toNat)))) ∧
  (∀ s : State, s.dev.halted = false →
     let d := s.dev
     (∀ k : Fin 8,
       let st := d.cmpSt k
       let due := (List.range 64).filter (fun j =>
         d.entState k j == 1 && (if d.entTimed k j then d.behind k j else st.due.contains j))
       (d.cmpEn k = true → Does (.cmpFire k) s (due.foldl (fun x j => x.entFire k j) (d.setCmp k { st with due := [] }))) ∧
       (d.cmpEn k = false → Does (.cmpFire k) s d) ∧
       (st.ret = none → Does (.cmpPulseReturn k) s d) ∧
       (∀ t, st.ret = some t → Does (.cmpPulseReturn k) s ((d.setLevel k false).setReturn k none))) ∧
     (∀ e : Fin 2,
       let st := d.emuSt e
       let owed := d.emuTarget e - st.emitted
       let far := 1048576 < owed ∨ owed < -1048576
       (d.emuEn e = true → far →
         let d1 := ((d.setEmu e { st with emitted := d.emuTarget e }).showOwed e).event 1 .emuResync (ivals [((e : Nat) : Int), owed])
         Does (.emuStep e) s (if d1.fieldDriven = true then d1.send (.pin "EMU" e (d1.emuPins e)) else d1)) ∧
       (d.emuEn e = true → d.fieldDriven = true → ¬far → owed ≠ 0 →
         let d1 := (d.setEmu e { st with emitted := st.emitted + (if 0 < owed then 1 else -1) }).showOwed e
         Does (.emuStep e) s (d1.send (.pin "EMU" e (d1.emuPins e)))) ∧
       (d.emuEn e = false ∨ (¬far ∧ (d.fieldDriven = false ∨ owed = 0)) → Does (.emuStep e) s d))) ∧
  (∀ (s : State) (n : Fin 8) (code : Int), s.dev.halted = false →
     let d := s.dev
     let m := d.adcMode n
     let st := d.adcSt n
     let x := satS 16 code
     let y := d.rdS (Reg.ADC_CH_FILT n)
     let k := d.cfF (Reg.ADC_CH_CFG n) 2 4
     let per := usLocal (5 * d.cf (Reg.ADC_CH_RATE n))
     let due := (m = 1 ∧ d.mulDue st.served per = true) ∨ (m = 2 ∧ 0 < st.burst)
     let st' : AdcSt := { st with samples := st.samples + 1, burst := st.burst - 1,
                                  served := if m = 1 then d.mulServed per else st.served }
     let d1 := ((if x = code then d else d.wrBit (Reg.ADC_CH_STATUS n) 0 true).setAdc n st').wr (Reg.ADC_CH_DATA n)
       (uns 16 x + (st.samples + 1) % 65536 * 65536)
     let d2 := ((d1.wr64 (Reg.ADC_CH_TIME_LO n) d.tc).wrS (Reg.ADC_CH_FILT n)
       (y + pubI (((x * 65536 - y : Int) : Rat) / ((2 ^ k : Nat) : Rat)))).wrBit (Reg.ADC_CH_STATUS n) 4
         (m == 1 || decide (0 < st.burst - 1))
     (due → Does (.adcSample n code) s (d2.adcLimits n x)) ∧
     (¬due → Does (.adcSample n code) s d))

/-- A frame of an enabled serial channel in SERVICE, heard or clocked when it is due, is checked for its CRC, its error bit and its
wire, in this order; a good one sets the count when it is the first and extends it by the change of the position field after, as
long as the change is possible; one that this module clocks may time out instead (R211-R216, R376). The change of a serial
position field is the least one that leads from the previous value to the present one, modulo the field's range; Gray code of
every value reads back as the value (R212, R214). -/
def Obligations.SerialFramesExtendTheCount : Prop :=
  (∀ (s : State) (c : Fin 2), s.dev.halted = false →
     let d := s.dev
     let a := Reg.POS_SSI_STATUS c
     let d2 := if d.driving = true then (d.ssiServe c).ssiClocks c else d
     let on := d.chanEn (4 + c) = true ∧ d.inService = true ∧ (d.driving = false ∨ d.ssiDue c = true)
     (on → ∀ (bits : Nat) (wire : Bool),
       let err := d.cfB (Reg.POS_SSI_FIELDS c) 18 = true ∧
         bitOf bits (d.cfF (Reg.POS_SSI_FIELDS c) 12 6) = d.cfB (Reg.POS_SSI_CFG c) 13
       let p := d2.ssiPos c bits
       let done : Dev → Dev := fun x =>
         (((x.bump (Reg.POS_SSI_FRAME_COUNT c)).wrF a 6 8 0).wr (Reg.POS_SSI_RAW c) p).setSsi c
           { x.ssiSt c with prev := some p, fresh := some x.tc }
       (d2.ssiCrcOk c bits = false → Does (.ssiFrame c bits wire) s (d2.ssiBad c 1)) ∧
       (d2.ssiCrcOk c bits = true → err → Does (.ssiFrame c bits wire) s (d2.ssiBad c 2)) ∧
       (d2.ssiCrcOk c bits = true → ¬err → wire = true → Does (.ssiFrame c bits wire) s (d2.ssiBad c 5)) ∧
       (d2.ssiCrcOk c bits = true → ¬err → wire = false → (d2.ssiSt c).prev = none →
         Does (.ssiFrame c bits wire) s (done ((d2.wrBit a 14 true).initTo (4 + c) (p : Int)))) ∧
       (∀ p0, d2.ssiCrcOk c bits = true → ¬err → wire = false → (d2.ssiSt c).prev = some p0 →
         let dl := ssiDelta (d2.cfF (Reg.POS_SSI_FIELDS c) 6 6) p p0
         (dl.natAbs ≤ d2.cf (Reg.POS_SSI_MAX_STEP c) → Does (.ssiFrame c bits wire) s
           (done (d2.countTo (4 + c)
             (d2.count (4 + c) + (if d2.cfB (Reg.POS_SSI_CFG c) 14 = true then -dl else dl))))) ∧
         (d2.cf (Reg.POS_SSI_MAX_STEP c) < dl.natAbs → Does (.ssiFrame c bits wire) s (d2.ssiBad c 4)))) ∧
     (on → d.driving = true → ∀ clocked : Bool,
       Does (.ssiFrameTimeout c clocked) s ((if clocked then d2 else d.ssiServe c).ssiBad c 3)) ∧
     (¬on ∨ d.driving = false → ∀ clocked : Bool, Does (.ssiFrameTimeout c clocked) s d) ∧
     (¬on → ∀ (bits : Nat) (wire : Bool), Does (.ssiFrame c bits wire) s d)) ∧
  ((∀ b p p0 : Nat, 0 < b → p < 2 ^ b → p0 < 2 ^ b →
     ((p0 : Int) + ssiDelta b p p0) % (2 ^ b : Nat) = (p : Int) ∧
     -((2 ^ (b - 1) : Nat) : Int) ≤ ssiDelta b p p0 ∧ ssiDelta b p p0 < ((2 ^ (b - 1) : Nat) : Int)) ∧
   (∀ n p : Nat, p < 2 ^ n → grayBin n (Nat.xor p (p / 2)) = p))

/-- While the source in use is lost an update shows no speed and no acceleration and leaves the position where it was; while it
coasts, or between serial frames, the estimates follow their own prediction; a measurement within the tracking limit corrects
them by the gains of the configured bandwidth, and ten beyond it in a row start them anew (R220-R223). Every update runs the
observer, the direction, the check source, late origins, the speed reactions and an armed snapshot, in this order; when coasting
has lasted its time the position is lost: the estimate stands, every active job is aborted, and no tick is issued; a STOP that
waits for the last job ends (R115, R217-R225, R257). -/
def Obligations.TheObserverFollowsItsSource : Prop :=
  (∀ d : Dev,
     let ts : Rat := 1 / 1000000
     let p := d.pos
     let xp := p.x + p.v * ts + p.a * ts * ts / 2
     let vp := p.v + p.a * ts
     let lim : Rat := (d.cf Reg.POS_TRACK_ERR_MAX : Rat)
     let u : Rat := 2 * Config.piVal * ((25 * 2 ^ d.cfF Reg.POS_OBS 0 4 : Nat) : Rat) / 1000000
     let g : Rat × Rat × Rat := (3 * u, 3 * u * u, u * u * u)
     (d.src = 7 ∨ d.lost = true →
       d.obsCore.pos.x = p.x ∧ d.obsCore.pos.v = 0 ∧ d.obsCore.pos.a = 0 ∧ d.obsCore.pos.sample = d.tc) ∧
     (d.src ≠ 7 → d.lost = false → d.obsMeas vp = none →
       d.obsCore.pos.x = xp ∧ d.obsCore.pos.v = vp ∧ d.obsCore.pos.a = p.a ∧ d.obsCore.pos.sample = d.tc) ∧
     (∀ m, d.src ≠ 7 → d.lost = false → d.obsMeas vp = some m → ¬(lim < m - xp ∨ m - xp < -lim) →
       d.obsCore.pos.x = xp + g.1 * (m - xp) ∧ d.obsCore.pos.v = vp + g.2.1 * (m - xp) / ts ∧
       d.obsCore.pos.a = p.a + g.2.2 * (m - xp) / (ts * ts) ∧ d.obsCore.pos.errRun = 0) ∧
     (∀ m, d.src ≠ 7 → d.lost = false → d.obsMeas vp = some m → (lim < m - xp ∨ m - xp < -lim) → p.errRun + 1 < 10 →
       d.obsCore.pos.errRun = p.errRun + 1 ∧ d.obsCore.log = d.log) ∧
     (∀ m, d.src ≠ 7 → d.lost = false → d.obsMeas vp = some m → (lim < m - xp ∨ m - xp < -lim) → 10 ≤ p.errRun + 1 →
       d.obsCore.pos.x = d.measured ∧ d.obsCore.pos.a = 0 ∧ d.obsCore.pos.errRun = 0)) ∧
  (∀ s : State, s.dev.halted = false →
     Does .observerUpdate s
       (((((s.dev.obsCore.obsDir).obsCheck).obsHist).lateOrigins).speedReact).obsSnap ∧
     (s.dev.bit Reg.POS_STATUS 4 = true → s.dev.lost = false →
       let d0 : Dev := { s.dev with pos := { s.dev.pos with x := s.dev.xAt s.dev.tc, v := 0, a := 0, sample := s.dev.tc } }
       let d1 := ((((d0.wrBit Reg.POS_STATUS 4 false).wrBit Reg.POS_STATUS 5 true).wrBit Reg.FIRE_STATUS 3 true).showObs).event
         1 .positionLost (ivals [pubI (d0.pos.x * 65536)])
       Does .positionLost s
         ((d1.activeIds.foldl (fun x i => (x.abortJob i).event 1 .jobAbortedPosition (vals [i])) d1).speedReact).settleStop) ∧
     (s.dev.bit Reg.POS_STATUS 4 = false ∨ s.dev.lost = true → Does .positionLost s s.dev.settleStop))

/-! ## Lines, heads and engines (R180-R205, R246-R270) -/

/-- A line tick of a job issues the lines that its reference grid has reached, on every bar that carries it, and counts toward a
takeover's report; a STOP that waited for the last job then ends; a job with no tick due, or none by that identifier, issues
nothing. No tick is due while the position is lost, outside SERVICE, or before the job's origin is set (R248, R256, R257, R434).
An overspeed stop ends when the web has advanced 1,000 pitches since every bar's line rate fell below its limit: every bar
leaves suppression by a decision, the flag clears and the end is reported; a STANDBY waits for the ACTIVE's decision (R260). -/
def Obligations.LinesAreIssuedAsTheWebAdvances : Prop :=
  (∀ (s : State) (id : Nat), s.dev.halted = false →
     let d := s.dev
     (∀ j k, d.findJob id = some j → d.dueTick j = some k →
       let d1 := d.modJob id (fun x => { x with nextTick := k + 1 })
       let bars := j.barList.filter (fun b => (d.bf b).job == id)
       Does (.lineTick id) s
         ((((bars.foldl (fun x b => x.tickBar b k x.tc) d1).countTakeover).tryTakeback).settleStop)) ∧
     (∀ j, d.findJob id = some j → d.dueTick j = none → Does (.lineTick id) s d.settleStop) ∧
     (d.findJob id = none → Does (.lineTick id) s d.settleStop) ∧
     (∀ j, d.lost = true ∨ d.inService = false ∨ j.x0 = none → d.dueTick j = none) ∧
     (∀ j k, d.dueTick j = some k → j.nextTick ≤ k)) ∧
  (∀ s : State, s.dev.halted = false →
     let d := s.dev
     (d.fire.slowFrom = none → Does .overspeedResume s d) ∧
     (∀ x0, d.fire.slowFrom = some x0 →
       let due := d.bit Reg.FIRE_STATUS 1 = true ∧ d.role ≠ 2 ∧ (25400000 : Rat) / (d.dpi : Rat) ≤ d.pos.x - x0
       let d1 : Dev := { d with fire := { d.fire with slowFrom := none } }
       let d2 := (List.range 8).foldl
         (fun x b => (x.setBf b { x.bf b with suppressed := false }).decision (x.bf b).next b 0xFF 3 0 0) d1
       (due → Does .overspeedResume s
         (((d2.wrBit Reg.FIRE_STATUS 1 false).event 1 .overspeedResume (vals [d2.lineRate])).speedLimit)) ∧
       (¬due → Does .overspeedResume s d)))

/-- A TEMPS frame that is taken shows LOCAL_STOP, gives the partition its copy, records every head's report and lets the firing
block react to each unless it is a STANDBY; one of a line already passed by more than 16 is set aside (R261, R298, R443). The
reactions to a head's temperature have hysteresis: nothing changes between the derating threshold less 3 degrees and the stop
threshold; at the derating threshold a head that is not derated is derated from the fourth line on; at the stop threshold a
derated head stops at once, and it resumes by itself only 5 degrees below it (R261, R262, R265). A head of a printing bar that
has not been reported for FIRE_TEMP_STALE lines stops from the next line on, outside a STANDBY; a host write of a RESUME bit
resumes a stopped head that is cool and reported when manual resumption is configured, is refused else, and on a STANDBY (R264,
R265; log entry 107). -/
def Obligations.HeadTemperaturesAct : Prop :=
  (∀ (s : State) (b : Fin 8) (f : List Blk) (body : List Byte) (d : Dev), s.dev.halted = false → s.dev.Frame b 0x10 f d body →
     let bad := d.portState b < 4 ∨ d.tempsOk b body = false ∨ fld (numAt body 56 4) 24 8 ≠ 0
     let local_ := numAt body 56 4
     let d1 := d.wr (Reg.LACE_LOCAL_STOP b) local_
     let d2 : Dev := { d1 with safe := { d1.safe with
       copies := d1.safe.copies ++ [((b : Nat), (List.range 24).map (tempOf body), local_)] } }
     let d3 := (bitsOf 24 (d2.present b)).foldl (fun x h => x.recordTemp b h (tempOf body h)) d2
     (bad → Does (.temps b f) s (d.impossible b)) ∧
     (¬bad → numAt body 0 8 + 17 ≤ (d.bf b).next → Does (.temps b f) s d) ∧
     (¬bad → (d.bf b).next < numAt body 0 8 + 17 → d3.role = 2 → Does (.temps b f) s d3) ∧
     (¬bad → (d.bf b).next < numAt body 0 8 + 17 → d3.role ≠ 2 → Does (.temps b f) s
       ((bitsOf 24 (d3.present b)).foldl (fun x h => d3.headReport b x h (tempOf body h)) d3))) ∧
  (∀ (d : Dev) (b : Fin 8) (h : Fin 24) (x : Int),
     let line := d.nextLine b
     let der := d.bit (Reg.FIRE_BAR_DERATED b) h
     let st := d.bit (Reg.FIRE_BAR_STOPPED b) h
     (der = true → st = false → d.tDerate - 48 < x → x < d.tStop → d.headReport b d h x = d) ∧
     (der = false → st = false → x < d.tDerate → x < d.tStop → d.headReport b d h x = d) ∧
     (der = false → st = false → d.tDerate ≤ x → x < d.tStop →
       d.headReport b d h x = (d.setDerate b h (line + 4) true).decision (line + 4) b h 4 0 0) ∧
     (der = true → st = false → d.tDerate - 48 < x → d.tStop ≤ x →
       d.headReport b d h x = (d.stopHead b h line 1).decision line b h 6 1 0) ∧
     (der = true → st = true → d.tDerate - 48 < x → d.tStop - 80 < x → d.headReport b d h x = d) ∧
     (der = true → st = true → d.tDerate - 48 < x → x ≤ d.tStop - 80 → d.cfB Reg.FIRE_CTRL 2 = false →
       d.headReport b d h x = (d.resumeHead b h line).decision line b h 7 0 0)) ∧
  (∀ (s : State) (b : Fin 8),
     (s.dev.halted = false → ∀ h : Fin 24,
       let d := s.dev
       let stale := d.printingOn b = true ∧ d.cf Reg.FIRE_TEMP_STALE ≤ mapGet 0 (d.bf b).age h ∧ bitOf (d.rated b) h = true ∧
         d.bit (Reg.FIRE_BAR_STOPPED b) h = false ∧ d.role ≠ 2
       (stale → Does (.headTempStale b h) s ((d.stopHead b h (d.nextLine b) 2).decision (d.nextLine b) b h 6 2 0)) ∧
       (¬stale → Does (.headTempStale b h) s d)) ∧
     (s.dev.answers → ∀ v : Word,
       Does (.headResumeWrite b v) s ((bitsOf 24 v.toNat).foldl (fun x h => x.resumeWrite b h) s.dev.dozeExit)) ∧
     (∀ (d : Dev) (h : Fin 24),
       let t := d.rd (Reg.FIRE_HEAD_TEMP (24 * b + h))
       let may := d.role ≠ 2 ∧ d.cfB Reg.FIRE_CTRL 2 = true ∧ d.bit (Reg.FIRE_BAR_STOPPED b) h = true ∧ bitOf t 27 = true ∧
         sgn 16 t ≤ d.tStop - 80 ∧ mapGet 0 (d.bf b).age h < d.cf Reg.FIRE_TEMP_STALE
       (may →
         d.resumeWrite b h = (d.resumeHead b h (d.bf b).next).decision (d.bf b).next b h 7 0 0) ∧
       (¬may → d.resumeWrite b h = d.event 1 .headResumeRefused (vals [(b : Nat), (h : Nat)]))))

/-- The front half of a bar's engine takes its next line when the ring holds it and the pipeline has room: the line's codes are
computed from the data and the tables in force at it, the error rows and the compensation's losses go on, and the line waits
between the halves; one that prints blank enters with the cause of its range (R180, R196, R199). The back half limits the oldest
line between the halves, shows its number, drops it from the ring, and sends one LINE frame for each rated head when this module
drives the bar; with nothing between the halves, too few lines ahead, or the line's time past, nothing happens (R182, R185,
R200, R249). An engine that fails stops with its cause and is reported, once: the spare takes its bar when it is free, else the
bar is lost, and a printing bar reports a fault of its job; an engine that serves no bar only stops; the watchdog acts only
while the bar prints (R202, R205). -/
def Obligations.EnginesTakeAndHandOnLines : Prop :=
  (∀ (s : State) (b : Fin 8) (j : Job) (l : Nat), s.dev.halted = false →
     let r := s.dev.br b
     let n := r.front
     (s.dev.lineJob b n = none → Does (.rasterLine b .front) s s.dev) ∧ (
     s.dev.lineJob b n = some (j, l) →
     let d := if s.dev.itemDue b 7 l = true then s.dev.sendItem b 7 (edItem r) else s.dev
     let idle := d.inService = false ∨ d.hasEngine b = false ∨ j.has l = false ∨ (d.bf b).next + 1024 ≤ n ∨
       r.handed + ringLines j.mode ≤ n ∨ d.awaits b 7 = true
     let blanked := mapGet none r.blanks n
     (idle → Does (.rasterLine b .front) s d) ∧
     (¬idle → blanked ≠ none → Does (.rasterLine b .front) s (d.frontBlank b n blanked)) ∧
     (¬idle → blanked = none → (d.lostCause j b).isSome = true → Does (.rasterLine b .front) s (d.frontBlank b n (some 0))) ∧
     (¬idle → blanked = none → d.lostCause j b = none → d.ringLine j b l = none → Does (.rasterLine b .front) s d) ∧
     (∀ k, ¬idle → blanked = none → d.lostCause j b = none → d.ringLine j b l = some (.blank k) →
       Does (.rasterLine b .front) s (d.frontBlank b n (some k))) ∧
     (∀ bs, ¬idle → blanked = none → d.lostCause j b = none → d.ringLine j b l = some (.data bs) →
       let o := lineCodes (d.lineIn b n l j (r.edReset || l == 0 || d.screenAt b n)) bs
       let d1 := d.setBr b { r with
         front := n + 1, mid := r.mid ++ [⟨n, o.heads⟩], ed := o.ed, edReset := !(decide (3 ≤ j.mode)) }
       Does (.rasterLine b .front) s ((d1.bumpBy (Reg.RE_DNC_LOST b) o.lost).noteDead b n)))) ∧
  (∀ (s : State) (b : Fin 8), s.dev.halted = false →
     ((s.dev.br b).mid = [] → Does (.rasterLine b .back) s s.dev) ∧
     (∀ m rest, (s.dev.br b).mid = m :: rest → s.dev.lineJob b m.line = none → Does (.rasterLine b .back) s s.dev) ∧
     (∀ m rest j l, (s.dev.br b).mid = m :: rest → s.dev.lineJob b m.line = some (j, l) →
       let d := if s.dev.itemDue b 8 l = true then s.dev.sendItem b 8 (dutyItem (s.dev.br b)) else s.dev
       let n := m.line
       let next := (d.bf b).next
       let idle := d.inService = false ∨ d.hasEngine b = false ∨ next + 4 ≤ n ∨ (n < next ∧ d.syncing b = false) ∨
         d.awaits b 8 = true
       let late := mapGet none (d.br b).blanks n = some 5
       let q := d.dutyLine b n l (if late then [] else m.heads)
       let lines := (bitsOf 24 (d.rated b)).map (fun h => (h, headLine (mapGet [] q.1 h)))
       let r := q.2.br b
       let d1 := q.2.setBr b { r with
         mid := rest, handed := n + 1, out := mapSet [] r.out n (lines.map (fun x => (x.1, crc32c x.2))) }
       let d2 := ((d1.wr (Reg.RE_LINE b) n).dropRing b n).joinAt b n l
       (idle → Does (.rasterLine b .back) s d) ∧
       (¬idle → d2.mayDrive b = false → Does (.rasterLine b .back) s d2) ∧
       (¬idle → d2.mayDrive b = true → Does (.rasterLine b .back) s
         (lines.foldl (fun x y => x.sendLine b ⟨j.id, l, y.1, (d2.omegaAt b n % 64).toNat, 0,
           if bitOf (d2.blankedAt b n) y.1 then List.replicate 1024 0 else y.2⟩ false) d2)))) ∧
  (∀ (s : State) (e : Fin 9) (cause : Fin 3), s.dev.halted = false →
     let d := s.dev
     let prints := ∃ b, d.servedBy e = some b ∧ d.printingOn b = true
     let can := d.bit (Reg.RE_STATUS e) 4 = false ∧ (cause.val ≠ 0 ∨ prints)
     let d0 := (d.wr (Reg.RE_STATUS e) 0x1F).wr (Reg.RE_FAULT_INFO e) (cause + 1)
     let log : Dev → Dev := fun x => (x.event 1 .engineFault (vals [e, cause + 1])).partChanged 4
     let gone : Nat → Dev := fun b =>
       let d1 := log (d0.wrF Reg.PLACE_RE_MAP (4 * b) 4 0xF)
       (d1.barLost b true).decision (d1.bf b).next b 0xFF 9 8 0
     let told : Nat → Dev → Dev := fun b x => if x.printingOn b = true then x.printFault b (x.bf b).next else x
     (¬can → Does (.engineFault e cause) s d) ∧
     (can → d.servedBy e = none → Does (.engineFault e cause) s (log d0)) ∧
     (∀ b, can → d.servedBy e = some b →
       (d0.re8Free = true → e.val ≠ 8 → Does (.engineFault e cause) s (told b (log (d0.handOver b)))) ∧
       (d0.re8Free = false ∨ e.val = 8 → Does (.engineFault e cause) s (told b (gone b)))))

/-- Duty limiting never raises a drop, and the energy of a line after it is at most what is left of the head's allowance; packing
keeps every code of a line of 4,096 nozzles (R185, R200, R201). -/
def Obligations.DutyLimitingOnlyLowersDrops : Prop :=
  (∀ (allow st : Nat) (vs : List Nat), vs.length = 4096 → st < 4096 → (∀ v ∈ vs, v ≤ 3) →
    (limitHead allow st vs).1.length = 4096 ∧
    (∀ i, (limitHead allow st vs).1.getD i 0 ≤ vs.getD i 0) ∧
    (limitHead allow st vs).1.sum ≤ allow) ∧
  (∀ (w : Nat) (codes cs : List Nat), codes.length = cs.length →
    (spendCredit w codes cs).length = codes.length ∧
    ∀ i, ((spendCredit w codes cs).getD i (0, 0)).1 ≤ codes.getD i 0) ∧
  (∀ vs : List Nat, vs.length = 4096 → (∀ v ∈ vs, v ≤ 3) →
    (packHead vs).length = 1024 ∧ ∀ i, i < 4096 → fld (byteAt (packHead vs) (i / 4)) (2 * (i % 4)) 2 = vs.getD i 0)

/-! ## Lace links and lanes (R271-R331) -/

/-- A Lace frame whose bucket has no room is dropped and counted; one with a block error, a TYPE that is not 1 to 4 or a bad CRC is
counted; neither is taken further. A port that is not linking, or is quarantined, hears nothing (R274, R275, R284, R300). Link-
up starts step 2 with an ECHO on a trained port of an enabled bar; a step that runs out of time fails the link, or sends a new
challenge until the third, which quarantines the port; a port that is down tries again (R289, R290, R299). A frame that is taken
in its step carries the link-up on: sixteen echoes give the latency and start authentication; a response with the module's key
and the right tag gives the session key and sends BAR_SETUP, any other quarantines the port; an acknowledgement of 256 lines and
more goes on to the head memories, whose records are read to their end (R282-R292). At the end of an interval a port flooded for
the hundredth time running is quarantined; the INHIBIT token is repeated while the field or a quarantine inhibits a bar; a host
asks for a sense map of the selected head of a port that is up, one at a time, and relinks a quarantined port in HOLD only
(R281, R296, R299, R301). A write of LANE_LNl_TEST takes effect in HOLD, on the lanes that have the loop and the pattern asked;
what is reserved, asked in SERVICE, asked of a PCIe lane, or joins a line loop with a pattern is ignored and reported
(R328-R330). A host's eye scan starts when none runs, waits for the one that does, and is ignored while one of its own waits or
of a lane that is none; a scan's end shows the eye, 0 by 0 of a lane that was down, publishes its record, and starts the next; a
margin scan queues every lane that is up, once (R326, R327, R491). -/
def Obligations.LinksComeUpAndLanesAreTested : Prop :=
  (∀ (s : State) (b : Fin 8) (bl : List Blk),
     let d := s.dev
     let d1 := d.refill b
     let x := d1.ls b
     let need := 16 * frameSize bl
     let d2 := d1.setLs b { x with bucket := x.bucket - need }
     (d.portState b < 2 ∨ d.portState b = 7 → d.laceRx b bl = d) ∧
     (2 ≤ d.portState b → d.portState b ≠ 7 → x.bucket < need →
       d.laceRx b bl = (d1.setLs b { x with flooded := true }).bump (Reg.LACE_RATE_DROP_COUNT b)) ∧
     (2 ≤ d.portState b → d.portState b ≠ 7 → need ≤ x.bucket → deframe bl = none →
       d.laceRx b bl = d2.bump (Reg.LACE_CRC_ERR_COUNT b)) ∧
     (∀ t f, 2 ≤ d.portState b → d.portState b ≠ 7 → need ≤ x.bucket → deframe bl = some (t, f) →
       t = 0 ∨ 4 < t ∨ laceCrcOk f = false → d.laceRx b bl = d2.bump (Reg.LACE_CRC_ERR_COUNT b))) ∧
  (∀ (s : State) (b : Fin 8), s.dev.halted = false →
     let d := s.dev
     let x := d.ls b
     let fresh : LaceSt := { bucket := x.bucket, bucketAt := x.bucketAt, flooded := x.flooded, floodRun := x.floodRun,
                             downLogged := x.downLogged }
     let ready := d.barEn b = true ∧ d.portState b = 1 ∧ d.upLanes b ≠ []
     (ready → Does (.laceLinkUp b) s ((((d.setLs b fresh).setPortState b 2).wrF (Reg.LACE_STATUS b) 12 4 0).sendEcho b)) ∧
     (¬ready → Does (.laceLinkUp b) s d) ∧
     (∀ k, d.portState b = k → k = 1 ∨ k = 2 ∨ k = 4 ∨ k = 5 → Does (.laceStepTimeout b) s (d.linkFail b k)) ∧
     (d.portState b = 3 → x.chal = true →
       let d1 := d.setLs b { x with authTries := x.authTries + 1 }
       (3 ≤ (d1.ls b).authTries → Does (.laceStepTimeout b) s (d1.quarantine b 1)) ∧
       ((d1.ls b).authTries < 3 → Does (.laceStepTimeout b) s (d1.sendChallenge b))) ∧
     (d.portState b = 3 → x.chal = false → Does (.laceStepTimeout b) s d) ∧
     (d.portState b = 0 ∨ 6 ≤ d.portState b → Does (.laceStepTimeout b) s d) ∧
     (d.barEn b = true ∧ d.portState b = 0 → Does (.laceRetry b) s (d.setPortState b 1)) ∧
     (¬(d.barEn b = true ∧ d.portState b = 0) → Does (.laceRetry b) s d)) ∧
  (∀ (s : State) (b : Fin 8) (f : List Blk) (body : List Byte) (d : Dev), s.dev.halted = false →
     let x := d.ls b
     (s.dev.Frame b 0x81 f d body →
       (x.echoSent = none → Does (.echoReply b f) s (d.impossible b)) ∧
       (∀ t, x.echoSent = some t → d.portState b ≠ 2 ∨ numAt body 0 8 ≠ t % 2 ^ 64 →
         Does (.echoReply b f) s (d.impossible b)) ∧
       (∀ t, x.echoSent = some t → d.portState b = 2 → numAt body 0 8 = t % 2 ^ 64 →
         let es := x.echoes ++ [5 * ((d.tc : Int) - (t : Int)) - 2 * (numAt body 8 4 : Int)]
         let d1 := d.setLs b { x with echoes := es, echoSent := none }
         Does (.echoReply b f) s (if es.length < 16 then d1.sendEcho b else d1.endEcho b es))) ∧
     (s.dev.Frame b 0x82 f d body →
       let nn := body.take 16
       let id := (body.drop 16).take 16
       let port := leBytes 1 d.slot
       let tn := aesCmac d.safe.ki (leBytes 1 0x4E ++ x.nm ++ nn ++ id ++ port)
       let d1 := d.wrWords (Reg.LACE_NODE_ID b 0) (bytesWords id)
       let good := numAt body 48 4 = d1.rd Reg.SAFE_KEY_ID ∧ (body.drop 32).take 16 = tn
       (d.portState b ≠ 3 ∨ x.chal = false → Does (.authResponse b f) s (d.impossible b)) ∧
       (d.portState b = 3 → x.chal = true → ¬good → Does (.authResponse b f) s (d1.quarantine b 1)) ∧
       (d.portState b = 3 → x.chal = true → good →
         let d2 := (d1.setLs b { x with chal := false }).laceSend b 2 0x03
           (aesCmac d.safe.ki (leBytes 1 0x4D ++ nn ++ x.nm ++ port))
         let ks := aesCmac d.safe.ki (leBytes 1 0x53 ++ x.nm ++ nn ++ port)
         let d3 := (d2.setLs b { d2.ls b with key := some ks }).setPortState b 4
         Does (.authResponse b f) s (d3.laceSend b 2 0x04 (d3.setupBody b)))) ∧
     (s.dev.Frame b 0x84 f d body →
       let d1 := (d.wr (Reg.LACE_HEADS_PRESENT b) (numAt body 0 4)).wr (Reg.LACE_BUF_LINES b) (numAt body 4 2)
       (d.portState b ≠ 4 → Does (.setupAck b f) s (d.impossible b)) ∧
       (d.portState b = 4 → numAt body 4 2 < 256 → Does (.setupAck b f) s (d1.quarantine b 6)) ∧
       (d.portState b = 4 → 256 ≤ numAt body 4 2 → Does (.setupAck b f) s ((d1.setPortState b 5).nextRead b))) ∧
     (s.dev.Frame b 0x13 f d body →
       (x.hmemReq = none → Does (.hmemData b f) s (d.impossible b)) ∧
       (∀ h a n, x.hmemReq = some (h, a, n) →
         let mine := body.take 8 = leBytes 1 h ++ leBytes 1 0 ++ leBytes 2 a ++ leBytes 2 n ++ leBytes 2 0 ∧
           body.length = 8 + n
         (mine → Does (.hmemData b f) s ((d.setLs b { x with
           hmemReq := none, hmem := mapSet [] x.hmem h (mapGet [] x.hmem h ++ body.drop 8) }).nextRead b)) ∧
         (¬mine → Does (.hmemData b f) s (d.impossible b))))) ∧
  (∀ s : State,
     (s.dev.halted = false →
       Does .floodInterval s ((List.range 8).foldl
         (fun acc b =>
           let n := if (acc.ls b).flooded = true then (acc.ls b).floodRun + 1 else 0
           let d1 := acc.setLs b { acc.ls b with flooded := false, floodRun := n }
           if 100 ≤ n then (d1.setLs b { d1.ls b with floodRun := 0 }).quarantine b 4 else d1) s.dev) ∧
       ∀ b : Fin 8,
         (s.dev.fieldInhibit b = true ∨ s.dev.quarantined b = true →
           Does (.inhibitTokenRepeat b) s (s.dev.inhibitTokenAt b (s.dev.inhibitLine b))) ∧
         (s.dev.fieldInhibit b = false → s.dev.quarantined b = false → Does (.inhibitTokenRepeat b) s s.dev)) ∧
     (s.dev.answers → ∀ b : Fin 8,
       let d := s.dev.dozeExit
       let h := d.rdF (Reg.LACE_SENSE_HEAD b) 0 5
       let x := d.ls b
       let d1 := ((d.wrF (Reg.LACE_STATUS b) 12 4 0).setPortState b 1).portUp (12 + b)
       let busy := x.senseReq.isSome = true ∨ x.hmemReq.isSome = true
       (d.inHold = true → d.quarantined b = true → Does (.relink b) s (d1.setLs b { bucketAt := d1.tc })) ∧
       (d.inHold = true → d.quarantined b = false → Does (.relink b) s d) ∧
       (d.inHold = false → Does (.relink b) s (d.laceEvent .laceRelinkRefused b [])) ∧
       (d.laceUp b = false → Does (.senseReq b) s d) ∧
       (d.laceUp b = true → busy →
         Does (.senseReq b) s ((d.setLs b { x with senseWait := some h }).wrBit (Reg.LACE_CTRL b) 1 true)) ∧
       (d.laceUp b = true → ¬busy → Does (.senseReq b) s (d.startSense b h)))) ∧
  (∀ (s : State) (l : Fin 36) (v : Word), s.dev.answers → s.dev.dozeExit.inRecovery = false →
     let d := s.dev.dozeExit
     let a := Reg.LANE_LN_TEST l
     let w := v.toNat % 64
     let loop := fld w 0 2
     let pat := fld w 2 3
     let fixed := d.inService = true ∨ l.val < 8
     let new := loop + pat * 4 + fld w 5 1 * 32
     let d1 := (d.wr a new).wrBit (Reg.LANE_LN_STATUS l) 15 (new != 0)
     (fixed → w = 0 → Does (.laneTest l v) s d) ∧
     (fixed → w ≠ 0 → Does (.laneTest l v) s (d.writeIgnored a v.toNat)) ∧
     (¬fixed → loop = 3 → 1 ≤ pat → pat ≤ 3 → Does (.laneTest l v) s (d.writeIgnored a v.toNat)) ∧
     (¬fixed → ¬(loop = 3 ∧ 1 ≤ pat ∧ pat ≤ 3) → ¬(26 ≤ l.val ∧ l.val ≤ 33 ∧ loop ≠ 0) → pat ≤ 3 →
       Does (.laneTest l v) s (if new = 0 ∧ d.rd a = 0 then d1 else d1.laneStop l)) ∧
     (¬fixed → ¬(loop = 3 ∧ 1 ≤ pat ∧ pat ≤ 3) → (26 ≤ l.val ∧ l.val ≤ 33 ∧ loop ≠ 0) ∨ 3 < pat →
       let loop' := if 26 ≤ l.val ∧ l.val ≤ 33 ∧ loop ≠ 0 then fld (d.rd a) 0 2 else loop
       let new' := loop' + (if 3 < pat then fld (d.rd a) 2 3 else pat) * 4 + fld w 5 1 * 32
       let d2 := ((d.writeIgnored a v.toNat).wr a new').wrBit (Reg.LANE_LN_STATUS l) 15 (new' != 0)
       Does (.laneTest l v) s (if new' = 0 ∧ d.rd a = 0 then d2 else d2.laneStop l))) ∧
  (∀ s : State,
     (s.dev.answers →
       let d := s.dev.dozeExit
       let l := d.rdF Reg.LANE_EYE_CTRL 0 6
       let d1 := d.wrBit Reg.LANE_EYE_GO 0 true
       let bad := d.bit Reg.LANE_EYE_STATUS 1 = true ∨ 36 ≤ l
       (bad → Does .eyeScanGo s (d.writeIgnored Reg.LANE_EYE_GO 1)) ∧
       (¬bad → d.lane.scan = none → Does .eyeScanGo s (d1.scanStart l true)) ∧
       (¬bad → d.lane.scan ≠ none → Does .eyeScanGo s
         (({ d1 with lane := { d1.lane with hostNext := some l } } : Dev).wrBit Reg.LANE_EYE_STATUS 1 true))) ∧
     (s.dev.halted = false →
       let d := s.dev
       (∀ w h, d.lane.scan = none → Does (.eyeScanDone w h) s d) ∧
       (∀ w h l host, d.lane.scan = some (l, host) →
         let down := d.lane.scanDown || !d.laneUp l
         let w' := if down = true then 0 else w.val
         let h' := if down = true then 0 else h.val
         let d1 := ((d.wr (Reg.LANE_LN_EYE l) (w' + h' * 0x100)).wrBit (Reg.LANE_LN_EYE_STAT l) 17 down).publish
           (Reg.LANE_LN_EYE_STAT l)
         let d2 := if host = true then d1 else d1.marginResult l w' h'
         let d3 : Dev := { d2 with lane := { d2.lane with scan := none, scanDown := false } }
         let d4 := if host = true ∧ d3.lane.hostNext = none then d3.wrBit Reg.LANE_EYE_GO 0 false else d3
         Does (.eyeScanDone w h) s (d4.wr Reg.LANE_EYE_STATUS (l * 0x100)).scanNext) ∧
       let more := ((List.range 36).filter d.laneUp).filter (fun l => !d.lane.queue.contains l)
       Does .marginScan s (({ d with lane := { d.lane with queue := d.lane.queue ++ more } } : Dev).scanNext)))

/-- FILL changes nothing when every value fits the node's buffers; STATUS takes removed heads out of use and shows the heads
present, the interlocks and the underflows; SENSE_DATA of the asked head is shown and publishes its record, and a waiting
request starts; a value that cannot be is counted (R285, R291, R297, R298). A port status that cannot be is counted; any other
shows what the node follows, its bridged lines and its mismatches, whose line and head are kept when their number has grown, and
a node that follows the partner's higher epoch counts toward a demotion (R285, R298, R307, R418). -/
def Obligations.NodesReportTheirState : Prop :=
  (∀ (s : State) (b : Fin 8) (f : List Blk) (body : List Byte) (d : Dev), s.dev.halted = false →
     let x := d.ls b
     (s.dev.Frame b 0x11 f d body →
       let fits := 4 ≤ d.portState b ∧ ∀ h < 24, numAt body (8 + 2 * h) 2 ≤ d.rd (Reg.LACE_BUF_LINES b)
       (fits → Does (.fill b f) s d) ∧ (¬fits → Does (.fill b f) s (d.impossible b))) ∧
     (s.dev.Frame b 0x12 f d body →
       let hp := numAt body 0 4
       let gone := ((bitsOf 24 (d.present b)).filter (fun h => !bitOf hp h)).foldl (fun m h => m + 2 ^ h) 0
       let d1 := (d.removeHeads b gone).wr (Reg.LACE_HEADS_PRESENT b) hp
       let d2 := (d1.wrBit (Reg.LACE_STATUS b) 6 (byteAt body 8 != 0)).wrF (Reg.LACE_STATUS b) 7 1 (byteAt body 9)
       (4 ≤ d.portState b → Does (.status b f) s (d2.wr (Reg.LACE_NODE_UNDERFLOW b) (numAt body 12 4))) ∧
       (d.portState b < 4 → Does (.status b f) s (d.impossible b))) ∧
     (s.dev.Frame b 0x14 f d body →
       (x.senseReq = none → Does (.senseData b f) s (d.impossible b)) ∧
       (∀ h, x.senseReq = some h → byteAt body 0 ≠ h ∨ bitOf (d.present b) h = false →
         Does (.senseData b f) s (d.impossible b)) ∧
       (∀ h, x.senseReq = some h → byteAt body 0 = h → bitOf (d.present b) h = true →
         let d1 := ((d.setLs b { x with senseReq := none }).wrWords (Reg.LACE_SENSE_DATA b 0)
           (bytesWords (body.drop 8))).publish (Reg.LACE_SENSE_STAT b)
         let d2 := d1.wrF (Reg.LACE_SENSE_STAT b) 17 5 h
         (x.senseWait = none → Does (.senseData b f) s d2) ∧
         (∀ k, x.senseWait = some k → Does (.senseData b f) s (d2.startSense b k))))) ∧
  (∀ (s : State) (b : Fin 8) (f : List Blk) (body : List Byte) (d : Dev), s.dev.halted = false →
     s.dev.Frame b 0x30 f d body →
     let fol := byteAt body 0
     let other := numAt body (8 - 4 * d.slot) 4
     let bad := fol = 2 ∨ 3 < fol ∨ d.rd Reg.PAIR_EPOCH_MAX < numAt body (4 + 4 * d.slot) 4 ∨ 23 < byteAt body 24
     let epoch := if fol = 0 then numAt body 4 4 else if fol = 1 then numAt body 8 4 else 0
     let grown := d.rd (Reg.LACE_MISMATCH_COUNT b) < numAt body 12 4
     let d0 := ((d.wrF (Reg.LACE_STATUS b) 8 2 fol).wrBit (Reg.LACE_STATUS b) 10 (fol == d.slot)).wrF (Reg.LACE_STATUS b) 11 1
       (byteAt body 1 / 4)
     let d2 := ((d0.wr (Reg.LACE_EPOCH_FOLLOWED b) epoch).wr (Reg.LACE_NODE_BRIDGED b) (numAt body 28 4)).wr
       (Reg.LACE_MISMATCH_COUNT b) (numAt body 12 4)
     let d3 := if grown then (d2.wr64 (Reg.LACE_MM_LINE_LO b) (numAt body 16 8)).wr (Reg.LACE_MM_HEAD b) (byteAt body 24) else d2
     let d4 := if grown ∧ d3.pairOn = true ∧ d3.role ≠ 0 then d3.mismatchAt b (numAt body 16 8) true else d3
     let follows := d4.pairOn = true ∧ fol + d4.slot = 1 ∧ d4.rd Reg.PAIR_EPOCH < other
     (bad → Does (.portStatus b f) s (d.impossible b)) ∧
     (¬bad → follows → Does (.portStatus b f) s (d4.nodeFollows b other)) ∧
     (¬bad → ¬follows → Does (.portStatus b f) s { d4 with pair := { d4.pair with reports := mapErase b d4.pair.reports } }))

/-- A lane that is up and loses lock counts its errors and the loss, is reported and stops, and its owner loses it; a lane that is
down, or whose window is open for a waiting change, applies its row and trains (R315-R319, R324). BITSLIP moves the boundary of
a 64b/66b lane by one UI modulo 66; RETRAIN stops a lane in HOLD, its bit reading 1 until the lane has trained, and is refused
in SERVICE; the pattern errors restart from 0 (R8, R316, R324, R330). -/
def Obligations.LanesStopTrainAndSlip : Prop :=
  (∀ (s : State) (l : Fin 36), s.dev.halted = false →
     let d := s.dev
     (∀ n, d.laneUp l = true → Does (.laneLockLost l n) s
       ((((d.laneErrs l n 0).bump (Reg.LANE_LN_LOCKLOSS_COUNT l)).event 2 .laneLockLost (vals [l])).laneStop l)) ∧
     (∀ n, d.laneUp l = false → Does (.laneLockLost l n) s d) ∧
     (∀ res : LaneRes,
       let waits := d.laneUp l = true ∧ ¬(d.windowOpen l = true ∧ (d.laneChange l = true ∨ l.val < 8))
       let d1 := ((d.laneStop l).wrBit (Reg.LANE_LN_CTRL l) 1 false).applyRow l
       let a := d1.laneAlign l res
       let st := Reg.LANE_LN_STATUS l
       let d2 := ((d1.wrBit st 0 res.cdr).wrF st 8 7 a.1).wrF (Reg.LANE_LN_RATE l) 0 16
         (if res.cdr = true then d1.laneRateOf l else 0)
       (waits → Does (.laneRetrain l res) s d) ∧
       (¬waits → Does (.laneRetrain l res) s ((d2.laneErrs l res.syncErrs res.bitErrs).laneSettle l a.2 res)))) ∧
  (∀ (s : State) (l : Fin 36), s.dev.answers →
     let d0 := s.dev.dozeExit
     let st := Reg.LANE_LN_STATUS l
     (∀ res : LaneRes,
       let d := d0.wrBit (Reg.LANE_LN_CTRL l) 0 false
       let pos := (d.rdF st 8 7 + 1) % 66
       let aligned := res.cdr && (res.slip.map Fin.val == some pos)
       let d1 := if aligned = true then d else d.opLockLost l 0
       let d2 := (d1.wrF st 8 7 pos).wrBit st 0 res.cdr
       (isBlockLane l = true → Does (.bitslip l res) s
         ((d2.laneErrs l res.syncErrs res.bitErrs).laneSettle l aligned res)) ∧
       (isBlockLane l = false → Does (.bitslip l res) s d0)) ∧
     (d0.inService = true → Does (.retrain l) s (d0.event 2 .laneTestRefused (vals [l]))) ∧
     (d0.inService = false → d0.inHold = true →
       Does (.retrain l) s ((d0.wrBit (Reg.LANE_LN_CTRL l) 1 true).laneStop l)) ∧
     (d0.inService = false → d0.inHold = false → Does (.retrain l) s d0) ∧
     Does (.errRestart l) s (d0.wr (Reg.LANE_LN_PRBS_ERR_COUNT l) 0))

/-! ## Inspection and the loops (R332-R372) -/

/-- A control access of a camera that is up goes out, one at a time; its end shows the acknowledgement's code, and the data of an
acknowledged read, publishes the record and frees the unit; an access that times out shows 0xFF (R334; the data of an access
that reads none is a free value, log entry 62). Bringing a camera up stops its acquisition first; a camera that is found
connects, starts its acquisition and streams; wrong wiring is reported, and one that is not found goes down; nothing is done for
a camera that is not enabled or on a STANDBY. A camera that is up goes down with its frame closed for the loss (R335, R338,
R352, R353). A camera gets one trigger per grid index reached while it streams and the position holds: one that comes too soon
after the last is counted as skipped, any other goes out with its index, and its stamp carries the position after the latency. A
header closes the open frame and opens the next; a line goes to the open frame; the pipeline takes from the camera with more
lines waiting (R336-R341). -/
def Obligations.CamerasRunAndSendLines : Prop :=
  (∀ s : State,
     (s.dev.answers →
       let d := s.dev.dozeExit
       let cam := d.rdF Reg.CXP_CTL_SEL 0 1
       let may := d.rd Reg.CXP_CTL_GO = 0 ∧ d.camUp cam = true
       let gone : Nat → Bool → Dev := fun v write => ((d.wr Reg.CXP_CTL_GO v).wrBit Reg.CXP_CTL_STAT 16 false).send
         (.camControl cam write (d.rd Reg.CXP_CTL_ADDR) (d.rd Reg.CXP_CTL_DATA))
       (may → Does .cxpCtlRead s (gone 1 false) ∧ Does .cxpCtlWrite s (gone 2 true)) ∧
       (¬may → Does .cxpCtlRead s (d.writeIgnored Reg.CXP_CTL_GO 1) ∧ Does .cxpCtlWrite s (d.writeIgnored Reg.CXP_CTL_GO 2))) ∧
     (s.dev.halted = false →
       let d := s.dev
       let done : Nat → Nat → Dev := fun code data =>
         (((d.tick.wr Reg.CXP_CTL_RDATA data).wrF Reg.CXP_CTL_STAT 17 8 code).publish Reg.CXP_CTL_STAT).wr Reg.CXP_CTL_GO 0
       let open_ := (Config.freeWord d.freeCtr).toNat
       (∀ res, d.rd Reg.CXP_CTL_GO = 0 → Does (.controlAccessDone res) s d) ∧
       (∀ code w, d.rd Reg.CXP_CTL_GO = 1 → Does (.controlAccessDone (some (code, w))) s (done code.toNat w.toNat)) ∧
       (∀ code w, 2 ≤ d.rd Reg.CXP_CTL_GO → Does (.controlAccessDone (some (code, w))) s (done code.toNat open_)) ∧
       (d.rd Reg.CXP_CTL_GO ≠ 0 → Does (.controlAccessDone none) s (done 0xFF open_)))) ∧
  (∀ (s : State) (c : Fin 2), s.dev.halted = false →
     let d := s.dev
     let off := d.camEn c = false ∨ d.role = 2
     let d0 := if d.streaming c = true then
         (d.send (.camControl c true (d.cf (Reg.CXP_CAM_STOP_ADDR c)) (d.cf (Reg.CXP_CAM_STOP_VAL c)))).stopAcq c false
       else d
     (∀ f, off → Does (.cameraBringup c f) s d) ∧
     (¬off → Does (.cameraBringup c .none) s (d0.camDown c)) ∧
     (¬off → Does (.cameraBringup c .wiring) s
       (((d0.wrBit Reg.CXP_STATUS c false).wrBit Reg.CXP_STATUS (4 + c) true).event 1 .camWiring (vals [(c : Nat)]))) ∧
     (∀ p, ¬off →
       let d1 := (d0.wrBit Reg.CXP_STATUS (4 + c) false).send
         (.camConnect c (d.camLinks c) (d.cfF (Reg.CXP_CAM_CFG c) 3 3) (min p 16384))
       let d2 := (d1.wrBit Reg.CXP_STATUS c true).send
         (.camControl c true (d.cf (Reg.CXP_CAM_ACQ_ADDR c)) (d.cf (Reg.CXP_CAM_ACQ_VAL c)))
       let x : CamSt := { d2.cs c with gTop := some (d2.gridIndex c), lastTrig := none, fresh := true, prev := none }
       Does (.cameraBringup c (.ok p)) s
         (((d2.setCs c x).wrBit Reg.CXP_STATUS (2 + c) true).bump (Reg.CXP_CAM_BRINGUP_COUNT c))) ∧
     (d.camUp c = true → Does (.camDown c) s
       (((if d.streaming c = true then d.stopAcq c true else d).wrBit Reg.CXP_STATUS c false).event 1 .camDown
         (vals [(c : Nat)]))) ∧
     (d.camUp c = false → Does (.camDown c) s d)) ∧
  (∀ (s : State) (c : Fin 2), s.dev.halted = false →
     let d := s.dev
     let x := d.cs c
     let g := d.gridIndex c
     let idle := d.streaming c = false ∨ d.lost = true ∨ ∃ t, x.gTop = some t ∧ g ≤ t
     let soon := ∃ t, x.lastTrig = some t ∧ (d.tc - t) * d.cf (Reg.CXP_CAM_RATE_MAX c) < 400000000
     let lt := d.tc + (pubI (((d.cf (Reg.CXP_CAM_TRIG_LAT c) : Nat) : Rat) * 2 / 5)).toNat
     let st : Stamp := ⟨g, d.xAt lt, lt⟩
     let next : Bool → CamSt := fun start => { x with
       gTop := some g, lastTrig := some d.tc, fresh := false, armed := x.armed && !start,
       trigs := if start = true then x.trigs ++ [{ id := x.nextTrig, stamps := [st] }] else
         addStamp (d.cf Reg.VPIPE_FRAME_LINES) st x.trigs,
       nextTrig := if start = true then x.nextTrig + 1 else x.nextTrig }
     (idle → Does (.cameraLineTrigger c) s d) ∧
     (¬idle → soon → Does (.cameraLineTrigger c) s
       ((d.setCs c { x with gTop := some g, trigs := addSkip x.trigs }).bump (Reg.CXP_CAM_TRIG_SKIP c))) ∧
     (¬idle → ¬soon → Does (.cameraLineTrigger c) s
       ((d.setCs c (next (d.frameStarts c x))).send (.camTrigger c (d.frameStarts c x) g lt))) ∧
     (∀ item, d.streaming c = false → Does (.cameraLine c item) s d) ∧
     (∀ w ok, d.streaming c = true →
       Does (.cameraLine c (.header w ok)) s ((d.closeFrame c false).openFrame c (w == camPixels && ok))) ∧
     (∀ ss bad errs, d.streaming c = true →
       let samples := (ss.take 73728).map BitVec.toNat ++ List.replicate (73728 - ss.length) 0
       let d1 := errs.foldl (fun acc (k : Fin 4) => acc.bump (Reg.CXP_CAM_LINK_CRC_ERR c k)) d
       ((d1.cs c).frame = none → Does (.cameraLine c (.line ss bad errs)) s d1) ∧
       (∀ f, (d1.cs c).frame = some f →
         Does (.cameraLine c (.line ss bad errs)) s (d1.lineIn13 c f samples bad))) ∧
     Does (.frameCloseTimeout c) s (d.closeFrame c false) ∧
     ((d.cs 0).queue.length < (d.cs 1).queue.length → Does .visionLine s (d.takeLine 1)) ∧
     ((d.cs 1).queue.length ≤ (d.cs 0).queue.length → Does .visionLine s (d.takeLine 0)))

/-- FRAME_READ writes the archived frame whose number is asked, raw or compressed, and refuses one that is gone; STATS_READ writes
whole records from the number asked upward, as many as fit (R120, R350, R351). -/
def Obligations.FramesAndStatisticsAreRead : Prop :=
  (∀ (s : State) (q : Fin 16) (dma : Dma) (o : Out) (d : Dev), s.dev.Starts q 0x0220 o d →
    let c := byteAt o.entry 8
    let archived : Nat → List Byte → Prop := fun k bs => ∃ n,
      (d.cs c).slots.find? (fun z => (z.2.map (fun y => y.1 % 0x100000000)) == some (numAt o.entry 12 4)) = some (k, some (n, bs))
    ((∀ k bs, ¬archived k bs) → Does (.frameRead q dma) s
      ((d.complete o (if c ≤ 1 then FRAME_GONE else OUT_OF_RANGE) 0 []).drain q)) ∧
    (∀ k bs els, archived k bs → d.buffer o.entry dma = .ok els → dataErr dma = none →
      (bitOf (byteAt o.entry 16) 0 = false → Does (.frameRead q dma) s
        (((d.scatter els (bs.take (bufTotal els))).complete o OK (bs.take (bufTotal els)).length []).drain q)) ∧
      (bitOf (byteAt o.entry 16) 0 = true → d.rd Reg.DFL_CMP_OK = 0 → Does (.frameRead q dma) s
        ((d.complete o LANE_FAULT 0 []).drain q)) ∧
      (bitOf (byteAt o.entry 16) 0 = true → d.rd Reg.DFL_CMP_OK ≠ 0 →
        let w : CmpJob := { use := 3, input := bs, verify := d.cfB Reg.DFL_CMP_CTRL 3, out := some o, item := 16 * c + k, els := els }
        Does (.frameRead q dma) s ((d.addStream w).drain q)))) ∧
  (∀ (s : State) (q : Fin 16) (dma : Dma) (o : Out) (d : Dev), s.dev.Starts q 0x0221 o d →
    let c := byteAt o.entry 8
    let first := numAt o.entry 12 4
    let count := numAt o.entry 16 2
    let ring := (d.cs c).ring
    let bad := 1 < c ∨ count = 0 ∨ 1024 < count
    let gone := ring ≠ [] ∧ ∀ r ∈ ring, first < r.1
    (bad → Does (.statsRead q dma) s ((d.complete o OUT_OF_RANGE 0 []).drain q)) ∧
    (¬bad → gone → Does (.statsRead q dma) s ((d.complete o FRAME_GONE 0 []).drain q)) ∧
    (∀ els, ¬bad → ¬gone → d.buffer o.entry dma = .ok els → dataErr dma = none →
      let sel := ((ring.filter (fun r => decide (first ≤ r.1))).take count).map Prod.snd
      let bs := ((sel.take (bufTotal els / 2880)).flatten).take (bufTotal els)
      Does (.statsRead q dma) s (((d.scatter els bs).complete o OK (bs.length / 2880) []).drain q)))

/-- In SERVICE, outside a STANDBY, a colour cycle and a register cycle each run once local time has reached a multiple of their
period that has not been served; they take the frames since the last one, count themselves and run every bar in turn; else
nothing happens. LOOP_CTRL switches a loop of the bars named, and refuses a bar that is not enabled and a first start of the
colour loop where a tone record waits (R354-R367, R376). A correction never leaves its limits: within the dead band the variable
stays; outside it moves against the error by at most the rate limit, and lands within the limit (R360, R367). -/
def Obligations.LoopsCorrectWithinLimits : Prop :=
  ((∀ s : State, s.dev.halted = false →
     let d := s.dev
     let start := d.rd64 Reg.NVM_LOG_NEXT_LO
     let pc := usLocal (d.cf Reg.LOOP_COL_CYCLE)
     let pr := usLocal (d.cf Reg.LOOP_REG_CYCLE)
     let off : Nat → Prop := fun n => d.inService = false ∨ d.role = 2 ∨ d.feat n = false
     let offC := off 35 ∨ pc = 0 ∨ d.localNow / pc * pc < d.loop.colServed
     let offR := off 36 ∨ pr = 0 ∨ d.localNow / pr * pr < d.loop.regServed
     (offC → Does .colourCycle s d) ∧
     (¬offC → Does .colourCycle s ((List.range 8).foldl (fun x b => x.colourBar (d.framesFrom d.loop.colFrom) b)
       (({ d with loop := { d.loop with colFrom := start, colServed := d.localNow / pc * pc + 1 } } : Dev).bump Reg.LOOP_COL_CYCLES))) ∧
     (offR → Does .registerCycle s d) ∧
     (¬offR → Does .registerCycle s ((List.range 8).foldl
       (fun x b => x.registerBar (d.framesFrom d.loop.regFrom) (d.cfF Reg.LOOP_REG_CFG 0 3) b)
       (({ d with loop := { d.loop with regFrom := start, regServed := d.localNow / pr * pr + 1 } } : Dev).bump Reg.LOOP_REG_CYCLES))) ∧
     (∀ b : Fin 8,
       (mapGet none d.loop.ramps b = none → Does (.rampStep b) s d) ∧
       (∀ r, mapGet none d.loop.ramps b = some r →
         let waits := d.role = 2 ∨ (r.seq ≠ 0 ∧ ∃ p ∈ d.job.commits, p.cp.seq = r.seq)
         let taken := r.seq ≠ 0 ∧ d.activeBank b 1 0 = r.bank
         let d1 := (d.takeStep b r.k r).wrF (Reg.LOOP_BAR_RAMP b) 1 7 r.k
         (waits → Does (.rampStep b) s d) ∧
         (¬waits → ¬taken → r.stop = true → Does (.rampStep b) s (d.setRamp b none)) ∧
         (¬waits → ¬taken → r.stop = false → Does (.rampStep b) s (d.postStep b 0 r)) ∧
         (¬waits → taken → r.k = r.steps ∨ r.stop = true → Does (.rampStep b) s (d1.endRamp b r)) ∧
         (¬waits → taken → r.k ≠ r.steps → r.stop = false →
           Does (.rampStep b) s (d1.postStep b (r.line + r.dist) { r with k := r.k + 1 }))))) ∧
   (∀ (s : State) (q : Fin 16) (o : Out) (d : Dev), s.dev.Runs q 0x0370 ⟨[], [], none⟩ o d →
     let loop := byteAt o.entry 8
     let action := byteAt o.entry 9
     let bars := if byteAt o.entry 10 = 0xFF then d.enBars else [byteAt o.entry 10]
     let bad := ∃ b ∈ bars, 8 ≤ b ∨ d.barEn b = false
     let locked := loop = 0 ∧ action = 1 ∧ ∃ b ∈ bars, (∃ p ∈ d.pendOn b, p.cp.kind = 1) ∨ d.toneLoads b = true
     let d1 := bars.foldl (fun x b => if loop = 0 then x.switchColour action b else x.setLoopState 1 b action) d
     (bad → Does (.loopCtrl q) s ((d.complete o OUT_OF_RANGE 0 []).drain q)) ∧
     (¬bad → locked → Does (.loopCtrl q) s ((d.complete o TABLE_LOCKED 0 []).drain q)) ∧
     (¬bad → ¬locked → Does (.loopCtrl q) s ((d1.complete o OK 0 []).drain q)))) ∧
  (∀ (d : Dev) (old : Int) (e : Rat),
     let dead : Rat := ((d.cfF Reg.LOOP_COL_DEADBAND 0 16 : Nat) : Rat) / 100
     let rate : Int := ((d.cfF Reg.LOOP_COL_RATE 0 11 : Nat) : Int)
     let lim : Int := ((d.cfF Reg.LOOP_COL_RATE 16 12 : Nat) : Int)
     let new := (d.colourNew old e).1
     (-dead ≤ e → e ≤ dead → d.colourNew old e = (old, false)) ∧
     (e < -dead ∨ dead < e → -lim ≤ new ∧ new ≤ lim) ∧
     (-lim ≤ old → old ≤ lim → -rate ≤ new - old ∧ new - old ≤ rate) ∧
     (-lim ≤ old → old ≤ lim → (0 ≤ e → new ≤ old) ∧ (e ≤ 0 → old ≤ new)))

/-! ## Time, triggers and the network (R373-R393) -/

/-- A write of 1 to TIME_CTRL.SNAPSHOT captures the counter and the local time of one edge, as seconds, nanoseconds and fraction;
TIME_SNAP_SEQ goes on by 1 and SNAPSHOT clears (R377). -/
def Obligations.SnapshotsCaptureOneEdge : Prop :=
  ∀ s : State, s.dev.answers →
    let d := s.dev.dozeExit
    let n := d.localNow
    let d1 := ((d.wr64 Reg.TIME_SNAP_CNT_LO d.tc).wr64 Reg.TIME_SNAP_SEC_LO (n / oneSec)).wr Reg.TIME_SNAP_NS
      (n / 65536 % 1000000000)
    let d2 := (d1.wr Reg.TIME_SNAP_FRAC
      (n % 65536 + (d1.rdF Reg.TIME_SNAP_FRAC 16 16 + 1) % 65536 * 65536)).wrBit Reg.TIME_CTRL 0 false
    Does .timeSnapshot s d2 ∧ d2.bit Reg.TIME_CTRL 0 = false ∧ d2.rd64 Reg.TIME_SNAP_CNT_LO = d.tc % 2 ^ 64 ∧
    d2.rd64 Reg.TIME_SNAP_SEC_LO = n / oneSec % 2 ^ 64 ∧ d2.rd Reg.TIME_SNAP_NS = n / 65536 % 1000000000 ∧
    d2.rdF Reg.TIME_SNAP_FRAC 0 16 = n % 65536 ∧
    d2.rdF Reg.TIME_SNAP_FRAC 16 16 = (d.rdF Reg.TIME_SNAP_FRAC 16 16 + 1) % 65536

/-- A pulse of 100 ns and more latches the counter, counts, and updates the servo when PPS is its source; the output rises at a
whole second it has not marked, and falls (R391, R392). An update reaches the servo only from the source in force; a loss of
updates or of the master puts a running servo into HOLDOVER; TIME_STEP waits for the next update, has no meaning without a
source, and ends out of range when none comes (R378-R382). Stepping or slewing keeps local time continuous: moving the base
leaves the present local time as it was plus the step, and from then on it runs at the new rate (R374, R375). -/
def Obligations.LocalTimeFollowsItsSource : Prop :=
  (∀ s : State, s.dev.halted = false →
     let d := s.dev
     let d1 := (d.wr64 Reg.TIME_PPS_IN_CNT_LO d.tc).wr Reg.TIME_PPS_IN_SEQ (d.rd Reg.TIME_PPS_IN_SEQ + 1)
     let n := d1.localNow % oneSec
     let sec := d.localNow / oneSec
     let due := d.cfB Reg.TIME_PPS_OUT 10 = true ∧ d.bit Reg.TIME_STATUS 4 = true ∧
       (d.cfB Reg.TIME_PPS_OUT 11 = false ∨ d.servoState = 2 ∨ d.servoState = 3) ∧
       (∀ k, d.time.ppsLast = some k → k < sec) ∧ d.fieldDriven = true ∧ d.role ≠ 2
     (∀ w, w < 100 → Does (.ppsIn w) s d) ∧
     (∀ w, 100 ≤ w → d.cfF Reg.TIME_CFG 0 2 = 2 →
       Does (.ppsIn w) s (d1.update (if 2 * n ≤ oneSec then (n : Int) else (n : Int) - (oneSec : Int)) 1)) ∧
     (∀ w, 100 ≤ w → d.cfF Reg.TIME_CFG 0 2 ≠ 2 → Does (.ppsIn w) s d1) ∧
     (due → Does .ppsOut s
       (({ d with time := { d.time with ppsHigh := true, ppsLast := some sec } } : Dev).send (.pin "PPS_OUT" 0 1))) ∧
     (¬due → Does .ppsOut s d) ∧
     (d.time.ppsHigh = true → Does .ppsOutFall s
       (({ d with time := { d.time with ppsHigh := false } } : Dev).send (.pin "PPS_OUT" 0 0))) ∧
     (d.time.ppsHigh = false → Does .ppsOutFall s d)) ∧
  ((∀ s : State, s.dev.halted = false →
     let d := s.dev
     let src := d.cfF Reg.TIME_CFG 0 2
     let live := (src = 1 ∧ d.feat 37 = true) ∨ src = 2 ∨ (src = 3 ∧ d.role = 2)
     (∀ th tau,
       (live → Does (.servoUpdate th tau) s (d.update th (((max 1 tau : Nat) : Rat) / 1000000000))) ∧
       (¬live → Does (.servoUpdate th tau) s d)) ∧
     Does (.timeHoldover 0) s (d.toHoldover false) ∧
     (src = 1 → Does (.timeHoldover 1) s (d.toHoldover true)) ∧ (src ≠ 1 → Does (.timeHoldover 1) s d) ∧
     (src = 3 → d.role ≠ 2 → Does (.timeHoldover 2) s (d.toHoldover false)) ∧
     (src ≠ 3 ∨ d.role = 2 → Does (.timeHoldover 2) s d) ∧
     (d.bit Reg.TIME_STATUS 5 = true → Does .timeStepTimeout s ((d.wrBit Reg.TIME_STATUS 5 false).completeWhere
       (fun o => entOpcode o.entry == 0x0330) OUT_OF_RANGE (fun _ => 0))) ∧
     (d.bit Reg.TIME_STATUS 5 = false → Does .timeStepTimeout s d)) ∧
   (∀ (s : State) (q : Fin 16) (o : Out) (d : Dev), s.dev.Starts q 0x0330 o d →
     (d.cfF Reg.TIME_CFG 0 2 = 0 → Does (.timeStep q) s ((d.complete o OUT_OF_RANGE 0 []).drain q)) ∧
     (d.cfF Reg.TIME_CFG 0 2 ≠ 0 → Does (.timeStep q) s (((d.wrBit Reg.TIME_STATUS 5 true).keep o).drain q)))) ∧
  (∀ (d : Dev) (step rate : Int), 0 ≤ d.localAt d.tc + step → -2147483648 ≤ rate → rate < 2147483648 →
     let d1 := d.rebase step rate
     d1.localAt d1.tc = d.localAt d.tc + step ∧ d1.tc = d.tc ∧ d1.rdS Reg.TIME_RATE = rate ∧
     ∀ a, a ≠ Reg.TIME_RATE → d1.rd a = d.rd a)

/-- The units named by a write are armed, one whose target has been reached firing at once as LATE, or made IDLE; a unit that is
armed and whose target is reached fires, serves its consumers, and is done or advances past the present (R388-R390). -/
def Obligations.TriggerUnitsFireAndAdvance : Prop :=
  (∀ (s : State) (v : Word), s.dev.answers →
    Does (.trigArm v) s ((bitsOf 16 v.toNat).foldl (fun x u => x.armUnit u) s.dev.dozeExit) ∧
    Does (.trigDisarm v) s
      ((bitsOf 16 v.toNat).foldl (fun x u => x.wrF (Reg.TIME_TRIG_STATUS u) 0 2 0) s.dev.dozeExit)) ∧
  (∀ (d : Dev) (u : Nat),
    let d0 := ({ d with time := { d.time with fired := mapErase u d.time.fired } } : Dev).wrF (Reg.TIME_TRIG_STATUS u) 0 2 1
    (d0.localNow < d0.trigTarget u → d.armUnit u = d0) ∧
    (d0.trigTarget u ≤ d0.localNow → d.armUnit u = (d0.wrBit (Reg.TIME_TRIG_STATUS u) 2 true).fireUnit u) ∧
    (d.trigState u ≠ 1 ∨ d.localNow < d.trigTarget u → d.fireUnit u = d) ∧
    (d.trigState u = 1 → d.trigTarget u ≤ d.localNow →
      let n := mapGet 0 d.time.fired u + 1
      let d1 := (({ d with time := { d.time with fired := mapSet 0 d.time.fired u n } } : Dev).bump
        (Reg.TIME_TRIG_FIRE_COUNT u)).trigConsumers u
      let per := d.rd (Reg.TIME_TRIG_PERIOD u) * (if d.bit (Reg.TIME_TRIG_CFG u) 0 = true then 1000 else 1) * 65536
      let cnt := d.rd (Reg.TIME_TRIG_COUNT u)
      (per = 0 ∨ (0 < cnt ∧ cnt ≤ n) → d.fireUnit u = d1.wrF (Reg.TIME_TRIG_STATUS u) 0 2 2) ∧
      (per ≠ 0 → cnt = 0 ∨ n < cnt →
        let passed := (d.localNow - d.trigTarget u) / per
        d.fireUnit u = (d1.setTarget u (d.trigTarget u + (passed + 1) * per)).wrF (Reg.TIME_TRIG_STATUS u) 16 16
          (satU 16 (d.rdF (Reg.TIME_TRIG_STATUS u) 16 16 + passed)) ∧
        d.localNow < d.trigTarget u + (passed + 1) * per)))

/-- A port's link comes up and goes down with its event, and loses its measurements when it goes; the oldest time stamp goes to the
message that waits for it, and one that finds no room is dropped and counted; a PTP message on a port with a link is counted as
taken, or discarded when PTP, its transport or its domain does not hold (R383-R387, R393). A complete Sync of the parent moves
the slave port on, asks for the path delay, and is an update by its path less the delay when PTP is the source; an answered
request gives half of the two-way time as the delay (R384, R385). -/
def Obligations.PortsCarryPtp : Prop :=
  (∀ (s : State) (p : Fin 2),
     (s.dev.halted = false →
       let d := s.dev
       let st := Reg.NET_PORT_STATUS p
       let x := d.np p
       let u := d.wrBit st 0 true
       let w := (d.wrBit st 0 false).setNp p { x with best := none, sync := none, ms := none, req := none, resp := none }
       (d.cfB (Reg.NET_PORT_CFG p) 0 = true → d.bit st 0 = false → Does (.netLinkUp p) s
         ((if u.ptpOn p = true then u.setPortPtp p 4 else u).event 2 .netLinkUp (vals [(p : Nat)]))) ∧
       (d.cfB (Reg.NET_PORT_CFG p) 0 = false ∨ d.bit st 0 = true → Does (.netLinkUp p) s d) ∧
       (d.bit st 0 = true → Does (.netLinkDown p) s
         ((if w.ptpOn p = true then w.setPortPtp p 2 else w).event 2 .netLinkDown (vals [(p : Nat)]))) ∧
       (d.bit st 0 = false → Does (.netLinkDown p) s d) ∧
       (16 ≤ x.tsq.length →
         let d1 := ((d.bump (Reg.NET_PORT_TSQ_DROP p)).bump (Reg.NET_PORT_TS_LOST p)).setNp p { x with req := none }
         (d1.bit (Reg.NET_PORT_TSQ_STATUS p) 5 = true → Does (.tsqOverflow p) s d1) ∧
         (d1.bit (Reg.NET_PORT_TSQ_STATUS p) 5 = false → Does (.tsqOverflow p) s
           ((d1.wrBit (Reg.NET_PORT_TSQ_STATUS p) 5 true).event 2 .tsqOverflow (vals [(p : Nat)])))) ∧
       (x.tsq.length < 16 → Does (.tsqOverflow p) s d) ∧
       (∀ h body,
         let bad := d.ptpOn p = false ∨ h.transportOk = false ∨ h.domain.toNat ≠ d.cfF Reg.NET_CFG 8 8 ∨ body = .other
         (d.bit st 0 = false → Does (.ptpMessage p h body) s d) ∧
         (d.bit st 0 = true → bad → Does (.ptpMessage p h body) s (d.bump (Reg.NET_PORT_RX_DISCARD p))) ∧
         (d.bit st 0 = true → ¬bad →
           Does (.ptpMessage p h body) s ((d.bump (Reg.NET_PORT_RX_COUNT p)).ptpBody p h body)))) ∧
     (s.dev.answers →
       let d := s.dev.dozeExit
       let x := d.np p
       (x.tsq = [] → Does (.tsqPop p) s d) ∧
       (∀ e rest, x.tsq = e :: rest → x.req = some (e.id, none) →
         Does (.tsqPop p) s (d.setNp p { x with tsq := rest, req := some (e.id, some e.time) })) ∧
       (∀ e rest, x.tsq = e :: rest → x.req ≠ some (e.id, none) → Does (.tsqPop p) s (d.setNp p { x with tsq := rest })))) ∧
  (∀ (d : Dev) (p : Fin 2) (h : PtpHead),
     let x := d.np p
     let slave := d.portPtp p = 8 ∨ d.portPtp p = 9
     (∀ a, slave → x.best = some (h.source.toNat, a) → ∀ origin li,
       d.ptpBody p h (.sync false origin li) = d.syncDone p ((origin : Int) + h.correction) (d.ingress p) li) ∧
     (∀ a, slave → x.best = some (h.source.toNat, a) → ∀ origin li,
       d.ptpBody p h (.sync true origin li) =
         d.setNp p { x with sync := some (h.source.toNat, h.seq.toNat, d.ingress p, h.correction, li) }) ∧
     (¬slave → ∀ two origin li, d.ptpBody p h (.sync two origin li) = d) ∧
     (∀ a t3 ms rx, slave → x.best = some (h.source.toNat, a) → h.requesting.toNat = d.portId p →
       d.cfB Reg.NET_CFG 3 = false → x.req = some (h.seq.toNat, some t3) → x.ms = some ms →
       d.ptpBody p h (.delayResp rx) =
         (d.setNp p { x with req := none }).setDelay p ((((ms + ((rx : Int) - h.correction - (t3 : Int))) : Int) : Rat) / 2)) ∧
     (d.cfB Reg.NET_CFG 3 = false → d.ptpBody p h .pdelayReq = d))

/-! ## Memory and the arbiter (R394-R414) -/

/-- A request of a live port for the codeword at its address joins that port's queue at its channel while fewer than eight wait,
wakes a rank in power-down and ends a self-refresh, and takes a grant opportunity that comes with it; one that finds no room, or
a port that is not alive, is not taken. A grant serves the oldest request of the port the arbiter decides on (R405-R409). The
arbiter never grants a port that is masked or drains, nor one with nothing to do: the owner of the current slot goes first when
it is an RT port, then the highest level that asks, its ports in turn (R408). -/
def Obligations.RequestsAreGrantedByTheArbiter : Prop :=
  (∀ (s : State) (c : Fin 4), s.dev.halted = false →
     let d := s.dev
     (∀ (p : Fin 32) (a : Nat) (w : Option (Nat × List Byte)) (opp : Bool),
       let full := d.portAlive p = false ∨ 8 ≤ ((d.chan c).queue p).length
       let a0 := a % 0x400000000 / 64 * 64
       let w0 := w.map (fun x => (x.1, x.2.take (64 - x.1)))
       let d1 := (d.wakeSr c).wakeRank c a0
       let x := d1.chan c
       let d2 := d1.setChan c { x with pend := mapSet [] x.pend p (x.queue p ++ [⟨p, a0, w0, none⟩]) }
       (full → Does (.memoryRequest c p a w opp) s d) ∧
       (¬full → opp = false → Does (.memoryRequest c p a w opp) s d2) ∧
       (¬full → opp = true → Does (.memoryRequest c p a w opp) s (d2.opGrant c))) ∧
     (let r := d.nextPort c
      let x := r.1.chan c
      (r.2 = none → Does (.arbiterGrant c) s r.1) ∧
      (∀ p, r.2 = some p → x.queue p = [] → Does (.arbiterGrant c) s r.1) ∧
      (∀ p q qs, r.2 = some p → x.queue p = q :: qs →
        Does (.arbiterGrant c) s ((r.1.setChan c { x with pend := mapSet [] x.pend p qs }).serve c q)))) ∧
  (∀ (d : Dev) (x : ChanSt) (p : Nat),
     (d.slotOwner x = some p → d.portOpen p = true ∧ d.portRt p = true ∧ x.queue p ≠ [] ∧ byteAt x.table x.slot % 32 = p) ∧
     (d.prioOwner x = some p → p < 32 ∧ d.portOpen p = true ∧ x.queue p ≠ [] ∧
       ∀ q < 32, d.portOpen q = true → x.queue q ≠ [] → d.portPrio q ≤ d.portPrio p) ∧
     (d.prioOwner x = none → ∀ q < 32, d.portOpen q = true → x.queue q = []))

/-- A granted read decodes the stored word as the burst delivers it: a good word answers it, or merges into a partial write; an
uncorrectable one goes to the second copy, or answers poisoned. An idle channel's scrub reads the next codeword (R397-R401). A
channel fails once, with its cause shown and reported, its strips lost, the submissions in transfer failed and the placement
due; an alert replays the retry buffer, and the third replay in a row that meets one fails the channel; a failed calibration
does; a good one keeps its taps (R402-R404). A rank with nothing queued enters power-down when that is configured, an idle
channel that has been asked enters self-refresh; a rebuilt system region loses its degraded mark; a port that is masked loses
its queues and is reported once; a swap of the slot table is asked for outside SERVICE only (R397, R405, R406, R411-R413). -/
def Obligations.ChannelsDecodeFailAndRest : Prop :=
  (∀ (s : State) (c : Fin 4) (err : List (Fin 40 × BitVec 16)), s.dev.halted = false →
     let d := s.dev
     let x := d.chan c
     (x.reads = [] → Does (.dramRead c err) s d) ∧
     (∀ r rs, x.reads = r :: rs →
       let res := (d.setChan c { x with reads := rs }).readWord c r.addr r.port err
       (res.2.2 = true → Does (.dramRead c err) s (res.1.readGood c r res.2.1)) ∧
       (res.2.2 = false → Does (.dramRead c err) s (res.1.readBad c r res.2.1))) ∧
     (let may := d.chanOk c = true ∧ d.chanIdle c = true ∧ d.bit (Reg.MEMC_CH_STATUS c) 2 = false
      (may → Does (.patrolScrub c err) s
        ((d.setChan c { x with scrub := (x.scrub + 1) % 0x10000000 }).readWord c (64 * x.scrub) 0xFF err).1) ∧
      (¬may → Does (.patrolScrub c err) s d))) ∧
  (∀ (s : State) (c : Fin 4), s.dev.halted = false →
     let d := s.dev
     let x := d.chan c
     let ok := d.chanOk c
     (∀ cause : Fin 4, ok = false → Does (.dramChannelFailed c cause) s d) ∧
     (∀ cause : Fin 4, ok = true →
       let d1 := (d.wrF (Reg.MEMC_CH_STATUS c) 13 3 (cause + 1)).wrBit (Reg.MEMC_CH_STATUS c) 0 false
       let d2 := ((d1.wrBit Reg.MEMC_STATUS c false).wrBit Reg.PLACE_CH_OK c false).wrBit Reg.MEMC_STATUS 4 true
       let d3 := d2.event 1 .dramChannelFailed (vals [(c : Nat), cause + 1])
       let d4 : Dev := { d3 with job := { d3.job with replanDue := Nat.lor d3.job.replanDue 2 } }
       let d5 := ((d4.strip.planes.map Prod.fst).foldl (fun y k => y.loseStrips (k / 8) (k % 8)) d4).failTransfers.resizeWindows.kickAll
       Does (.dramChannelFailed c cause) s (d5.completeWhere
         (fun o => entOpcode o.entry == 0x0360 && (byteAt o.entry 8 == 4 || byteAt o.entry 8 == 5) && numAt o.entry 12 4 == c)
         DRAM_FAULT (fun _ => 0))) ∧
     (∀ again : Bool, ok = false → Does (.caparAlert c again) s d) ∧
     (∀ again : Bool, ok = true →
       let n := if again = true then x.alertRun + 1 else 0
       let d1 := (d.setChan c { x with alertRun := n }).bump (Reg.MEMC_CH_CAPAR_COUNT c)
       (3 ≤ n → Does (.caparAlert c again) s (d1.chanFail c 2)) ∧
       (n < 3 → Does (.caparAlert c again) s (x.retry.reverse.foldl (fun y e => y.send (.memCmd c e.1 e.2)) d1))) ∧
     (∀ good : Bool, ok = false → Does (.zqCalibration c good) s d ∧ ∀ drift, Does (.dqsCorrection c drift good) s d) ∧
     (ok = true → Does (.zqCalibration c false) s (d.chanFail c 1) ∧ ∀ drift, Does (.dqsCorrection c drift false) s (d.chanFail c 1)) ∧
     (ok = true →
       Does (.zqCalibration c true) s (d.setChan c { x with taps := x.taps + 0 }) ∧
       ∀ drift : Int,
         let d1 := d.setChan c { x with taps := x.taps + drift }
         (drift.natAbs < 2 → Does (.dqsCorrection c drift true) s d1) ∧
         (2 ≤ drift.natAbs → Does (.dqsCorrection c drift true) s
           { d1 with hlth := { d1.hlth with drifted := putFld d1.hlth.drifted c 1 1 } }))) ∧
  (∀ s : State,
     (s.dev.halted = false →
       let d := s.dev
       (∀ (c : Fin 4) (r : Fin 2),
         let x := d.chan c
         let busy := d.cf Reg.MEMC_PD_IDLE = 0 ∨ d.chanOk c = false ∨
           ∃ q ∈ x.reads ++ (x.pend.map Prod.snd).flatten, rankOf q.addr = r
         (busy → Does (.rankPowerDown c r) s d) ∧
         (¬busy → Does (.rankPowerDown c r) s (d.wrBit (Reg.MEMC_CH_STATUS c) (3 + r) true))) ∧
       (∀ c : Fin 4,
         let may := (d.chan c).srAsked = true ∧ d.chanIdle c = true ∧ d.chanOk c = true ∧ d.bit (Reg.MEMC_CH_STATUS c) 2 = false
         (may → Does (.selfRefreshEntry c) s ((d.wrBit (Reg.MEMC_CH_STATUS c) 2 true).keepCmd c 2 0)) ∧
         (¬may → Does (.selfRefreshEntry c) s d)) ∧
       (d.bit Reg.MEMC_STATUS 4 = false → Does .rebuildDone s d) ∧
       (d.bit Reg.MEMC_STATUS 4 = true → ∃ d1, Does .rebuildDone s d1 ∧ d1.bit Reg.MEMC_STATUS 4 = false ∧
         d1.mem.sysList = bitsOf 4 (d.rd Reg.PLACE_CH_OK) ∧ ∀ a, a ≠ Reg.MEMC_STATUS → d1.rd a = d.rd a) ∧
       (∀ p : Fin 32, d.portAlive p = false → Does (.arbPortMasked p) s d) ∧
       (∀ p : Fin 32, d.portAlive p = true → ∃ d1, Does (.arbPortMasked p) s d1 ∧ d1.portAlive p = false ∧
         (∀ q : Nat, q < 32 → q ≠ p → d1.portAlive q = d.portAlive q) ∧
         d1.rd (Reg.ARB_PORT_DISCARD_COUNT p) = min (d.rd (Reg.ARB_PORT_DISCARD_COUNT p) +
           ((List.range 4).map (fun c => ((d.chan c).queue p).length)).sum) 0xFFFFFFFF)) ∧
     (s.dev.answers →
       let d := s.dev.dozeExit
       (d.inService = true → Does .swap s (d.writeIgnored Reg.ARB_CTRL 1)) ∧
       (d.inService = false → d.bit Reg.ARB_STATUS 0 = true → Does .swap s d) ∧
       (d.inService = false → d.bit Reg.ARB_STATUS 0 = false → Does .swap s ((List.range 4).foldl
         (fun x c => x.setChan c { x.chan c with swapWait := true })
         ((d.wrBit Reg.ARB_STATUS 0 true).wrBit Reg.ARB_CTRL 0 true)))))

/-- The 64 data bytes of a codeword of 40 symbols are read back from it as they were encoded (R398). -/
def Obligations.CodewordsCarryTheirData : Prop :=
  ∀ bs : List Byte, bs.length = 64 → (rsEncode bs).length = 40 ∧ rsData (rsEncode bs) = bs ∧
    (∀ s ∈ (rsEncode bs).take 32, s < 2 ^ 16)

/-! ## The redundant pair (R415-R441) -/

/-- START in HOLD, with nothing in the way, enters SERVICE: alone without pair operation; as ACTIVE with the next epoch when no
partner lives, or it lives in HOLD and this module is preferred; as STANDBY out of step behind a partner with a role; else it
waits for the partner's. Each condition of R117 has its own status, in their order (R76, R117, R416, R417). Frames of the Shank
that are heard take effect in their order: HELLO, HEARTBEAT, COMMIT, DECISION, LOOP, LINE_CRC, CMD, JOB, RESIGN, DIAG, SYNC_REQ
and RELEASED act on the module that the frame leaves; a frame with a block error, another TYPE or a bad CRC is counted and no
more, and without pair operation or a lane of the Shank none is heard (R419-R431). A module with pair operation sends HELLO and
heartbeats, numbered; without it neither. 32 us without a heartbeat end the pair: the loss is reported, a STANDBY in step takes
over with the next epoch and one out of step enters HOLD; a command that waits too long for its partner's frame fails; a
mismatch that waits too long for DIAG resolves with no fault (R421-R434). -/
def Obligations.ThePairStartsAndTalks : Prop :=
  (∀ (s : State) (q : Fin 16) (o : Out) (d : Dev), s.dev.Runs q 0x0110 ⟨[], [], none⟩ o d →
     let key := matchKey o.entry (mapGet 0 d.pair.counts (countKey o.entry))
     let o1 : Out := { o with mkey := some (key, d.matchDigest o.entry ⟨[], [], none⟩) }
     let idle := d.startRefusal = none
     let lead := d.pair.partnerHold = false ∨ d.preferred = true
     (∀ st, d.startRefusal = some st → Does (.start q) s ((d.complete o st 0 []).drain q)) ∧
     (idle → d.pairOn = false → Does (.start q) s (((d.startAs 0 0).complete o OK 0 []).drain q)) ∧
     (idle → d.pairOn = true → d.partnerAlive = false → Does (.start q) s ((d.startActive o1).drain q)) ∧
     (idle → d.pairOn = true → d.partnerAlive = true → d.partnerRole ≠ 0 → (∀ f ∈ d.pair.kept, ¬(f.key = key ∧ f.status = 0)) →
       (d.formed = true → Does (.start q) s ((((d.startAs 2 2).startResync).complete o OK 0 []).drain q)) ∧
       (d.formed = false → Does (.start q) s ((d.complete o PAIR_MISMATCH 0 []).drain q))) ∧
     (∀ f, idle → d.pairOn = true → d.partnerAlive = true → d.partnerRole ≠ 0 →
       d.pair.kept.find? (fun f => f.key == key && f.status == 0) = some f →
       let d1 : Dev := { d with pair := { d.pair with kept := d.pair.kept.filter (fun g => g.key != key) } }
       Does (.start q) s ((d1.startResolve o1 f).drain q)) ∧
     (idle → d.pairOn = true → d.partnerAlive = true → d.partnerRole = 0 → lead → Does (.start q) s ((d.startActive o1).drain q)) ∧
     (idle → d.pairOn = true → d.partnerAlive = true → d.partnerRole = 0 → ¬lead → Does (.start q) s
       (({ d with pair := { d.pair with startWait := some o1 } } : Dev).drain q))) ∧
  (∀ (s : State) (f : List Blk) (body : List Byte) (d : Dev), s.dev.halted = false →
     let role := d.role
     (s.dev.Shank 1 f d body → Does (.hello f) s (d.helloFrame body)) ∧
     (s.dev.hears 2 f →
       Does (.heartbeat f) s (s.dev.hbFrame (epochOf f) (bodyOf f))) ∧
     (s.dev.pairOn = false ∨ s.dev.shankUp = false → Does (.heartbeat f) s s.dev) ∧
     (s.dev.pairOn = true → s.dev.shankUp = true →
       deframe f = none ∨ (∃ ty bs, deframe f = some (ty, bs) ∧ (ty ≠ 0x10 ∨ shankCrcOk bs = false)) →
       Does (.heartbeat f) s (s.dev.bump Reg.PAIR_SHANK_CRC_COUNT)) ∧
     (s.dev.Shank 3 f d body → Does (.commit f) s (d.commitFrame body)) ∧
     (s.dev.Shank 4 f d body → Does (.decision f) s (d.decisionFrame body)) ∧
     (s.dev.Shank 5 f d body →
       (role = 2 → Does (.loop f) s { d with pair := { d.pair with
         loops := d.pair.loops ++ [(byteAt body 0, byteAt body 1, numAt body 4 4, body.drop 8)] } }) ∧
       (role ≠ 2 → Does (.loop f) s d)) ∧
     (s.dev.Shank 6 f d body →
       let b := byteAt body 8
       let mine := role = 2 ∧ b < 8 ∧ d.syncing b = false
       let new := (List.range 16).map (fun i => (numAt body 0 8 + i, numAt body (16 + 4 * i) 4))
       (mine → Does (.lineCrc f) s (({ d with pair := { d.pair with
         theirs := mapSet [] d.pair.theirs b (mapGet [] d.pair.theirs b ++ new) } } : Dev).compareLines b)) ∧
       (¬mine → Does (.lineCrc f) s d)) ∧
     (s.dev.Shank 7 f d body → Does (.cmd f) s (d.cmdFrame body) ∧ (role = 1 → d.cmdFrame body = d)) ∧
     (s.dev.Shank 8 f d body →
       let id := numAt body 0 4
       let x : Rat := ((sgn 64 (numAt body 8 8) : Int) : Rat) - d.deltaX
       (role ≠ 2 → Does (.job f) s d) ∧
       (∀ j, role = 2 → d.findJob id = some j → j.active = true → Does (.job f) s (d.setOrigin id x false)) ∧
       (role = 2 → (∀ j, d.findJob id = some j → j.active = false) → Does (.job f) s
         { d with pair := { d.pair with jobX := mapInsert id x (mapErase id d.pair.jobX) } })) ∧
     (s.dev.Shank 0xA f d body →
       (role = 2 → d.stepState ≠ 2 → Does (.resign f) s (d.becomeActive 3 d.nextEpoch)) ∧
       (role ≠ 2 ∨ d.stepState = 2 → Does (.resign f) s d)) ∧
     (s.dev.Shank 0xB f d body →
       (role = 0 → Does (.diag f) s d) ∧
       (∀ m, role ≠ 0 → d.pair.mismatch = some m → Does (.diag f) s (d.resolveMismatch m (byteAt body 9 == 1)))) ∧
     (s.dev.Shank 0xC f d body →
       (role ≠ 1 → Does (.syncReq f) s d) ∧
       (role = 1 → byteAt body 0 = 1 → Does (.syncReq f) s d.serveResync) ∧
       (role = 1 → byteAt body 0 = 2 →
         Does (.syncReq f) s ({ d with pair := { d.pair with takeback := true } } : Dev).tryTakeback) ∧
       (role = 1 → byteAt body 0 ≠ 1 → byteAt body 0 ≠ 2 → Does (.syncReq f) s d)) ∧
     (s.dev.Shank 0xD f d body →
       let due := role = 2 ∧ (d.takeoverPending = true ∨ d.pair.master ≠ 0)
       (due → Does (.released f) s (d.becomeActive 4 (d.rd Reg.PAIR_EPOCH + 1))) ∧
       (¬due → Does (.released f) s d)) ∧
     (s.dev.hears 9 f →
       let r := (s.dev.seeEpoch (epochOf f)).shankSeq (seqOf f)
       (r.2 = true → Does (.state f) s (r.1.stateFrame (bitOf (byteAt (bytesOf f) 1) 0) (bodyOf f))) ∧
       (r.2 = false → Does (.state f) s r.1))) ∧
  (∀ s : State, s.dev.halted = false →
     let d := s.dev
     let turn := if d.pair.helloIn = true then (pubI (((5 * (d.tc - d.pair.echoAt) : Nat) : Rat) / 2)).toNat else 0
     let p : PairSt := { d.pair with hbLast := none, rxSeq := 0, helloIn := false, helloBoth := false, part := [] }
     let d1 := ((({ d with pair := p } : Dev).wrBit Reg.PAIR_STATUS 5 false).wrBit Reg.PAIR_STATUS 4 false).bumpBy
       Reg.PAIR_HB_MISS_COUNT 4
     let d2 := d1.event 2 .pairLoss (vals [d1.rd Reg.PAIR_EPOCH])
     (d.pairOn = true → Does .helloSend s (d.shank 1 (leBytes 1 d.slot ++ leBytes 1 (b2n d.preferred + 2 * b2n d.inHold) ++
       leBytes 2 (d.rdF Reg.PAIR_PIPE_COMPAT 0 16) ++ leBytes 4 d.cfgDigest ++ leBytes 4 (d.rd Reg.PAIR_EPOCH_MAX) ++ leBytes 4 0 ++
       leBytes 8 d.tc ++ leBytes 8 d.pair.echo ++ leBytes 4 turn ++ leBytes 4 0))) ∧
     (d.pairOn = false → Does .helloSend s d) ∧
     (d.pairOn = true → d.shankUp = true →
       ∃ d3, Does .heartbeatSend s d3 ∧ d3.pair.hbSeq = d.pair.hbSeq + 1 ∧ (∀ a, d3.rd a = d.rd a) ∧ d3.log = d.log) ∧
     (d.pairOn = false ∨ d.shankUp = false → Does .heartbeatSend s d) ∧
     (d.partnerAlive = false → Does .pairLoss s d) ∧
     (d.partnerAlive = true → d2.role = 2 → d2.stepState = 2 → Does .pairLoss s (d2.enterHold false id)) ∧
     (d.partnerAlive = true → d2.role = 2 → d2.stepState ≠ 2 → Does .pairLoss s (d2.becomeActive 2 d2.nextEpoch)) ∧
     (d.partnerAlive = true → d2.role = 1 → Does .pairLoss s d2.showRates) ∧
     (d.partnerAlive = true → d2.role ≠ 1 → d2.role ≠ 2 → Does .pairLoss s d2) ∧
     (∀ key o, d.pair.startWait = some o →
       (o.mkey.map Prod.fst = some key → Does (.cmdMatchTimeout key) s
         (({ d with pair := { d.pair with startWait := none } } : Dev).complete { o with mkey := none } OUT_OF_STEP 0 [])) ∧
       (o.mkey.map Prod.fst ≠ some key → Does (.cmdMatchTimeout key) s d)) ∧
     (∀ key w, d.pair.startWait = none → d.pair.waits.find? (fun w => w.key == key && !w.seen) = some w →
       Does (.cmdMatchTimeout key) s
         (({ d with pair := { d.pair with waits := d.pair.waits.filter (fun x => x.key != key) } } : Dev).matchFail w.out)) ∧
     (∀ key, d.pair.startWait = none → d.pair.waits.find? (fun w => w.key == key && !w.seen) = none →
       ((∃ f ∈ d.pair.kept, f.key = key) → Does (.cmdMatchTimeout key) s
         ((({ d with pair := { d.pair with kept := d.pair.kept.filter (fun f => f.key != key) } } : Dev).bump
           Reg.PAIR_CMD_MISMATCH_COUNT).outOfStep 4)) ∧
       ((∀ f ∈ d.pair.kept, f.key ≠ key) → Does (.cmdMatchTimeout key) s d)) ∧
     (d.pair.mismatch = none → Does .mismatchResolveTimeout s d) ∧
     (∀ m, d.pair.mismatch = some m → Does .mismatchResolveTimeout s (d.resolveMismatch m (m.other.getD false))))

/-- PAIR_CTRL: an ACTIVE resigns to a partner in step; a STANDBY resynchronises, asks for takeback when it is the preferred module
and in step, or leaves; an ACTIVE leaves when its partner is in step; every other case has its own status (R440). -/
def Obligations.PairControlActsByRole : Prop :=
  ∀ (s : State) (q : Fin 16) (o : Out) (d : Dev), s.dev.Starts q 0x0350 o d →
    let a := byteAt o.entry 8
    let ok : Dev → Dev := fun x => (x.complete o OK (x.rd Reg.PAIR_EPOCH) []).drain q
    let no : Nat → Dev := fun st => (d.complete o st 0 []).drain q
    let c := Instr.pairCtrl q
    (d.role = 0 → Does c s (no NOT_IN_PAIR)) ∧
    (a = 1 → d.role = 2 → Does c s (no NOT_ACTIVE)) ∧
    (a = 1 → d.role = 1 → d.partnerInStep = false → Does c s (no OUT_OF_STEP)) ∧
    (a = 1 → d.role = 1 → d.partnerInStep = true → Does c s (ok (d.resign 1 d.partnerStep))) ∧
    (a = 2 → d.role = 2 → Does c s (ok d.startResync)) ∧
    (a = 2 → d.role = 1 → Does c s (no NOT_IN_PAIR)) ∧
    (a = 3 → d.role ≠ 0 → ¬(d.role = 2 ∧ d.stepState = 0 ∧ d.preferred = true) → Does c s (no TAKEBACK_REFUSED)) ∧
    (a = 3 → d.role = 2 → d.stepState = 0 → d.preferred = true → Does c s (ok (d.shank 0xC (leBytes 8 2)))) ∧
    (a ≠ 1 → a ≠ 2 → a ≠ 3 → d.role = 2 → Does c s (ok (d.enterHold false id))) ∧
    (a ≠ 1 → a ≠ 2 → a ≠ 3 → d.role = 1 → d.partnerInStep = true → Does c s (ok (d.enterHold true id))) ∧
    (a ≠ 1 → a ≠ 2 → a ≠ 3 → d.role = 1 → d.partnerInStep = false → Does c s (no OUT_OF_STEP))

/-- EPOCH_MAX never falls by what is heard, and a claim takes a number above every one used or seen (R417). -/
def Obligations.EpochsOnlyGrow : Prop :=
  (∀ (d : Dev) (e : Nat), e < 2 ^ 32 → d.rd Reg.PAIR_EPOCH_MAX ≤ (d.seeEpoch e).rd Reg.PAIR_EPOCH_MAX ∧
    e ≤ (d.seeEpoch e).rd Reg.PAIR_EPOCH_MAX ∧ ∀ a, a ≠ Reg.PAIR_EPOCH_MAX → (d.seeEpoch e).rd a = d.rd a) ∧
  (∀ d : Dev, d.rd Reg.PAIR_EPOCH_MAX < d.nextEpoch)

/-! ## The safety partition, power and health (R442-R505) -/

/-- An evaluation samples the inputs, follows their discrepancy, reads the outputs back, begins SF1 when its condition begins, and
then the permits are exactly the conjunction of R447; a permit test pulses a channel that is on, and an output that does not
follow is a fault; a diagnostic, of which an MRAM fault leaves no stored copy valid, enters the safe state (R445-R448, R451,
R457). The web's speed in mm/min is shown; above the trip speed SF2 trips with the permits off, and it ends after 100 ms below
95 % of it. A head that stays too hot while nothing has stopped it inhibits its bar until eight reports are calm; a bar that
holds other duty parameters than the set in force is inhibited, once (R451-R455). SAFE_PROPOSE checks its 128 bytes for the two
CRCs, the key switch, the ranges and the key, in this order; each failure has its status and changes no set; a good set is
stored with the next sequence number, taken in force, and its CRC returned (R462-R464). -/
def Obligations.TheSafetyPartitionReacts : Prop :=
  ((∀ (s : State) (in1 in2 key rb1 rb2 : Bool), s.dev.halted = false →
     let d := s.dev
     let d1 := (((d.pulseSources).sampleIns in1 in2 key).discrepancy).readback rb1 rb2
     let d2 := ((d1.sf1Begin d.sf1).settlePermit).showTests
     Does (.safetyEvaluation in1 in2 key rb1 rb2) s { d2 with safe := { d2.safe with evals := d2.safe.evals + 1 } }) ∧
   (∀ (s : State) (k : Fin 2), s.dev.halted = false →
     let d := s.dev
     let may := d.bit Reg.SAFE_STATUS k = true ∧ d.bit Reg.SAFE_STATUS 3 = false ∧
       (d.bit Reg.SAFE_STATUS 8 = true ∨ d.anyActive = false ∧ 1 < d.rd Reg.SAFE_PT_AGE)
     let d1 := d.send (.pin "FIRE_PERMIT" (k + 1) 0)
     (¬may → ∀ ok, Does (.permitTest k ok) s d) ∧
     (may → Does (.permitTest k true) s
       (({ d1 with safe := { d1.safe with tested := mapSet 0 d1.safe.tested k d1.tc } } : Dev).send (.pin "FIRE_PERMIT" (k + 1) 1))) ∧
     (may → Does (.permitTest k false) s (d1.outputFault k))) ∧
   (∀ (s : State) (cause : Fin 5), s.dev.halted = false →
     let bit := 5 + cause.val
     let s0 : SafeSt := if bit = 8 then { s.dev.safe with copyA := none, copyB := none } else s.dev.safe
     let d1 := ({ s.dev with safe := s0 } : Dev).wrBit Reg.SAFE_FAULT bit true
     let d2 := (d1.setPermit false).wrF Reg.SAFE_BAR_INHIBIT 8 8 0xFF
     let d3 := ((d2.wrBit Reg.SAFE_STATUS 3 true).bump Reg.SAFE_DIAG_COUNT).append 3 .safeState (vals [bit])
     let d4 : Dev := { d3 with safe := { d3.safe with safeAt := some d3.tc, safeBit := bit, asked := false } }
     (d1.bit Reg.SAFE_STATUS 3 = true → Does (.safeState cause) s d1) ∧
     (d1.bit Reg.SAFE_STATUS 3 = false → Does (.safeState cause) s (d4.resign 2 1)))) ∧
  (∀ s : State, s.dev.halted = false →
     let d := s.dev
     (∀ edges : Nat,
       let v : Rat := ((edges * d.rd Reg.SAFE_SPD_SCALE * 60 : Nat) : Rat) / 16777216
       let trip : Rat := ((d.rd Reg.SAFE_SPEED_TRIP : Nat) : Rat)
       let d1 := d.wr Reg.SAFE_SPEED (satU 32 (pubI v).toNat)
       let from_ := if v < trip * 95 / 100 then some (d1.safe.slowFrom.getD d1.tc) else none
       let d2 : Dev := { d1 with safe := { d1.safe with slowFrom := from_ } }
       let d3 := (((d2.wrBit Reg.SAFE_STATUS 6 true).bump Reg.SAFE_TRIP_COUNT).append 3 .safeSpeedTrip
         (vals [d2.rd Reg.SAFE_SPEED])).setPermit false
       let tripped := d2.bit Reg.SAFE_STATUS 6
       (tripped = true → ∀ t, from_ = some t → t + 40000000 ≤ d2.tc →
         Does (.safeSpeedTrip edges) s (d2.wrBit Reg.SAFE_STATUS 6 false)) ∧
       (tripped = true → ∀ t, from_ = some t → d2.tc < t + 40000000 → Does (.safeSpeedTrip edges) s d2) ∧
       (tripped = true → from_ = none → Does (.safeSpeedTrip edges) s d2) ∧
       (tripped = false → v ≤ trip → Does (.safeSpeedTrip edges) s d2) ∧
       (tripped = false → trip < v → Does (.safeSpeedTrip edges) s
         (if d3.bit Reg.SAFE_STATUS 2 = true then d3 else (d3.wrBit Reg.SAFE_STATUS 2 true).append 3 .safeInhibit (vals [2])))) ∧
     (d.safe.copies = [] → Does .safeBarInhibit s d) ∧
     (∀ b ts loc rest, d.safe.copies = (b, ts, loc) :: rest →
       let heads := bitsOf 24 (d.present b)
       let isHot : Nat → Bool := fun h => decide (d.tStop + 32 ≤ ts.getD h 0)
       let failed := ∃ h ∈ heads, isHot h = true ∧ mapGet false d.safe.hot (24 * b + h) = true ∧
         d.bit (Reg.FIRE_BAR_STOPPED b) h = false ∧ bitOf loc h = false
       let hot := (List.range 24).foldl (fun m h => mapSet false m (24 * b + h) (heads.contains h && isHot h)) d.safe.hot
       let after : Nat → Dev := fun calm =>
         { d with safe := { d.safe with copies := rest, hot := hot, calm := mapSet 0 d.safe.calm b calm } }
       let n := mapGet 0 d.safe.calm b + 1
       (failed → d.bit Reg.SAFE_BAR_INHIBIT b = true → Does .safeBarInhibit s (after 0)) ∧
       (failed → d.bit Reg.SAFE_BAR_INHIBIT b = false → Does .safeBarInhibit s
         (((after 0).wrBit Reg.SAFE_BAR_INHIBIT b true).append 3 .safeBarInhibit (vals [b]))) ∧
       (¬failed → 8 ≤ n → Does .safeBarInhibit s ((after n).wrBit Reg.SAFE_BAR_INHIBIT b false)) ∧
       (¬failed → n < 8 → Does .safeBarInhibit s (after n))) ∧
     (∀ found, Does (.dutyParameterCheck found) s (found.foldl
       (fun x y => if y.2 = x.dutySet ∨ x.bit Reg.SAFE_BAR_INHIBIT (8 + y.1.val) = true then x
         else ((x.wrBit Reg.SAFE_BAR_INHIBIT (8 + y.1.val) true).append 3 .safeBarInhibit (vals [y.1.val])).resign 2 1) d))) ∧
  (∀ (s : State) (q : Fin 16) (dma : Dma) (o : Out) (d0 : Dev) (els : List (Nat × Nat)), s.dev.Starts q 0x0340 o d0 →
     let d := d0.wrBit Reg.SAFE_MBOX_STAT 16 false
     let b := dmaBytes dma (bufTotal els)
     let crc := crc32c b = numAt o.entry 12 4 ∧ crc32c (b.take 124) = numAt b 124 4
     let run := Does (.safePropose q dma true) s
     d.buffer o.entry dma = .ok els → dataErr dma = none →
     (Does (.safePropose q dma false) s ((d.complete o SAFE_TIMEOUT 0 []).drain q)) ∧
     (bufTotal els ≠ 128 → run ((d.refuseSet o OUT_OF_RANGE).drain q)) ∧
     (bufTotal els = 128 → ¬crc → run ((d.refuseSet o SAFE_CRC).drain q)) ∧
     (bufTotal els = 128 → crc → d.bit Reg.SAFE_INPUTS 2 = false → run ((d.refuseSet o SAFE_KEY_OPEN).drain q)) ∧
     (bufTotal els = 128 → crc → d.bit Reg.SAFE_INPUTS 2 = true → setRanges b = false ∨ d.keyedSet b = none →
       run ((d.refuseSet o SAFE_REJECTED).drain q)) ∧
     (∀ set, bufTotal els = 128 → crc → d.bit Reg.SAFE_INPUTS 2 = true → setRanges b = true → d.keyedSet b = some set →
       let r := d.storeSet set
       let d1 := (r.2.setInForce r.1 set).safeMailbox OK
       run ((d1.complete o OK (d1.rd Reg.SAFE_SET_CRC) []).drain q)))

/-- The permits are both on exactly while every condition of R447 holds, and the settled outputs show it; the safe state turns them
off and stays until a reset of the partition (R447, R452, R457). -/
def Obligations.PermitsFollowTheirConditions : Prop :=
  (∀ d : Dev, d.permitOk = true ↔ (d.inService = true ∧ d.bit Reg.SAFE_INPUTS 0 = true ∧ d.bit Reg.SAFE_INPUTS 1 = true ∧
    d.rdF Reg.SAFE_FAULT 0 3 = 0 ∧ d.bit Reg.SAFE_STATUS 5 = true ∧ d.bit Reg.SAFE_STATUS 3 = false ∧
    d.bit Reg.SAFE_STATUS 6 = false)) ∧
  (∀ d : Dev, d.settlePermit.bit Reg.SAFE_STATUS 0 = d.permitOk ∧ d.settlePermit.bit Reg.SAFE_STATUS 1 = d.permitOk) ∧
  (∀ (d : Dev) (k : Fin 10), d.bit Reg.SAFE_STATUS 3 = false →
    (d.safeEnter k).bit Reg.SAFE_STATUS 3 = true ∧ (d.safeEnter k).permitsOff ∧ (d.safeEnter k).bit Reg.SAFE_FAULT k = true)

/-- POWER_SET of a sleep state begins its entry in phase 1 while no job is active and none is in progress; RUN and READY are entered
at once; an agent that does not answer in its time, and a drain that does not end, abort; a write ends DOZE (R470-R476). A wake
of a source that is enabled and can be detected starts the domains from a sleep state, is counted while a wake runs, and is
latched on the way to one; the sequencer's window starts what its budget admits, and the last start ends the wake; a trigger
unit fires, and wakes when it is set to; the shelf's commands, at the slot's own address, work in every power state (R49,
R477-R483, R389, R390). -/
def Obligations.PowerStatesAreEnteredAndLeft : Prop :=
  ((∀ (s : State) (q : Fin 16) (o : Out) (d : Dev), s.dev.Starts q 0x0320 o d →
     let t := byteAt o.entry 8
     let c := Instr.powerSet q
     (2 ≤ t → d.anyActive = true → Does c s ((d.complete o JOB_ACTIVE 0 []).drain q)) ∧
     (t < 2 ∨ d.anyActive = false → d.entering = true → Does c s ((d.complete o SLEEP_ABORT 0 []).drain q)) ∧
     (t < 2 ∨ d.anyActive = false → d.entering = false → t = d.pState → Does c s ((d.complete o OK 0 []).drain q)) ∧
     (t < 2 → d.entering = false → t ≠ d.pState → Does c s (((d.wrF Reg.PWR_STATUS 0 3 t).complete o OK 0 []).drain q)) ∧
     (2 ≤ t → d.anyActive = false → d.entering = false → t ≠ d.pState →
       let d1 := d.keep o
       let p : PwrSt := { d1.pwr with target := t, shelf := false, latched := [] }
       Does c s (((({ d1 with pwr := p } : Dev).wrBit Reg.HEEL_STATUS 2 false).wrF Reg.PWR_STATUS 3 4 3).drain q))) ∧
   (∀ s : State, s.dev.halted = false →
     let d := s.dev
     Does .dozeExit s d.dozeExit ∧
     (∀ a : Fin 14,
       (d.entering = false → Does (.agentTimeout a) s d) ∧
       (d.entering = true → d.phase = 1 → Does (.agentTimeout a) s (d.refuseEntry (a + 1) true)) ∧
       (d.entering = true → d.phase ≠ 1 → d.pwr.agents.head? = some ((a : Nat) + 1) →
         Does (.agentTimeout a) s (d.abortEntry (a + 1) d.phase true)) ∧
       (d.entering = true → d.phase ≠ 1 → d.pwr.agents.head? ≠ some ((a : Nat) + 1) → Does (.agentTimeout a) s d)) ∧
     (d.entering = false ∨ d.phase ≠ 3 → Does .drainAbort s d) ∧
     (d.entering = true → d.phase = 3 → (∀ p, p < 29 → d.portDraining p = false) → Does .drainAbort s d) ∧
     (∀ p, p < 29 → d.entering = true → d.phase = 3 → d.portDraining p = true → (∀ r, r < 29 → r ≠ p → d.portDraining r = false) →
       let n := ((List.range 4).map (fun c => ((d.chan c).queue p).length)).sum
       let d1 := (List.range 4).foldl (fun x c => x.setChan c { x.chan c with pend := mapErase p (x.chan c).pend }) d
       (n = 0 → Does .drainAbort s d) ∧
       (n ≠ 0 → Does .drainAbort s
         ((((d1.bumpBy Reg.PWR_DRAIN_ABORT_COUNT n).append 4 .drainAbort (vals [p, n])).portDown p).wrBit Reg.ARB_DRAINING p false))))) ∧
  (∀ s : State,
     let d := s.dev
     (∀ (k : Fin 6) (u : Fin 16) (up : StartUp),
       let blind := (k.val = 2 ∧ ∀ c < 4, d.cfB (Reg.POS_ENC_CFG c) 0 = false) ∨ (k.val = 3 ∧ d.bit (Reg.TIME_TRIG_CFG u) 1 = false) ∨
         (k.val = 5 ∧ d.pwr.wakePin = true) ∨ bitOf d.wakeMask k = false ∨ d.pwr.stuck = true ∨ d.pwr.failing = true
       let sleeping := d.pState = 3 ∨ d.pState = 4
       let d1 := if d.pState = 4 ∧ up.badChannels ≠ 0 then d.stepDram up.badChannels.toNat else d
       (blind → Does (.wake k u up) s d) ∧
       (¬blind → d.pwr.waking ≠ none → Does (.wake k u up) s (d.bump Reg.HEEL_EXTRA_WAKES)) ∧
       (¬blind → d.pwr.waking = none → d.pState = 5 → k.val ≤ 1 → Does (.wake k u up) s (d.wakeFromOff (k + 1) u false up)) ∧
       (¬blind → d.pwr.waking = none → d.pState = 5 → 1 < k.val → Does (.wake k u up) s d) ∧
       (¬blind → d.pwr.waking = none → sleeping → Does (.wake k u up) s (d1.beginWake (k + 1) u false)) ∧
       (¬blind → d.pwr.waking = none → d.pState < 3 → d.entering = true → d.pwr.target ≠ 2 → Does (.wake k u up) s
         (({ d with pwr := { d.pwr with latched := d.pwr.latched ++ [((k : Nat) + 1, (u : Nat))] } } : Dev).wrBit
           Reg.HEEL_STATUS 2 true)) ∧
       (¬blind → d.pwr.waking = none → d.pState < 3 → d.entering = false ∨ d.pwr.target = 2 → Does (.wake k u up) s d)) ∧
     (let r := admitSteps (d.cf Reg.PWR_BUDGET) d.pwr.steps
      let later := r.2.map (fun x => (x.1, x.2 + 1))
      let d1 := ({ d with pwr := { d.pwr with steps := later } } : Dev).wr Reg.PWR_WAIT_MAX
        ((r.1.map Prod.snd).foldl max (d.rd Reg.PWR_WAIT_MAX))
      let d2 := r.1.foldl (fun x y => x.stepStart y.1) d1
      let still := d.pwr.steps = [] ∨ d.pwr.stuck = true ∨ d.pwr.failing = true
      (still → Does .powerSequencerWindow s d) ∧
      (¬still → later = [] → Does .powerSequencerWindow s d2.finishWake) ∧
      (¬still → later ≠ [] → Does .powerSequencerWindow s d2)) ∧
     (∀ u : Fin 16,
       let wakes := d.bit (Reg.TIME_TRIG_CFG u) 1
       let due := d.trigState u = 1 ∧ d.trigTarget u ≤ d.localNow
       let dead := d.pState = 5 ∨ d.pwr.stuck = true ∨ d.pwr.failing = true ∨ (3 ≤ d.pState ∧ wakes = false)
       (¬due ∨ dead → Does (.triggerFire u) s d) ∧
       (due → ¬dead → wakes = false → Does (.triggerFire u) s (d.fireUnit u)) ∧
       (due → ¬dead → wakes = true → Does (.triggerFire u) s ((d.fireUnit u).wakeEvent 3 u (d.fireUnit u).plainUp))) ∧
     (∀ (addr : BitVec 7) (up : StartUp),
       let other := addr.toNat ≠ 0x58 + d.rdF Reg.SYS_STRAPS 0 1
       (other ∨ d.pwr.stuck = true ∨ d.pwr.failing = true → Does (.shelfWake up addr) s d) ∧
       (¬other → d.pwr.stuck = false → d.pwr.failing = false → Does (.shelfWake up addr) s (d.wakeEvent 0 0 up))) ∧
     (∀ addr : BitVec 7,
      let off : Dev := { d with pwr := { d.pwr with target := 5, latched := [] } }
      let asleep := 3 ≤ d.pState ∧ d.pwr.waking = none
      let hold := d.inHold = true ∧ d.entering = false ∧ d.pState < 3 ∧ d.pwr.stuck = false
      let none_ := addr.toNat ≠ 0x58 + d.rdF Reg.SYS_STRAPS 0 1 ∨ d.pState = 5 ∨ d.pwr.failing = true
      (none_ → Does (.shelfPowerOff addr) s d) ∧
      (¬none_ → asleep → Does (.shelfPowerOff addr) s off.reached) ∧
      (¬none_ → ¬asleep → hold → Does (.shelfPowerOff addr) s (d.enter 5 true)) ∧
      (¬none_ → ¬asleep → ¬hold → Does (.shelfPowerOff addr) s (d.append 4 .writeIgnored (vals [1, 0x4F])))))

/-- Domain starts are admitted in their order as long as their costs fit the budget: what is admitted fits, nothing is lost, and the
first that waits does not fit beside them (R481). -/
def Obligations.AdmittedStartsFitTheBudget : Prop :=
  ∀ (budget : Nat) (ss : List (Nat × Nat)),
    let r := admitSteps budget ss
    r.1 ++ r.2 = ss ∧ (r.1.map (fun x => stepCost x.1)).sum ≤ budget ∧
    ∀ x rest, r.2 = x :: rest → budget < (r.1.map (fun y => stepCost y.1)).sum + stepCost x.1

/-- Hours count outside OFF; a measurement shows every monitor's degradation; margins are sampled once at every 24th hour; a re-plan
runs when no job is active, is carried out when its feature is accepted and only reported else; retention, hold-up and
temperatures are shown as measured; a ratio to a ring that stands still, and a decay that does not fall, are free values (R41,
R485-R493; log entry 114). CAL_RUN waits for the calibration of a unit that exists, of a camera in calibration order; one that
needs HOLD, one that already runs and one without its unit have their own statuses. A calibration of its schedule or of a
CAL_RUN completes with its figure; any other does nothing (R494-R497). -/
def Obligations.HealthIsMeasuredAndCalibrated : Prop :=
  (∀ s : State,
     let d := s.dev
     let dark := d.pState = 5 ∨ d.pwr.stuck = true ∨ d.pwr.failing = true
     (dark → Does .pohIncrement s d) ∧
     (¬dark → Does .pohIncrement s (d.wr Reg.NVM_POH (d.rd Reg.NVM_POH + 1))) ∧
     (d.halted = false →
       (∀ rings, Does (.ageingMeasurement rings) s ((List.range 16).foldl
         (fun x m =>
           let r := rings.getD m (0, 0)
           if r.2 = 0 then (x.wrS (Reg.HLTH_AGE m) (Config.freeWord x.freeCtr).toInt).tick
           else x.wrS (Reg.HLTH_AGE m) (degradation r.1 r.2)) d)) ∧
       (let now := d.rd Reg.NVM_POH
        let again := ∃ v rest, mapGet [] d.hlth.samples 0 = (now, v) :: rest
        (now % 24 ≠ 0 ∨ again → Does .marginSample s d) ∧
        (now % 24 = 0 → ¬again → Does .marginSample s ((List.range 42).foldl Dev.sampleMargin d))) ∧
       (d.anyActive = true → Does .healthReplan s d) ∧
       (d.anyActive = false →
         let d1 := d.reportPlan
         let d2 := d1.applyPlan
         let shown := (List.range 5).foldl (fun x v => x.wrF (Reg.HLTH_AVS v) 16 8 (d1.newTrim v)) d1
         (d.feat 45 = true → d.settings ≠ d2.settings → Does .healthReplan s
           (((d2.wrBit Reg.HLTH_STATUS 8 false).bump Reg.HLTH_REPLAN_COUNT).event 2 .replan (vals (d.settings ++ d2.settings)))) ∧
         (d.feat 45 = true → d.settings = d2.settings → Does .healthReplan s (d2.wrBit Reg.HLTH_STATUS 8 false)) ∧
         (d.feat 45 = false → Does .healthReplan s (shown.wrBit Reg.HLTH_STATUS 8 (decide (d1.settings ≠ d2.settings))))) ∧
       (∀ c found : Fin 4,
         (d.bit Reg.PLACE_CH_OK c = true →
           Does (.retentionTest c found) s (d.wrF (Reg.HLTH_DRAM c) 0 16 ([64, 128, 256, 512].getD found 512))) ∧
         (d.bit Reg.PLACE_CH_OK c = false → Does (.retentionTest c found) s d)) ∧
       (∀ m : HoldUp,
         let r := (Config.freeWord d.freeCtr).toNat
         let c := if m.v2 < m.v1 then satU 16 (pubI (holdUpC m)).toNat else r % 0x10000
         let t := if m.v2 < m.v1 ∧ m.vMin < m.v1 then satU 16 (pubI (holdUpT m)).toNat else r / 0x10000
         let d1 := (d.wr Reg.HLTH_HOLDUP (c + t * 0x10000)).tick
         let may := d.cfB Reg.HLTH_CFG 4 = true ∧ d.anyActive = false
         Does (.mainsDipReturn m) s d1 ∧
         (may → Does (.holdupTest m) s d1) ∧
         (¬may → Does (.holdupTest m) s d)) ∧
       (∀ plate0 die0,
         let plate := readings 3 plate0
         let die := readings 5 die0
         let top := listMax plate
         let d1 := ((List.range 3).foldl (fun x n => x.wrF (Reg.HLTH_TEMP_BP n) 0 16 (uns 16 (plate.getD n 0))) d).wr
           Reg.HLTH_TEMP_BASE (uns 16 top + uns 16 (listMax die) * 0x10000)
         let d2 := if 1120 < top ∧ d1.pwr.hot = false then d1.event 2 .baseplateHot [] else d1
         let d3 : Dev := { d2 with pwr := { d2.pwr with hot := decide (1120 < top) } }
         (top ≤ 1280 → Does (.baseplateTempRead plate0 die0) s d3) ∧
         (1280 < top → Does (.baseplateTempRead plate0 die0) s (d3.enterHold true id))))) ∧
  ((∀ (s : State) (q : Fin 16) (o : Out) (d : Dev), s.dev.Starts q 0x0360 o d →
     let cal := byteAt o.entry 8
     let unit := numAt o.entry 12 4
     let c := d.cs unit
     let n := d.rdF Reg.HLTH_CAL_CFG 0 6
     let away := cal = 5 ∧ d.inHold = false
     let busy := 7 ≤ cal ∧ unit < 2 ∧ c.cal.isSome = true
     let x : CamCal := { kind := cal, left := if n = 0 then 64 else n, order := d.rdF (Reg.VPIPE_CAM_ORDER unit) 0 1 }
     (away → Does (.calRun q) s ((d.complete o NOT_IN_HOLD 0 []).drain q)) ∧
     (¬away → busy → Does (.calRun q) s ((d.complete o TABLE_LOCKED 0 []).drain q)) ∧
     (¬away → ¬busy → d.calUnitOk cal unit = false → Does (.calRun q) s ((d.complete o OUT_OF_RANGE 0 []).drain q)) ∧
     (¬away → ¬busy → d.calUnitOk cal unit = true → 7 ≤ cal → Does (.calRun q) s
       ((((d.setCs unit { c with cal := some x }).wrF (Reg.VPIPE_CAM_ORDER unit) 0 1 1).keep o).drain q)) ∧
     (¬away → ¬busy → d.calUnitOk cal unit = true → cal < 7 → Does (.calRun q) s ((d.keep o).drain q))) ∧
   (∀ (s : State) (cal : Fin 9) (u : Fin 64) (fig : Word), s.dev.halted = false →
     let d := s.dev
     let due := 1 ≤ cal.val ∧ cal.val ≤ 6 ∧ d.calUnitOk cal u = true ∧ (cal.val = 4 ∨ cal.val = 5 → d.bit Reg.PLACE_CH_OK u = true) ∧
       (cal.val = 5 → d.inHold = true) ∧ (d.calWaits cal u = true ∨ d.calAuto cal = true)
     let d1 := if cal.val = 5 then d.wr (Reg.MEMC_CH_MARGIN u) (fig.toNat % 0x1000000)
       else if cal.val = 3 then d.tick.wr Reg.HEEL_OSC_PPM (Config.freeWord d.freeCtr).toNat else d
     (due → Does (.calibration cal u fig) s (d1.calDone cal u fig.toNat)) ∧
     (¬due → Does (.calibration cal u fig) s d)))

/-- A record that is appended takes the present SEQ and counter value and its payload in whole groups of 8 bytes, and SEQ goes on by
1; while the staging buffer has room it joins the records there behind the others, and else it is dropped and counted; the ring
is not touched (R27, R498, R500). The log is flushed in every power state but a failing supply; LOG_READ writes whole records
from the sequence number asked that fit, and completes with how many and whether one is missing; HEALTH_READ writes the HLTH and
NVM registers (R123, R126, R498-R501). Whole records that fit take no more room than there is, are a first part of what was
asked, and are as many as the room and the limit allow (R501). -/
def Obligations.TheLogKeepsItsRecords : Prop :=
  (∀ (d : Dev) (origin : Nat) (ev : Ev) (payload : List Byte), d.rd64 Reg.NVM_LOG_NEXT_LO + 1 < 2 ^ 64 →
     let d' := d.append origin ev payload
     let r : LogRec := ⟨d.rd64 Reg.NVM_LOG_NEXT_LO, d.tc, ev, origin, pad8 payload⟩
     d'.rd64 Reg.NVM_LOG_NEXT_LO = d.rd64 Reg.NVM_LOG_NEXT_LO + 1 ∧ d'.log.ring = d.log.ring ∧ r.payload.length % 8 = 0 ∧
     ((d.log.staging.map recBytes).sum + recBytes r ≤ 0x100000 → d'.log.staging = d.log.staging ++ [r]) ∧
     (0x100000 < (d.log.staging.map recBytes).sum + recBytes r → d'.log.staging = d.log.staging ∧
       d'.rd Reg.HLTH_LOG_DROP = min (d.rd Reg.HLTH_LOG_DROP + 1) 0xFFFFFFFF) ∧
     d'.host.hostMem = d.host.hostMem ∧ d'.tx = d.tx ∧ d'.cfg = d.cfg ∧ d'.job = d.job) ∧
  ((∀ s : State, (s.dev.pwr.failing = true → Does .logFlush s s.dev) ∧
     (s.dev.pwr.failing = false → Does .logFlush s s.dev.flushLog)) ∧
   (∀ (s : State) (q : Fin 16) (dma : Dma) (o : Out) (d : Dev) (els : List (Nat × Nat)), s.dev.Starts q 0x0301 o d →
     d.buffer o.entry dma = .ok els → dataErr dma = none →
     let all := d.logFrom o
     let n := min (numAt o.entry 16 4) all.length
     let bs := ((fitRecs n (bufTotal els) all).flatMap recordBytes).take (bufTotal els)
     let packed := d.cfB Reg.HLTH_CFG 5 = true ∧ d.rd Reg.DFL_CMP_OK ≠ 0 ∧ d.inRecovery = false
     (¬packed → Does (.logRead q dma) s (((d.scatter els bs).logDone o (fitRecs n bs.length all)).drain q)) ∧
     (packed → fitRecs n (bufTotal els) all = [] → Does (.logRead q dma) s
       (((d.scatter els bs).logDone o (fitRecs n bs.length all)).drain q)) ∧
     (∀ a z rest, packed → fitRecs n (bufTotal els) all = a :: rest → (a :: rest).getLast? = some z →
       let res := logResult (max (numAt o.entry 8 8) d.log.firstSeq) (a :: rest)
       let w : CmpJob := { use := 4, input := (a :: rest).flatMap recordBytes, verify := d.cfB Reg.DFL_CMP_CTRL 3,
                           out := some { o with note := res }, item := z.seq + 1, bar := a.seq, els := els }
       Does (.logRead q dma) s ((d.addStream w).drain q))) ∧
   (∀ (s : State) (q : Fin 16) (dma : Dma) (o : Out) (d : Dev) (els : List (Nat × Nat)), s.dev.Starts q 0x0302 o d →
     d.buffer o.entry dma = .ok els → dataErr dma = none →
     let bs := d.healthBytes.take (bufTotal els)
     Does (.healthRead q dma) s (((d.scatter els bs).complete o OK bs.length []).drain q))) ∧
  (∀ (n room : Nat) (rs : List LogRec),
     let xs := fitRecs n room rs
     (xs.map recBytes).sum ≤ room ∧ xs.length ≤ n ∧ (∃ ys, rs = xs ++ ys) ∧
     (∀ y ys, rs = xs ++ y :: ys → xs.length = n ∨ room < (xs.map recBytes).sum + recBytes y))

/-- FW_WRITE programs a slice of the image that does not run, from its start or where the last slice ended, and leaves it
UNVERIFIED; FW_VERIFY marks it by its check, and FW_SELECT selects a verified one; the image that runs is refused (R123, R124,
R503, R504). -/
def Obligations.FirmwareIsWrittenVerifiedAndSelected : Prop :=
  (∀ (s : State) (q : Fin 16) (dma : Dma) (fails : Bool) (o : Out) (d : Dev), s.dev.Starts q 0x0310 o d →
    let k := byteAt o.entry 8
    let off := numAt o.entry 12 4
    let old := d.img k
    let bad := off % 4096 ≠ 0 ∨ (off ≠ 0 ∧ ¬(old.open_ = true ∧ old.bytes.length = off))
    (d.imageRuns k = true → Does (.fwWrite q dma fails) s ((d.complete o IMAGE_RUNNING 0 []).drain q)) ∧
    (d.imageRuns k = false → bad → Does (.fwWrite q dma fails) s ((d.complete o OUT_OF_RANGE 0 []).drain q)) ∧
    (∀ els, d.imageRuns k = false → ¬bad → d.buffer o.entry dma = .ok els → dataErr dma = none → off + bufTotal els ≤ 0x10000000 →
      let bs := dmaBytes dma (bufTotal els)
      let head := if off = 0 then [] else old.bytes
      (fails = false → Does (.fwWrite q dma fails) s (((d.program k head bs).complete o OK bs.length []).drain q)) ∧
      (fails = true → Does (.fwWrite q dma fails) s
        ((((((d.setImg k {}).setImgState k 1).wr (imgVer k) 0).bump Reg.NVM_FLASH_ERR_COUNT).complete o NVM_FAULT 0 []).drain q)))) ∧
  (∀ (s : State) (q : Fin 16) (o : Out) (d : Dev), s.dev.Starts q 0x0311 o d →
    let k := byteAt o.entry 8
    (d.imageRuns k = true → Does (.fwVerify q) s ((d.complete o IMAGE_RUNNING 0 []).drain q)) ∧
    (d.imageRuns k = false → d.imgOk k = true → Does (.fwVerify q) s
      (((d.wrF Reg.NVM_BOOT (2 + 2 * k) 2 2).complete o OK (d.rd (imgVer k)) []).drain q)) ∧
    (d.imageRuns k = false → d.imgOk k = false → Does (.fwVerify q) s
      (((d.wrF Reg.NVM_BOOT (2 + 2 * k) 2 3).complete o FW_SIGNATURE 0 []).drain q))) ∧
  (∀ (s : State) (q : Fin 16) (o : Out) (d : Dev), s.dev.Starts q 0x0312 o d →
    let k := byteAt o.entry 8
    let ok := d.rdF Reg.NVM_BOOT (2 + 2 * k) 2 = 2
    (d.imageRuns k = true → Does (.fwSelect q) s ((d.complete o IMAGE_RUNNING 0 []).drain q)) ∧
    (d.imageRuns k = false → ¬ok → Does (.fwSelect q) s ((d.complete o FW_UNVERIFIED 0 []).drain q)) ∧
    (d.imageRuns k = false → ok → Does (.fwSelect q) s (((d.wrF Reg.NVM_BOOT 0 1 k).complete o OK 0 []).drain q)))

/-! ## What the forms of the longer sequences complete with -/

/-- Normal completion of the commands that change what the module is. CFG_COMMIT with the host's count and CRC, and nothing for the
checks to name, closes the session, shows COMMITTED and takes force with the next sequence number (R82, R83, R115). START with
no session, a committed configuration, self-test and reference good and the baseplate at most 75 degC enters SERVICE alone
without pair operation, and as ACTIVE with the next epoch stored before its first frame when no partner lives (R76, R117, R417).
JOB_ADMIT of a fresh identifier with a free slot, room and capacity holds the job behind the others and answers its ceiling
(R135, R137). COMMIT_POST of a record that no step of R510 refuses makes it pending with the next SEQ, which it answers (R34,
R510). POWER_SET changes RUN and READY at once, and begins the entry of a sleep state with phase 1 (R470, R473). -/
def Obligations.CommandsCompleteWithTheirEffect : Prop :=
  (∀ (s : State) (q : Fin 16) (fails : Bool) (o : Out) (d : Dev) (img : Image), s.dev.Starts q 0x0103 o d →
    d.cfg.session = some img → numAt o.entry 8 4 = d.rd Reg.SYS_CFG_RUN_COUNT → numAt o.entry 12 4 = d.rd Reg.SYS_CFG_RUN_CRC →
    ({ d with cfg := { d.cfg with force := img } } : Dev).imageCheck = none → bitOf (byteAt o.entry 16) 0 = false →
    let seq := d.cfg.nextSeq
    let d1 : Dev := { d with cfg := { d.cfg with session := none, force := img, last := some img, lastSeq := seq } }
    let d2 := ((d1.wrF Reg.SYS_STATUS 4 3 3).wr Reg.SYS_CFG_SEQ seq).applyConfig
    Does (.cfgCommit q fails) s ((d2.complete o OK d2.cfg.lastSeq []).drain q)) ∧
  (∀ (s : State) (q : Fin 16) (o : Out) (d : Dev), s.dev.Runs q 0x0110 ⟨[], [], none⟩ o d →
    d.cfg.session = none → d.cfgField = 3 → d.selftestFail = false → d.refFault = false →
    sgn 16 (d.rdF Reg.HLTH_TEMP_BASE 0 16) ≤ 1200 →
    let up : Dev → Dev := fun x =>
      let d1 := x.wrF Reg.SYS_STATUS 0 4 2
      let d2 := if d1.safe.safeAt.isSome then d1 else d1.wrF Reg.SAFE_BAR_INHIBIT 8 8 0
      ((((((d2.posStart.rezeroStart).cmpStart).emuStart).loopsOff).testsOff).freshReports).trimStart
    let key := matchKey o.entry (mapGet 0 d.pair.counts (countKey o.entry))
    let dg := d.matchDigest o.entry ⟨[], [], none⟩
    let roled : Dev → Nat → Dev := fun x role => if x.pairOn then x.setRole role 0 1 else x
    (d.pairOn = false →
      Does (.start q) s (((((roled (up d) 0).drive.outputs).speedReact).complete o OK 0 []).drain q)) ∧
    (d.pairOn = true → d.partnerAlive = false →
      let d1 := (d.wr Reg.PAIR_EPOCH_MAX d.nextEpoch).wr Reg.PAIR_EPOCH d.nextEpoch
      let d2 := ((roled (up d1) 1).drive.outputs).speedReact
      let d3 := if d2.formed then d2.shank 7 (cmdBody key dg 0xFFFF 0) else d2
      Does (.start q) s ((d3.complete { o with mkey := some (key, dg) } OK 0 []).drain q))) ∧
  (∀ (s : State) (q : Fin 16) (dma : Dma) (o : Out) (d : Dev) (els : List (Nat × Nat)), s.dev.Runs q 0x0120 dma o d →
    let rep := bitOf (byteAt o.entry 12) 0
    let r := dmaBytes dma (bufTotal els)
    let j := jobOf r rep
    let k := d.asKnown
    let c := k.ceilings j
    d.findJob (numAt o.entry 8 4) = none → d.buffer o.entry dma = .ok els → dataErr dma = none →
    r.length = 64 + 32 * popBars (byteAt r 6) → recordFieldsOk r = true → d.recordFeatsOk r = true →
    d.recordRangesOk r (numAt o.entry 8 4) rep = true →
    k.job.jobs.length < 64 → (j.rep = true → k.repeatUsed + (j.planes.map (fun x => x.2.compBytes)).sum ≤ k.repeatStore) →
    k.cf Reg.PLACE_RATE_FLOOR ≤ c.2 → (∀ b ∈ j.barList, k.barCan b = true) →
    (j.barList.filter (fun b => !k.hasEngine b)).length ≤ b2n k.re8Free → j.barList.length ≤ k.dflLanes.length →
    ∃ x : Dev, Does (.jobAdmit q dma) s ((x.complete o OK (toMmMin c.2 (dpiOf j.pitch)) (barCeilData j c.1)).drain q) ∧
      ∃ j' : Job, x.job.jobs = d.job.jobs ++ [j'] ∧ j'.id = j.id ∧ j'.phase = j.phase ∧ j'.rate = c.2 ∧
        j'.ceiling = toMmMin c.2 (dpiOf j.pitch) ∧ j'.placed = j.placed ∧ x.host = d.host ∧ x.cfg = d.cfg) ∧
  (∀ (s : State) (q : Fin 16) (o : Out) (d : Dev), s.dev.Runs q 0x0130 ⟨[], [], none⟩ o d → d.role ≠ 2 →
    let c := commitOf ((o.entry.drop 8).take 32)
    let bars := d.commitBars c
    commitFieldsOk c true = true → (c.kind = 4 → d.feat 23 = true) → (c.kind = 6 → d.feat 41 = true ∧ d.pairOn = true) →
    (d.pairOn = true → d.role = 1) → (c.kind = 6 → d.takeoverPending = false ∧ d.partnerInStep = true) →
    d.commitJobOk c = true → (∀ b ∈ bars, d.begun c.job b = 0 ∨ d.begun c.job b - 1 + 64 ≤ c.line) →
    d.commitHeld c true = false → d.commitArgOk c = true → (∀ b ∈ bars, (d.pendOn b).length < 256) →
    ∃ x : Dev, Does (.commitPost q) s ((x.complete o OK ((d.job.commitSeq + 1) % 0x100000000) []).drain q) ∧
      ∃ p : Pend, x.job.commits = d.job.commits ++ [p] ∧ p.cp.kind = c.kind ∧ p.cp.bar = c.bar ∧ p.cp.job = c.job ∧
        p.cp.line = c.line ∧ p.cp.seq = (d.job.commitSeq + 1) % 0x100000000 ∧ p.bars = bars ∧
        x.job.commitSeq = (d.job.commitSeq + 1) % 0x100000000) ∧
  (∀ (s : State) (q : Fin 16) (o : Out) (d : Dev), s.dev.Starts q 0x0320 o d → d.entering = false →
    let t := byteAt o.entry 8
    t ≠ d.pState →
    (t < 2 → Does (.powerSet q) s (((d.wrF Reg.PWR_STATUS 0 3 t).complete o OK 0 []).drain q) ∧
      (d.wrF Reg.PWR_STATUS 0 3 t).rdF Reg.PWR_STATUS 0 3 = t) ∧
    (2 ≤ t → d.anyActive = false → ∃ x : Dev, Does (.powerSet q) s (x.drain q) ∧ x.rdF Reg.PWR_STATUS 3 4 = 3 ∧
      x.pwr.target = t ∧ x.pwr.shelf = false ∧ x.host.outs = (d.keep o).host.outs))

/-- Completion of the rows of power, wake and trigger units. An agent that misses phase 1 refuses the entry, and the agent that is
asked in a later phase aborts it: PWR_LAST_ABORT names agent, phase and target, and the entry is over (R473, R474). A drain that
ends by its limit discards and counts what waited (R476). A host write in DOZE returns to the state before (R470). A due trigger
unit counts its firing, and is DONE or targets its next period (R389). A wake that its mask and its state admit is recorded with
its source and state, and the domains' 25 starts wait (R477, R481); the window admits them by their costs (R481). The shelf's
wake at the slot's address is source 0, and its POWER_OFF in HOLD begins the entry of OFF (R49, R483). -/
def Obligations.PowerAndTriggerRowsComplete : Prop :=
  ∀ s : State,
    let d := s.dev
    (d.halted = false →
      (∀ a : Fin 14, d.entering = true → d.phase = 1 →
        let d1 := d.completeWhere (fun o => entOpcode o.entry == 0x0320) SLEEP_ABORT (fun _ => a + 1)
        let d2 := (d1.wr Reg.PWR_LAST_ABORT (a + 1 + 0x100 + 0x800 + d1.pwr.target * 0x1000)).append 4 .sleepAbort
          (vals [a + 1, 1, 1])
        let p : PwrSt := { d2.pwr with target := 0, shelf := false, agents := [], stopped := [], latched := [] }
        Does (.agentTimeout a) s ((({ d2 with pwr := p } : Dev).wrF Reg.PWR_STATUS 3 4 0).wrBit Reg.HEEL_STATUS 2 false)) ∧
      (∀ a : Fin 14, d.entering = true → d.phase ≠ 1 → d.pwr.agents.head? = some ((a : Nat) + 1) →
        ∃ t : Dev, Does (.agentTimeout a) s t ∧ t.entering = false ∧ t.pwr.target = 0 ∧ t.pwr.agents = []) ∧
      (∀ p, p < 29 → d.entering = true → d.phase = 3 → d.portDraining p = true →
        ((List.range 4).map (fun c => ((d.chan c).queue p).length)).sum ≠ 0 →
        (∀ r, r < 29 → r ≠ p → d.portDraining r = false) →
        ∃ t : Dev, Does .drainAbort s t ∧ t.portDraining p = false ∧ t.portAlive p = false) ∧
      (d.pState = 2 → ∃ t : Dev, Does .dozeExit s t ∧ t.pState = d.pwr.prev % 8 ∧ ∀ a, a ≠ Reg.PWR_STATUS → t.rd a = d.rd a)) ∧
    (∀ u : Fin 16, d.pwr.stuck = false → d.pwr.failing = false → d.pState < 3 → d.bit (Reg.TIME_TRIG_CFG u) 1 = false →
      d.trigState u = 1 → d.trigTarget u ≤ d.localNow →
      let n := mapGet 0 d.time.fired u + 1
      let d1 := (({ d with time := { d.time with fired := mapSet 0 d.time.fired u n } } : Dev).bump
        (Reg.TIME_TRIG_FIRE_COUNT u)).trigConsumers u
      let per := d.rd (Reg.TIME_TRIG_PERIOD u) * (if d.bit (Reg.TIME_TRIG_CFG u) 0 = true then 1000 else 1) * 65536
      let cnt := d.rd (Reg.TIME_TRIG_COUNT u)
      let done := per = 0 ∨ (0 < cnt ∧ cnt ≤ n)
      let passed := (d.localNow - d.trigTarget u) / per
      let miss := satU 16 (d.rdF (Reg.TIME_TRIG_STATUS u) 16 16 + passed)
      (done → Does (.triggerFire u) s (d1.wrF (Reg.TIME_TRIG_STATUS u) 0 2 2)) ∧
      (¬done → Does (.triggerFire u) s
        ((d1.setTarget u (d.trigTarget u + (passed + 1) * per)).wrF (Reg.TIME_TRIG_STATUS u) 16 16 miss))) ∧
    (d.pwr.stuck = false → d.pwr.failing = false → d.pwr.waking = none → d.pState = 3 →
      let begun : Nat → Nat → Dev := fun k u =>
        let d1 := (d.wr Reg.HEEL_LAST_WAKE (k + 1 + 16 * 3 + (if k + 1 = 4 then u * 0x80000 else 0))).wr64
          Reg.HEEL_LAST_WAKE_TIME_LO d.tc
        let p : PwrSt := { d1.pwr with waking := some (k + 1, false, 3, u), steps := (List.range 25).map (fun i => (i, 0)) }
        ({ d1 with pwr := p } : Dev).bump Reg.HEEL_WAKE_COUNT
      (∀ (k : Fin 6) (u : Fin 16) (up : StartUp), bitOf d.wakeMask k = true →
        (k.val = 2 → ∃ c, c < 4 ∧ d.cfB (Reg.POS_ENC_CFG c) 0 = true) → (k.val = 3 → d.bit (Reg.TIME_TRIG_CFG u) 1 = true) →
        (k.val = 5 → d.pwr.wakePin = false) → Does (.wake k u up) s (begun k u)) ∧
      (∀ (addr : BitVec 7) (up : StartUp), bitOf d.wakeMask 0 = true → addr.toNat = 0x58 + d.rdF Reg.SYS_STRAPS 0 1 →
        Does (.shelfWake up addr) s (begun 0 0))) ∧
    (d.pwr.stuck = false → d.pwr.failing = false → d.pwr.steps ≠ [] → (admitSteps (d.cf Reg.PWR_BUDGET) d.pwr.steps).2 ≠ [] →
      let r := admitSteps (d.cf Reg.PWR_BUDGET) d.pwr.steps
      Does .powerSequencerWindow s (r.1.foldl (fun x y => x.stepStart y.1)
        (({ d with pwr := { d.pwr with steps := r.2.map (fun x => (x.1, x.2 + 1)) } } : Dev).wr Reg.PWR_WAIT_MAX
          ((r.1.map Prod.snd).foldl max (d.rd Reg.PWR_WAIT_MAX))))) ∧
    (∀ addr : BitVec 7, addr.toNat = 0x58 + d.rdF Reg.SYS_STRAPS 0 1 → d.pwr.failing = false → d.pwr.stuck = false →
      d.pState < 3 → d.inHold = true → d.entering = false →
      ∃ t : Dev, Does (.shelfPowerOff addr) s t ∧ t.rdF Reg.PWR_STATUS 3 4 = 3 ∧ t.pwr.target = 5 ∧ t.pwr.shelf = true ∧
        t.pwr.latched = [])

/-- Completion of the rows of links, lanes and eyes. Link-up, its time-outs and its retry (R289, R290), the frames that carry it on
(R282, R284-R292), the flood interval, the INHIBIT token, RELINK and SENSE_REQ (R281, R296, R299, R301), a lane's test (R328,
R330), and eye scans one at a time (R326, R327, R491). -/
def Obligations.LinkAndLaneRowsComplete : Prop :=
  (∀ (s : State) (b : Fin 8), s.dev.halted = false →
    let d := s.dev
    let x := d.ls b
    (d.barEn b = true → d.portState b = 1 → d.upLanes b ≠ [] → ∃ t : Dev, Does (.laceLinkUp b) s t ∧ t.portState b = 2 ∧
      (t.ls b).echoSent = some d.tc ∧ (t.ls b).echoes = [] ∧ (t.ls b).key = none) ∧
    (d.portState b = 2 → x.downLogged = true → Does (.laceStepTimeout b) s
      (((d.endSession b).wrF (Reg.LACE_STATUS b) 0 4 0).wrF (Reg.LACE_STATUS b) 16 3 2)) ∧
    (d.barEn b = true → d.portState b = 0 → Does (.laceRetry b) s (d.wrF (Reg.LACE_STATUS b) 0 4 1)) ∧
    (d.fieldInhibit b = true → d.laceUp b = true → d.localInhibit b = false → d.upLanes b ≠ [] →
      Does (.inhibitTokenRepeat b) s
        (d.send (.token b (d.upLanes b) (b2n (d.masterOn b) + 2) 0 0 (d.inhibitLine b % 0x100000000) (d.epochOn b) 0xFFFFFF))) ∧
    ((∀ b < 8, (d.ls b).flooded = false) → ∃ t : Dev, Does .floodInterval s t ∧ (∀ a, t.rd a = d.rd a) ∧ t.tx = d.tx ∧
      ∀ b < 8, t.ls b = { d.ls b with flooded := false, floodRun := 0 })) ∧
  (∀ (s : State) (b : Fin 8) (f : List Blk) (body : List Byte) (d : Dev), s.dev.halted = false →
    let x := d.ls b
    (s.dev.Frame b 0x81 f d body → d.portState b = 2 → x.echoes.length < 15 → x.echoSent = some (numAt body 0 8) →
      numAt body 0 8 < 2 ^ 64 →
      ∃ t : Dev, Does (.echoReply b f) s t ∧ (t.ls b).echoes =
        x.echoes ++ [5 * ((d.tc : Int) - (numAt body 0 8 : Int)) - 2 * (numAt body 8 4 : Int)] ∧
        (t.ls b).echoSent = some d.tc ∧ ∀ a, t.rd a = d.rd a) ∧
    (s.dev.Frame b 0x82 f d body → d.portState b = 3 → x.chal = true →
      let nn := body.take 16
      let id := (body.drop 16).take 16
      let port := leBytes 1 d.slot
      let d1 := d.wrWords (Reg.LACE_NODE_ID b 0) (bytesWords id)
      numAt body 48 4 = d1.rd Reg.SAFE_KEY_ID → (body.drop 32).take 16 = aesCmac d.safe.ki (leBytes 1 0x4E ++ x.nm ++ nn ++ id ++ port) →
      ∃ t : Dev, Does (.authResponse b f) s t ∧ t.portState b = 4 ∧
        (t.ls b).key = some (aesCmac d.safe.ki (leBytes 1 0x53 ++ x.nm ++ nn ++ port)) ∧ (t.ls b).chal = false) ∧
    (s.dev.Frame b 0x84 f d body → d.portState b = 4 → 256 ≤ numAt body 4 2 → numAt body 0 4 % 2 ^ 24 ≠ 0 →
      (∀ h, mapGet [] x.hmem h = []) →
      ∃ t : Dev, Does (.setupAck b f) s t ∧ t.portState b = 5 ∧ t.rd (Reg.LACE_HEADS_PRESENT b) = numAt body 0 4 ∧
        t.rd (Reg.LACE_BUF_LINES b) = numAt body 4 2 ∧ (t.ls b).hmemReq.isSome = true) ∧
    (s.dev.Frame b 0x13 f d body → ∀ h a n, x.hmemReq = some (h, a, n) → body.length = 8 + n →
      body.take 8 = leBytes 1 h ++ leBytes 1 0 ++ leBytes 2 a ++ leBytes 2 n ++ leBytes 2 0 →
      let d1 := d.setLs b { x with hmemReq := none, hmem := mapSet [] x.hmem h (mapGet [] x.hmem h ++ body.drop 8) }
      Does (.hmemData b f) s (d1.nextRead b))) ∧
  (∀ s : State, s.dev.answers →
    let d := s.dev.dozeExit
    (∀ b : Fin 8, d.inHold = true → d.quarantined b = true → ∃ t : Dev, Does (.relink b) s t ∧ t.portState b = 1 ∧
      t.rdF (Reg.LACE_STATUS b) 12 4 = 0 ∧ (t.ls b).key = none) ∧
    (∀ b : Fin 8, d.laceUp b = true → (d.ls b).senseReq = none → (d.ls b).hmemReq = none → ∃ t : Dev, Does (.senseReq b) s t ∧
      (t.ls b).senseReq = some (d.rdF (Reg.LACE_SENSE_HEAD b) 0 5) ∧ t.bit (Reg.LACE_SENSE_STAT b) 16 = false) ∧
    (∀ (l : Fin 36) (v : Word), d.inRecovery = false → d.inService = false → 8 ≤ l.val → l.val < 26 ∨ 33 < l.val →
      fld v.toNat 0 2 ≠ 3 ∨ fld v.toNat 2 3 = 0 → fld v.toNat 2 3 ≤ 3 → d.laneUp l = false →
      let new := fld v.toNat 0 2 + fld v.toNat 2 3 * 4 + fld v.toNat 5 1 * 32
      Does (.laneTest l v) s ((d.wr (Reg.LANE_LN_TEST l) new).wrBit (Reg.LANE_LN_STATUS l) 15 (new != 0))) ∧
    (d.bit Reg.LANE_EYE_STATUS 1 = false → d.rdF Reg.LANE_EYE_CTRL 0 6 < 36 → d.lane.scan = none →
      let l := d.rdF Reg.LANE_EYE_CTRL 0 6
      let d1 := d.wrBit Reg.LANE_EYE_GO 0 true
      Does .eyeScanGo s ((({ d1 with lane := { d1.lane with scan := some (l, true), scanDown := !d1.laneUp l } } : Dev).wrBit
        (Reg.LANE_LN_EYE_STAT l) 16 false).wr Reg.LANE_EYE_STATUS (1 + l * 0x100)))) ∧
  (∀ s : State, s.dev.halted = false →
    let d := s.dev
    (∀ w h l, d.lane.scan = some (l, true) → d.lane.scanDown = false → d.laneUp l = true → d.lane.hostNext = none → d.lane.queue = [] →
      let d1 := ((d.wr (Reg.LANE_LN_EYE l) (w.val + h.val * 0x100)).wrBit (Reg.LANE_LN_EYE_STAT l) 17 false).publish
        (Reg.LANE_LN_EYE_STAT l)
      Does (.eyeScanDone w h) s ((({ d1 with lane := { d1.lane with scan := none, scanDown := false } } : Dev).wrBit
        Reg.LANE_EYE_GO 0 false).wr Reg.LANE_EYE_STATUS (l * 0x100))) ∧
    (∀ p, d.lane.scan = some p → Does .marginScan s { d with lane := { d.lane with
      queue := d.lane.queue ++ ((List.range 36).filter d.laneUp).filter (fun l => !d.lane.queue.contains l) } }))

/-- Completion of the rows of the redundant pair, by the effect the rules give each frame and timer: HELLO and HEARTBEAT (R421,
R422), COMMIT, DECISION, LOOP and LINE_CRC on the STANDBY (R38, R426, R428), CMD and JOB (R424, R428), STATE while SYNCING
(R438), RESIGN, DIAG, SYNC_REQ and RELEASED (R430, R431, R437), what is sent (R421), and the time-outs (R424, R430, R432). -/
def Obligations.PairRowsComplete : Prop :=
  (∀ (s : State) (f : List Blk) (body : List Byte) (d : Dev), s.dev.halted = false →
    (s.dev.Shank 1 f d body → numAt body 24 8 = 0 →
      let p : PairSt := { d.pair with helloIn := true, echo := numAt body 16 8, echoAt := d.tc,
                                      partnerHold := bitOf (byteAt body 1) 1 }
      Does (.hello f) s ((({ d with pair := p } : Dev).wrF Reg.PAIR_PIPE_COMPAT 16 16 (numAt body 2 2)).seeEpoch (numAt body 8 4))) ∧
    (s.dev.hears 2 f → s.dev.pair.hbLast = some (numAt (bodyOf f) 8 8) → ∃ t : Dev, Does (.heartbeat f) s t ∧
      t.bit Reg.PAIR_STATUS 5 = true ∧ t.pair = s.dev.pair ∧ t.log = s.dev.log) ∧
    (s.dev.Shank 3 f d body → d.role = 2 →
      let c := commitOf (body.take 32)
      c.kind = 2 → c.job ≠ 0 → (∀ b ∈ d.commitBars c, d.begun c.job b ≤ c.line) →
      ∃ t : Dev, Does (.commit f) s t ∧ t.job.commits = d.job.commits ++ [({ cp := c, bars := d.commitBars c } : Pend)] ∧ t.job.commitSeq = c.seq) ∧
    (s.dev.Shank 4 f d body → d.role = 2 → byteAt body 8 < 8 → 1 ≤ byteAt body 10 → byteAt body 10 ≤ 3 →
      (d.bf (byteAt body 8)).next ≤ numAt body 0 8 →
      let x : Decision := ⟨numAt body 0 8, byteAt body 8, byteAt body 9, byteAt body 10, byteAt body 11, numAt body 12 4⟩
      Does (.decision f) s { d with pair := { d.pair with decisions := d.pair.decisions ++ [x] } }) ∧
    (s.dev.Shank 5 f d body → d.role = 2 → ∃ t : Dev, Does (.loop f) s t ∧
      t.pair.loops = d.pair.loops ++ [(byteAt body 0, byteAt body 1, numAt body 4 4, body.drop 8)] ∧ t.regs = d.regs) ∧
    (s.dev.Shank 6 f d body → d.role = 2 → byteAt body 8 < 8 → d.syncing (byteAt body 8) = false →
      mapGet [] d.pair.own (byteAt body 8) = [] → mapGet [] d.pair.theirs (byteAt body 8) = [] →
      ∃ t : Dev, Does (.lineCrc f) s t ∧ mapGet [] t.pair.theirs (byteAt body 8) =
        (List.range 16).map (fun i => (numAt body 0 8 + i, numAt body (16 + 4 * i) 4)) ∧ t.regs = d.regs) ∧
    (s.dev.Shank 7 f d body → d.role = 2 → (∀ w ∈ d.pair.waits, w.key ≠ numAt body 0 8) → ∃ t : Dev, Does (.cmd f) s t ∧
      t.pair.kept = d.pair.kept.filter (fun g => g.key != numAt body 0 8) ++
        [⟨numAt body 0 8, numAt body 8 4, numAt body 12 2, numAt body 16 4⟩] ∧ t.regs = d.regs) ∧
    (s.dev.Shank 8 f d body → d.role = 2 → d.findJob (numAt body 0 4) = none → ∃ t : Dev, Does (.job f) s t ∧
      t.pair.jobX = mapInsert (numAt body 0 4) (((sgn 64 (numAt body 8 8) : Int) : Rat) - d.deltaX)
        (mapErase (numAt body 0 4) d.pair.jobX) ∧ t.regs = d.regs) ∧
    (s.dev.Shank 0xA f d body → d.role = 2 → d.stepState ≠ 2 → Does (.resign f) s (d.becomeActive 3 d.nextEpoch)) ∧
    (s.dev.Shank 0xB f d body → ∀ m, d.role = 1 → d.pair.mismatch = some m → m.own = true → byteAt body 9 = 1 →
      Does (.diag f) s { d with pair := { d.pair with mismatch := none } }) ∧
    (s.dev.Shank 0xC f d body → d.role = 1 → byteAt body 0 = 2 → d.takeoverPending = false → d.anyActive = false →
      Does (.syncReq f) s (({ d with pair := { d.pair with takeback := false } } : Dev).resign 1
        (({ d with pair := { d.pair with takeback := true } } : Dev).partnerStep))) ∧
    (s.dev.Shank 0xD f d body → d.role = 2 → d.takeoverPending = true →
      Does (.released f) s (d.becomeActive 4 (d.rd Reg.PAIR_EPOCH + 1))) ∧
    (s.dev.hears 9 f →
      let r := (s.dev.seeEpoch (epochOf f)).shankSeq (seqOf f)
      let x : Dev := r.1
      r.2 = true → x.role = 2 → x.stepState = 2 → bitOf (byteAt (bytesOf f) 1) 0 = true →
      let key := byteAt (bodyOf f) 0 * 256 + byteAt (bodyOf f) 1 % 8
      let all := (mapGet [] x.pair.stateIn key).take (numAt (bodyOf f) 4 4) ++ (bodyOf f).drop 8
      Does (.state f) s { x with pair := { x.pair with stateIn := mapSet [] x.pair.stateIn key all } })) ∧
  (∀ s : State, s.dev.halted = false →
    let d := s.dev
    (d.pairOn = true → d.shankUp = true → ∃ (t : Dev) (x : Tx), Does .helloSend s t ∧ t.tx = d.tx ++ [x] ∧ (∀ a, t.rd a = d.rd a)) ∧
    (d.pairOn = true → d.shankUp = true → ∃ t : Dev, Does .heartbeatSend s t ∧ t.pair.hbSeq = d.pair.hbSeq + 1 ∧
      ∀ a, t.rd a = d.rd a) ∧
    (d.partnerAlive = true → d.role = 0 → ∃ t : Dev, Does .pairLoss s t ∧ t.partnerAlive = false ∧ t.formed = false ∧
      t.pair.hbLast = none ∧ t.pair.helloIn = false) ∧
    (∀ key o dg, d.pair.startWait = some o → o.mkey = some (key, dg) → Does (.cmdMatchTimeout key) s
      (({ d with pair := { d.pair with startWait := none } } : Dev).complete { o with mkey := none } OUT_OF_STEP 0 [])) ∧
    (∀ m, d.pair.mismatch = some m → d.role = 1 → m.own = true →
      let d1 : Dev := { d with pair := { d.pair with mismatch := none } }
      (m.inStep = false → Does .mismatchResolveTimeout s d1) ∧
      (m.inStep = true → m.other = none → Does .mismatchResolveTimeout s (d1.resign 3 1))))
end

