-- ==== Sys2Proof/Laws/Maps.lean ====
section
/-!
SUPPORT. What a sparse map answers after an operation on it, and that every operation keeps the canonical form.
-/

namespace Sys2Proof.Machine

variable {α : Type}

theorem mapGet_mapErase_same (dflt : α) (m : NMap α) (k : Nat) : mapGet dflt (mapErase k m) k = dflt := by
  induction m with
  | nil => rfl
  | cons e m ih =>
    obtain ⟨k', v⟩ := e
    by_cases h : k = k'
    · subst h; simpa [mapErase] using ih
    · simpa [mapErase, mapGet, h] using ih

theorem mapGet_mapErase_ne (dflt : α) (m : NMap α) {k j : Nat} (h : j ≠ k) :
    mapGet dflt (mapErase k m) j = mapGet dflt m j := by
  induction m with
  | nil => rfl
  | cons e m ih =>
    obtain ⟨k', v⟩ := e
    by_cases h1 : k = k'
    · subst h1; simp [mapErase, mapGet, h, ih]
    · by_cases h2 : j = k' <;> simp [mapErase, mapGet, h1, h2, ih]

theorem mapGet_mapInsert_ne (dflt : α) (m : NMap α) (v : α) {k j : Nat} (h : j ≠ k) :
    mapGet dflt (mapInsert k v m) j = mapGet dflt m j := by
  induction m with
  | nil => simp [mapInsert, mapGet, h]
  | cons e m ih =>
    obtain ⟨k', w⟩ := e
    by_cases h1 : k < k'
    · simp [mapInsert, mapGet, h1, h]
    · by_cases h2 : j = k' <;> simp [mapInsert, mapGet, h1, h2]
      exact ih

theorem mapGet_mapInsert_same (dflt : α) (m : NMap α) (v : α) (k : Nat) (h : ∀ e ∈ m, e.1 ≠ k) :
    mapGet dflt (mapInsert k v m) k = v := by
  induction m with
  | nil => simp [mapInsert, mapGet]
  | cons e m ih =>
    obtain ⟨k', w⟩ := e
    by_cases h1 : k < k'
    · simp [mapInsert, mapGet, h1]
    · have h2 : k ≠ k' := fun e => h (k', w) (by simp) e.symm
      simp [mapInsert, mapGet, h1, h2]
      exact ih (fun e he => h e (by simp [he]))

theorem mem_mapErase {m : NMap α} {k : Nat} {e : Nat × α} (h : e ∈ mapErase k m) : e ∈ m ∧ e.1 ≠ k := by
  induction m with
  | nil => simp [mapErase] at h
  | cons x m ih =>
    obtain ⟨k', v⟩ := x
    by_cases h1 : k = k'
    · simp [mapErase, h1] at h
      have := ih (by simpa [h1] using h)
      exact ⟨by simp [this.1], this.2⟩
    · simp [mapErase, h1] at h
      rcases h with h | h
      · subst h; exact ⟨by simp, fun e => h1 e.symm⟩
      · exact ⟨by simp [(ih h).1], (ih h).2⟩

/-- Reading the key that was set gives the value set. -/
theorem mapGet_mapSet_same [DecidableEq α] (dflt : α) (m : NMap α) (k : Nat) (v : α) :
    mapGet dflt (mapSet dflt m k v) k = v := by
  unfold mapSet
  split
  · rename_i h; rw [h, mapGet_mapErase_same]
  · exact mapGet_mapInsert_same dflt _ v k (fun e he => (mem_mapErase he).2)

/-- Setting a key leaves every other key alone. -/
theorem mapGet_mapSet_ne [DecidableEq α] (dflt : α) (m : NMap α) (v : α) {k j : Nat} (h : j ≠ k) :
    mapGet dflt (mapSet dflt m k v) j = mapGet dflt m j := by
  unfold mapSet
  split
  · exact mapGet_mapErase_ne dflt m h
  · rw [mapGet_mapInsert_ne dflt _ v h, mapGet_mapErase_ne dflt m h]

/-- Every key of a map lies above the bound and the keys rise, as a statement about the entries. -/
theorem keysAbove_iff (lo : Option Nat) (m : NMap α) :
    keysAbove lo m = true ↔
      (∀ b, lo = some b → ∀ e ∈ m, b < e.1) ∧ m.Pairwise (fun a b => a.1 < b.1) := by
  induction m generalizing lo with
  | nil => simp [keysAbove]
  | cons e m ih =>
    obtain ⟨k, v⟩ := e
    simp only [keysAbove, Bool.and_eq_true, ih, List.pairwise_cons]
    constructor
    · rintro ⟨h1, h2, h3⟩
      refine ⟨?_, fun a ha => h2 k rfl a ha, h3⟩
      rintro b rfl a ha
      simp at h1
      rcases List.mem_cons.1 ha with rfl | ha
      · exact h1
      · exact lt_trans h1 (h2 k rfl a ha)
    · rintro ⟨h1, h2, h3⟩
      refine ⟨?_, ?_, h3⟩
      · cases lo with
        | none => rfl
        | some b => simpa using h1 b rfl (k, v) (by simp)
      · rintro b hb a ha
        cases hb
        exact h2 a ha

/-- The canonical form, as a statement about the entries. -/
theorem mapWf_iff [DecidableEq α] (dflt : α) (m : NMap α) :
    mapWf dflt m = true ↔ m.Pairwise (fun a b => a.1 < b.1) ∧ ∀ e ∈ m, e.2 ≠ dflt := by
  simp [mapWf, keysAbove_iff]

theorem mapErase_eq_filter (k : Nat) (m : NMap α) : mapErase k m = m.filter (fun e => decide (k ≠ e.1)) := by
  induction m with
  | nil => rfl
  | cons e m ih =>
    obtain ⟨k', v⟩ := e
    by_cases h : k = k'
    · subst h; simp [mapErase, ih]
    · simp [mapErase, h, ih]

/-- Erasing keeps the canonical form. -/
theorem mapWf_mapErase [DecidableEq α] (dflt : α) {m : NMap α} (k : Nat) (h : mapWf dflt m = true) :
    mapWf dflt (mapErase k m) = true := by
  rw [mapWf_iff] at *
  rw [mapErase_eq_filter]
  exact ⟨h.1.filter _, fun e he => h.2 e (List.mem_of_mem_filter he)⟩

theorem mem_mapInsert {m : NMap α} {k : Nat} {v : α} {e : Nat × α} (h : e ∈ mapInsert k v m) :
    e = (k, v) ∨ e ∈ m := by
  induction m with
  | nil => simpa [mapInsert] using h
  | cons x m ih =>
    obtain ⟨k', w⟩ := x
    by_cases h1 : k < k'
    · simp only [mapInsert, h1, if_true, List.mem_cons] at h ⊢; exact h
    · simp only [mapInsert, h1, if_false, List.mem_cons] at h ⊢
      rcases h with h | h
      · exact Or.inr (Or.inl h)
      · rcases ih h with h | h
        · exact Or.inl h
        · exact Or.inr (Or.inr h)

theorem pairwise_mapInsert {m : NMap α} {k : Nat} {v : α} (h : m.Pairwise (fun a b => a.1 < b.1))
    (hk : ∀ e ∈ m, e.1 ≠ k) : (mapInsert k v m).Pairwise (fun a b => a.1 < b.1) := by
  induction m with
  | nil => simp [mapInsert]
  | cons x m ih =>
    obtain ⟨k', w⟩ := x
    rw [List.pairwise_cons] at h
    by_cases h1 : k < k'
    · simp only [mapInsert, h1, if_true, List.pairwise_cons]
      refine ⟨?_, h.1, h.2⟩
      intro a ha
      rcases List.mem_cons.1 ha with rfl | ha
      · exact h1
      · exact lt_trans h1 (h.1 a ha)
    · simp only [mapInsert, h1, if_false, List.pairwise_cons]
      refine ⟨?_, ih h.2 (fun e he => hk e (by simp [he]))⟩
      intro a ha
      rcases mem_mapInsert ha with rfl | ha
      · have : k' ≠ k := hk (k', w) (by simp)
        show k' < k
        omega
      · exact h.1 a ha

/-- Setting a value keeps the canonical form. -/
theorem mapWf_mapSet [DecidableEq α] (dflt : α) {m : NMap α} (k : Nat) (v : α) (h : mapWf dflt m = true) :
    mapWf dflt (mapSet dflt m k v) = true := by
  unfold mapSet
  split
  · exact mapWf_mapErase dflt k h
  · rename_i hv
    have he := mapWf_mapErase dflt k h
    rw [mapWf_iff] at he ⊢
    refine ⟨pairwise_mapInsert he.1 (fun e hm => (mem_mapErase hm).2), fun e hm => ?_⟩
    rcases mem_mapInsert hm with rfl | hm
    · exact hv
    · exact he.2 e hm

theorem mem_mapBlock [DecidableEq α] (dflt : α) (k : Nat) (vs : List α) {e : Nat × α} (h : e ∈ mapBlock dflt k vs) :
    k ≤ e.1 ∧ e.1 < k + vs.length ∧ e.2 ≠ dflt := by
  induction vs generalizing k with
  | nil => simp [mapBlock] at h
  | cons v vs ih =>
    by_cases hv : v = dflt
    · simp only [mapBlock, hv, if_true] at h
      have := ih (k + 1) h
      simp only [List.length_cons]
      exact ⟨by omega, by omega, this.2.2⟩
    · simp only [mapBlock, hv, if_false, List.mem_cons] at h
      rcases h with rfl | h
      · simp [hv]
      · have := ih (k + 1) h
        simp only [List.length_cons]
        exact ⟨by omega, by omega, this.2.2⟩

theorem pairwise_mapBlock [DecidableEq α] (dflt : α) (k : Nat) (vs : List α) :
    (mapBlock dflt k vs).Pairwise (fun a b => a.1 < b.1) := by
  induction vs generalizing k with
  | nil => simp [mapBlock]
  | cons v vs ih =>
    by_cases hv : v = dflt
    · simpa [mapBlock, hv] using ih (k + 1)
    · simp only [mapBlock, hv, if_false, List.pairwise_cons]
      exact ⟨fun a ha => by have := mem_mapBlock dflt _ _ ha; show k < a.1; omega, ih (k + 1)⟩

/-- Writing consecutive values keeps the canonical form. -/
theorem mapWf_mapWrite [DecidableEq α] (dflt : α) {m : NMap α} (k : Nat) (vs : List α) (h : mapWf dflt m = true) :
    mapWf dflt (mapWrite dflt m k vs) = true := by
  rw [mapWf_iff] at *
  unfold mapWrite
  refine ⟨?_, ?_⟩
  · rw [List.pairwise_append, List.pairwise_append]
    refine ⟨h.1.filter _, ⟨pairwise_mapBlock dflt k vs, h.1.filter _, ?_⟩, ?_⟩
    · intro a ha b hb
      have := mem_mapBlock dflt k vs ha
      have hb' := List.mem_filter.1 hb
      have : k + vs.length ≤ b.1 := by simpa using hb'.2
      omega
    · intro a ha b hb
      have ha' : a.1 < k := by simpa using (List.mem_filter.1 ha).2
      rcases List.mem_append.1 hb with hb | hb
      · have := mem_mapBlock dflt k vs hb; omega
      · have : k + vs.length ≤ b.1 := by simpa using (List.mem_filter.1 hb).2
        omega
  · intro e he
    rcases List.mem_append.1 he with he | he
    · exact h.2 e (List.mem_of_mem_filter he)
    · rcases List.mem_append.1 he with he | he
      · exact (mem_mapBlock dflt k vs he).2.2
      · exact h.2 e (List.mem_of_mem_filter he)

/-- Writing consecutive words keeps the canonical form. -/
theorem mapWf_mapWriteWords [DecidableEq α] (dflt : α) {m : NMap α} (k : Nat) (vs : List α) (h : mapWf dflt m = true) :
    mapWf dflt (mapWriteWords dflt m k vs) = true := by
  induction vs generalizing m k with
  | nil => exact h
  | cons v vs ih => exact ih (k + 4) (mapWf_mapSet dflt k v h)

/-- The empty map is canonical. -/
theorem mapWf_nil [DecidableEq α] (dflt : α) : mapWf dflt ([] : NMap α) = true := rfl

/-! ## Reading after writing consecutive values -/

/-- A key that is not listed reads the default. -/
theorem mapGet_of_not_mem (dflt : α) (m : NMap α) {k : Nat} (h : ∀ e ∈ m, e.1 ≠ k) : mapGet dflt m k = dflt := by
  induction m with
  | nil => rfl
  | cons e m ih =>
    have he : k ≠ e.1 := fun x => h e (by simp) x.symm
    simp only [mapGet, he, if_false]
    exact ih fun e he => h e (by simp [he])

/-- A key that the first part does not list is read from the second. -/
theorem mapGet_append_of_not_mem (dflt : α) (m n : NMap α) {k : Nat} (h : ∀ e ∈ m, e.1 ≠ k) :
    mapGet dflt (m ++ n) k = mapGet dflt n k := by
  induction m with
  | nil => rfl
  | cons e m ih =>
    have he : k ≠ e.1 := fun x => h e (by simp) x.symm
    simp only [List.cons_append, mapGet, he, if_false]
    exact ih fun e he => h e (by simp [he])

/-- A key that the second part does not list is read from the first. -/
theorem mapGet_append_of_not_mem_right (dflt : α) (m n : NMap α) {k : Nat} (h : ∀ e ∈ n, e.1 ≠ k) :
    mapGet dflt (m ++ n) k = mapGet dflt m k := by
  induction m with
  | nil => exact mapGet_of_not_mem dflt n h
  | cons e m ih => simp only [List.cons_append, mapGet, ih]

/-- Dropping entries of other keys leaves a key's value. -/
theorem mapGet_filter (dflt : α) (m : NMap α) (p : Nat → Bool) {k : Nat} (h : p k = true) :
    mapGet dflt (m.filter (fun e => p e.1)) k = mapGet dflt m k := by
  induction m with
  | nil => rfl
  | cons e m ih =>
    by_cases he : k = e.1
    · subst he; simp [mapGet, h]
    · by_cases hp : p e.1 = true
      · simp [mapGet, he, hp, ih]
      · simp [mapGet, he, hp, ih]

theorem mapGet_mapBlock [DecidableEq α] (dflt : α) (k : Nat) (vs : List α) (i : Nat) (h : i < vs.length) :
    mapGet dflt (mapBlock dflt k vs) (k + i) = vs.getD i dflt := by
  induction vs generalizing k i with
  | nil => simp at h
  | cons v vs ih =>
    cases i with
    | zero =>
      by_cases hv : v = dflt
      · simp only [mapBlock, hv, if_true, Nat.add_zero, List.getD_cons_zero]
        exact mapGet_of_not_mem dflt _ fun e he => by have := mem_mapBlock dflt _ _ he; omega
      · simp [mapBlock, hv, mapGet]
    | succ i =>
      have e : k + (i + 1) = k + 1 + i := by omega
      have hi := ih (k + 1) i (by simpa using h)
      by_cases hv : v = dflt
      · simp only [mapBlock, hv, if_true, List.getD_cons_succ]; rw [e]; exact hi
      · simp only [mapBlock, hv, if_false, mapGet, List.getD_cons_succ]
        rw [if_neg (by omega), e]; exact hi

/-- Consecutive values that were written read back. -/
theorem mapGet_mapWrite_inside [DecidableEq α] (dflt : α) (m : NMap α) (k : Nat) (vs : List α) (i : Nat) (h : i < vs.length) :
    mapGet dflt (mapWrite dflt m k vs) (k + i) = vs.getD i dflt := by
  unfold mapWrite
  rw [mapGet_append_of_not_mem _ _ _ (by intro e he; have := (List.mem_filter.1 he).2; simp at this; omega),
    mapGet_append_of_not_mem_right _ _ _ (by intro e he; have := (List.mem_filter.1 he).2; simp at this; omega),
    mapGet_mapBlock dflt k vs i h]

/-- Every other key reads as before. -/
theorem mapGet_mapWrite_outside [DecidableEq α] (dflt : α) (m : NMap α) (k : Nat) (vs : List α) (a : Nat)
    (h : a < k ∨ k + vs.length ≤ a) : mapGet dflt (mapWrite dflt m k vs) a = mapGet dflt m a := by
  unfold mapWrite
  have hb : ∀ e ∈ mapBlock dflt k vs, e.1 ≠ a := fun e he => by have := mem_mapBlock dflt _ _ he; omega
  rcases h with h | h
  · rw [mapGet_append_of_not_mem_right, mapGet_filter dflt m (fun x => decide (x < k)) (by simpa using h)]
    intro e he
    rcases List.mem_append.1 he with he | he
    · exact hb e he
    · have := (List.mem_filter.1 he).2; simp at this; omega
  · rw [mapGet_append_of_not_mem _ _ _ (by intro e he; have := (List.mem_filter.1 he).2; simp at this; omega),
      mapGet_append_of_not_mem _ _ _ hb,
      mapGet_filter dflt m (fun x => decide (k + vs.length ≤ x)) (by simpa using h)]

/-- Consecutive words that were written read back. -/
theorem mapGet_mapWriteWords_inside [DecidableEq α] (dflt : α) (m : NMap α) (k : Nat) (vs : List α) (i : Nat)
    (h : i < vs.length) : mapGet dflt (mapWriteWords dflt m k vs) (k + 4 * i) = vs.getD i dflt := by
  have out : ∀ (vs : List α) (m : NMap α) (k a : Nat), a < k → mapGet dflt (mapWriteWords dflt m k vs) a = mapGet dflt m a := by
    intro vs
    induction vs with
    | nil => intro m k a _; rfl
    | cons v vs ih =>
      intro m k a h
      simp only [mapWriteWords]
      rw [ih _ _ _ (by omega), mapGet_mapSet_ne dflt m v (by omega)]
  induction vs generalizing m k i with
  | nil => simp at h
  | cons v vs ih =>
    simp only [mapWriteWords]
    cases i with
    | zero =>
      show mapGet dflt (mapWriteWords dflt (mapSet dflt m k v) (k + 4) vs) k = v
      rw [out _ _ _ _ (by omega), mapGet_mapSet_same]
    | succ i =>
      rw [show k + 4 * (i + 1) = k + 4 + 4 * i by omega, ih _ _ _ (by simpa using h)]; rfl

/-- Every other key reads as before. -/
theorem mapGet_mapWriteWords_outside [DecidableEq α] (dflt : α) (m : NMap α) (k : Nat) (vs : List α) (a : Nat)
    (h : ∀ i, i < vs.length → a ≠ k + 4 * i) : mapGet dflt (mapWriteWords dflt m k vs) a = mapGet dflt m a := by
  induction vs generalizing m k with
  | nil => rfl
  | cons v vs ih =>
    simp only [mapWriteWords]
    rw [ih (mapSet dflt m k v) (k + 4) fun i hi => by have := h (i + 1) (by simpa using hi); omega,
      mapGet_mapSet_ne dflt m v (by have := h 0 (by simp); omega)]

end Sys2Proof.Machine
end

