-- ==== Sys2Proof/Laws/Rows.lean ====
section
/-!
SUPPORT. What a row's outcome is once it is known to run: for rows of a running module, host writes, frames of the Lace and the
Shank that are taken, and commands at the front of a queue pair.
-/

namespace Sys2Proof.Machine

/-- A row of a module that runs answers a next state in which the device is what the row computes. -/
theorem State.withDev_of_runs (s : State) (d : Dev) (h : s.dev.halted = false) : s.withDev d = .next { s with dev := d } := by
  unfold State.withDev; simp [h]

/-- A row of a halted module changes nothing. -/
theorem State.withDev_of_halted (s : State) (d : Dev) (h : s.dev.halted = true) : s.withDev d = .next s := by
  unfold State.withDev; simp [h]

/-- A host write to a module that answers leaves DOZE and has its effect. -/
theorem State.onWrite_of_answers (s : State) (f : Dev → Dev) (h : s.dev.answers) :
    s.onWrite f = .next { s with dev := f s.dev.dozeExit } := by
  unfold State.onWrite State.withDev; simp [h.1, h.2]

/-- A row of a module that runs does what its operation gives. -/
theorem Does.of_withDev {c : Instr} {s : State} {d d' : Dev} (h : s.dev.halted = false) (e : exec c s = s.withDev d) (q : d = d') :
    Does c s d' := by
  unfold Does; rw [e, s.withDev_of_runs d h, q]

/-- A host write row does what its operation gives on the module out of DOZE. -/
theorem Does.of_onWrite {c : Instr} {s : State} {f : Dev → Dev} {d' : Dev} (h : s.dev.answers) (e : exec c s = s.onWrite f)
    (q : f s.dev.dozeExit = d') : Does c s d' := by
  unfold Does; rw [e, s.onWrite_of_answers f h, q]

/-- Refilling the bucket and taking from it leave a port's session key alone. -/
theorem Dev.refill_key (d : Dev) (b n : Nat) :
    (((d.refill b).setLs b { (d.refill b).ls b with bucket := n }).ls b).key = (d.ls b).key := by
  have e : ∀ (x : Dev) (y : LaceSt), (x.setLs b y).ls b = y := fun x y => mapGet_mapSet_same _ _ _ _
  rw [e]
  unfold Dev.refill
  rw [e]

/-- A Lace frame that is taken has the effect of its kind, with its body. -/
theorem Dev.laceRx_of_Frame {d d1 : Dev} {b kind : Nat} {bl : List Blk} {body : List Byte} (h : d.Frame b kind bl d1 body) :
    d.laceRx b bl = d1.nodeBody b kind body := by
  have hn : nodeType kind ≠ 0 ∧ nodeType kind ≤ 4 := by
    have hf := h.fits
    unfold laceFits at hf
    rw [h.kind_eq] at hf
    simp at hf
    refine ⟨fun e => by simp [e] at hf, ?_⟩
    unfold nodeType
    split
    · decide
    · split
      · decide
      · split <;> decide
  unfold Dev.laceRx
  have h1 := h.open_
  rw [if_neg (by rintro (a | a) <;> omega)]
  refine (if_neg (by have := h.room; omega)).trans ?_
  rw [h.blocks]
  refine (if_pos ⟨by omega, hn.2⟩).trans ?_
  unfold Dev.laceFrame
  rw [if_neg (by simp [h.crc]), h.taken, Dev.refill_key, if_neg (by simp), if_pos h.fits, h.kind_eq, ← h.body_eq]

/-- A row that brings a Lace frame does what the frame does. -/
theorem Does.of_Frame {c : Instr} {s : State} {b kind : Nat} {bl : List Blk} {d1 d' : Dev} {body : List Byte}
    (h : s.dev.Frame b kind bl d1 body) (hr : s.dev.halted = false) (e : exec c s = s.withDev (s.dev.laceRx b bl))
    (x : d1.nodeBody b kind body = d') : Does c s d' :=
  Does.of_withDev hr e ((Dev.laceRx_of_Frame h).trans x)

/-- A command that starts and passes its checks runs its body, and the entries behind it that name no command complete. -/
theorem Dev.runCmd_of_Starts {d : Dev} {q opc : Nat} {o : Out} {d1 : Dev} (h : d.Starts q opc o d1) (body : Dev → Out → Dev) :
    d.runCmd q opc body = (body d1 o).drain q := by
  unfold Dev.runCmd; simp [h.front, h.start, h.checks]

/-- The same for a command that a formed pair would match. -/
theorem Dev.runMatched_of_Starts {d : Dev} {q opc : Nat} {o : Out} {d1 : Dev} (h : d.Starts q opc o d1)
    (alone : (d1.pairOn && d1.formed) = false) (dma : Dma) (body : Dev → Out → Dev) :
    d.runMatched q opc dma body = (body d1 o).drain q := by
  unfold Dev.runMatched
  simp only [h.front, h.start, h.checks, alone]; simp

/-- A matched command that starts in a formed pair does what its body gives. -/
theorem Dev.runMatched_of_StartsMatched {d : Dev} {q opc : Nat} {dma : Dma} {o : Out} {d1 : Dev}
    (h : d.StartsMatched q opc dma o d1) (body : Dev → Out → Dev) :
    d.runMatched q opc dma body = (body d1 o).drain q := by
  obtain ⟨o0, d0, hs, hp, hr, he⟩ := h.begun
  obtain ⟨e1, e2⟩ := he _ _ _ _ rfl rfl rfl rfl
  have hc := h.checks
  unfold Dev.runMatched
  simp only [h.front, hs, hp, Bool.true_eq_false, if_false, if_true]
  refine (if_neg (show ¬ d0.role = 2 from hr)).trans ?_
  have gen : ∀ (x : Dev) (y : Out), x.cmdCheck q y.entry = none →
      (match x.cmdCheck q y.entry with | some st => x.complete y st 0 [] | none => body x y) = body x y := by
    intro x y h; rw [h]
  subst e1 e2
  exact congrArg (fun z => Dev.drain z q) (gen _ _ hc)

/-- A module on which a matched command starts runs. -/
theorem Dev.halted_of_Runs {d : Dev} {q opc : Nat} {dma : Dma} {o : Out} {d1 : Dev} (h : d.Runs q opc dma o d1) :
    d.halted = false := by
  rcases h with h | h
  · exact h.1.runs
  · exact h.runs

/-- A matched command that starts does what its body gives. -/
theorem Dev.runMatched_of_Runs {d : Dev} {q opc : Nat} {dma : Dma} {o : Out} {d1 : Dev} (h : d.Runs q opc dma o d1)
    (body : Dev → Out → Dev) : d.runMatched q opc dma body = (body d1 o).drain q := by
  rcases h with h | h
  · exact Dev.runMatched_of_Starts h.1 h.2 dma body
  · exact Dev.runMatched_of_StartsMatched h body

/-- A command row does what its body gives. -/
theorem Does.of_runCmd {c : Instr} {s : State} {q opc : Nat} {o : Out} {d1 d' : Dev} {body : Dev → Out → Dev}
    (h : s.dev.Starts q opc o d1) (e : exec c s = s.withDev (s.dev.runCmd q opc body)) (x : body d1 o = d') :
    Does c s (d'.drain q) := by
  rw [Dev.runCmd_of_Starts h, x] at e; exact Does.of_withDev h.runs e rfl

/-- A row of a command that a formed pair would match does what its body gives. -/
theorem Does.of_runMatched {c : Instr} {s : State} {q opc : Nat} {o : Out} {d1 d' : Dev} {dma : Dma} {body : Dev → Out → Dev}
    (h : s.dev.Runs q opc dma o d1) (e : exec c s = s.withDev (s.dev.runMatched q opc dma body)) (x : body d1 o = d') :
    Does c s (d'.drain q) := by
  rw [Dev.runMatched_of_Runs h, x] at e; exact Does.of_withDev (Dev.halted_of_Runs h) e rfl

/-- A Shank frame that is heard has the effect of its bytes. -/
theorem Dev.shankRx_of_hears {d : Dev} {kind : Nat} {bl : List Blk} (h : d.hears kind bl) :
    d.shankRx bl = d.shankFrame (bytesOf bl) := by
  obtain ⟨a1, a2, a3, a4, -⟩ := h
  unfold Dev.shankRx
  rw [if_neg (by simp [a1, a2]), a3]
  simp [a4]

/-- A heartbeat that is heard. -/
theorem Dev.shankRx_heartbeat {d : Dev} {bl : List Blk} (h : d.hears 2 bl) :
    d.shankRx bl = d.hbFrame (epochOf bl) (bodyOf bl) := by
  rw [Dev.shankRx_of_hears h]
  unfold Dev.shankFrame
  simp [h.2.2.2.2, epochOf, bodyOf]

/-- A STATE frame that is heard and whose SEQ counts. -/
theorem Dev.shankRx_state {d : Dev} {bl : List Blk} (h : d.hears 9 bl)
    (c : ((d.seeEpoch (epochOf bl)).shankSeq (seqOf bl)).2 = true) :
    d.shankRx bl = ((d.seeEpoch (epochOf bl)).shankSeq (seqOf bl)).1.stateFrame (bitOf (byteAt (bytesOf bl) 1) 0) (bodyOf bl) := by
  rw [Dev.shankRx_of_hears h]
  unfold Dev.shankFrame
  simp only [h.2.2.2.2]
  unfold epochOf seqOf at c
  simp [c, epochOf, bodyOf, seqOf]

/-- A Shank frame that is taken whole has the effect of its kind, with its whole body. -/
theorem Dev.shankRx_of_Shank {d d1 : Dev} {kind : Nat} {bl : List Blk} {body : List Byte} (h : d.Shank kind bl d1 body)
    (hk : kind ≠ 0 ∧ kind ≤ 0xD ∧ kind ≠ 2 ∧ kind ≠ 9) : d.shankRx bl = Dev.shankBody kind d1 body := by
  obtain ⟨hh, hc, hl, e⟩ := h
  rw [Dev.shankRx_of_hears hh]
  have hkind := hh.2.2.2.2
  unfold epochOf seqOf bodyOf at *
  obtain ⟨e1, e2⟩ := e _ rfl
  unfold Dev.shankFrame Dev.shankWhole
  simp only [hkind]
  rw [if_neg hk.2.2.1, if_neg (by omega), if_neg (by simp [hc]), if_neg hk.2.2.2]
  simp only [hl]
  rw [e1, e2]
  simp

/-- A row that brings a Shank frame does what the frame does. -/
theorem Does.of_Shank {c : Instr} {s : State} {kind : Nat} {bl : List Blk} {d1 d' : Dev} {body : List Byte}
    (h : s.dev.Shank kind bl d1 body) (hr : s.dev.halted = false) (hk : kind ≠ 0 ∧ kind ≤ 0xD ∧ kind ≠ 2 ∧ kind ≠ 9)
    (e : exec c s = s.withDev (s.dev.shankRx bl)) (x : Dev.shankBody kind d1 body = d') : Does c s d' :=
  Does.of_withDev hr e ((Dev.shankRx_of_Shank h hk).trans x)

/-- The device after a command row is what the row does. -/
theorem Dev.after_of_Does {c : Instr} {s : State} {d : Dev} (h : Does c { s with pending := [] } d) : s.dev.after c = d := by
  unfold Does at h
  unfold Dev.after
  rw [show ({ dev := s.dev } : State) = { s with pending := [] } from rfl, h]

end Sys2Proof.Machine
end

