-- ==== Sys2Proof/Laws/Wire.lean ====
section
/-!
SUPPORT. The 64b/66b layer loses nothing: the descrambler gives back what was scrambled (R271), and the blocks of a frame give back its
TYPE and its bytes (R275).
-/

namespace Sys2Proof.Machine

/-- Descrambling what was scrambled from the same register gives the bits back. -/
theorem descramble_scramble (bits : List Bool) (s : Nat) : descramble s (scramble s bits) = bits := by
  induction bits generalizing s with
  | nil => rfl
  | cons b r ih =>
    simp only [scramble, descramble, ih]
    cases b <;> cases scrTap s <;> rfl

/-- The bytes of a number below 2^64 as eight bytes are the eight bytes it was made of. -/
theorem leBytes_leNat (bs : List Byte) : leBytes bs.length (leNat bs) = bs := by
  induction bs with
  | nil => rfl
  | cons b r ih =>
    have h : (b.toNat + 256 * leNat r) / 256 = leNat r := by have := b.isLt; omega
    simp only [List.length_cons, leNat, leBytes, h, ih]
    congr 1
    exact BitVec.eq_of_toNat_eq (by have := b.isLt; simp; omega)

/-- A group of bytes as a number. -/
theorem leNat_lt (bs : List Byte) : leNat bs < 256 ^ bs.length := by
  induction bs with
  | nil => simp [leNat]
  | cons b r ih => have := b.isLt; simp only [leNat, List.length_cons, Nat.pow_succ]; omega

/-- Data blocks and an end are kept whole, and give their bytes back. -/
theorem frame_dataBlocks (n : Nat) (bs : List Byte) (h : bs.length = 8 * n) :
    frameBlocks 0 (dataBlocks bs ++ [.control BLK_EOF 0]) = some (dataBlocks bs ++ [.control BLK_EOF 0]) ∧
      frameBytes (dataBlocks bs ++ [.control BLK_EOF 0]) = some bs := by
  induction n generalizing bs with
  | zero => obtain rfl : bs = [] := List.length_eq_zero_iff.1 h; exact ⟨rfl, rfl⟩
  | succ n ih =>
    match bs, h with
    | a :: b :: c :: d :: e :: f :: g :: k :: r, h =>
      obtain ⟨h1, h2⟩ := ih r (by simp at h; omega)
      have hw : leNat [a, b, c, d, e, f, g, k] < 2 ^ 64 := by
        have := leNat_lt [a, b, c, d, e, f, g, k]
        norm_num at this ⊢
        exact this
      have hv : leBytes 8 (leNat [a, b, c, d, e, f, g, k]) = [a, b, c, d, e, f, g, k] := leBytes_leNat [a, b, c, d, e, f, g, k]
      refine ⟨?_, ?_⟩
      · simp only [dataBlocks, List.cons_append, frameBlocks, h1, Option.map_some]
      · simp only [dataBlocks, List.cons_append, frameBytes, h2, BitVec.toNat_ofNat, Nat.mod_eq_of_lt hw, hv, Option.map_some,
          List.nil_append]
    | [], h => simp at h
    | [_], h => simp at h; omega
    | [_, _], h => simp at h; omega
    | [_, _, _], h => simp at h; omega
    | [_, _, _, _], h => simp at h; omega
    | [_, _, _, _, _], h => simp at h; omega
    | [_, _, _, _, _, _], h => simp at h; omega
    | [_, _, _, _, _, _, _], h => simp at h; omega

/-- What is put into blocks comes out of them. -/
theorem deframe_enframe (type : Nat) (bs : List Byte) (n : Nat) (ht : type < 256) (h : bs.length = 8 * n) :
    deframe (enframe type bs) = some (type, bs) := by
  obtain ⟨h1, h2⟩ := frame_dataBlocks n bs h
  have hm : type % 256 % 2 ^ 56 % 256 = type := by omega
  have h0 : frameBlocks 0 (enframe type bs) =
      some (.control BLK_SOF (BitVec.ofNat 56 (type % 256)) :: (dataBlocks bs ++ [.control BLK_EOF 0])) := by
    simp only [enframe, frameBlocks, h1]
    rfl
  unfold deframe
  rw [h0]
  simp only [if_true, h2, BitVec.toNat_ofNat, hm, Option.map_some]

end Sys2Proof.Machine
end

