-- ==== Sys2Proof/Laws/Frames.lean ====
section
/-!
SUPPORT. A frame as a node sends it is taken: its tag, its CRC and its header read back as they were written (R283, R284, R298-R300).
-/

namespace Sys2Proof.Machine

/-! ## The tag has 16 bytes -/

theorem xorNats_length (a b : List Nat) : (xorNats a b).length = min a.length b.length := by simp [xorNats]

theorem nextKey_length (r : Nat) (k : List Nat) (h : k.length = 16) : (nextKey r k).length = 16 := by
  simp [nextKey, xorNats_length, h]

theorem mixCols_length (m : Nat) (s : List Nat) (h : s.length = 4 * m) : (mixCols s).length = 4 * m := by
  induction m generalizing s with
  | zero => obtain rfl : s = [] := List.length_eq_zero_iff.1 h; rfl
  | succ m ih =>
    match s, h with
    | a :: b :: c :: d :: r, h =>
      have := ih r (by simp at h; omega)
      simp [mixCols, mixCol, this]; omega
    | [], h => simp at h
    | [_], h => simp at h; omega
    | [_, _], h => simp at h; omega
    | [_, _, _], h => simp at h; omega

theorem aesRounds_length (n r : Nat) (k s : List Nat) (hk : k.length = 16) (hs : s.length = 16) : (aesRounds n r k s).length = 16 := by
  induction n generalizing r k s with
  | zero => exact hs
  | succ n ih =>
    have h1 := nextKey_length r k hk
    have h2 : (shiftRows (s.map subByte)).length = 16 := by simp [shiftRows]
    refine ih _ _ _ h1 ?_
    split
    · simp [xorNats_length, h1, h2]
    · simp [xorNats_length, h1, mixCols_length 4 _ h2]

theorem aesBlock_length (k x : List Nat) (hk : k.length = 16) (hx : x.length = 16) : (aesBlock k x).length = 16 :=
  aesRounds_length _ _ _ _ hk (by simp [xorNats_length, hk, hx])

theorem cmacSub_length (b : List Nat) (h : b.length = 16) : (cmacSub b).length = 16 := by
  simp only [cmacSub]
  split <;> simp [shiftBlock, h]

theorem cmacRun_length (key k1 k2 : List Nat) (hk : key.length = 16) (h1 : k1.length = 16) (h2 : k2.length = 16) (n : Nat)
    (x m : List Nat) (hx : x.length = 16) : (cmacRun key k1 k2 n x m).length = 16 := by
  induction n generalizing x m with
  | zero => exact hx
  | succ n ih =>
    unfold cmacRun
    split
    · exact ih _ _ (aesBlock_length _ _ hk (by simp [xorNats_length, hx]; omega))
    · split
      · exact aesBlock_length _ _ hk (by simp [xorNats_length, hx, h1]; omega)
      · exact aesBlock_length _ _ hk (by simp [xorNats_length, hx, h2]; omega)

theorem aesCmac_length (key msg : List Byte) (h : key.length = 16) : (aesCmac key msg).length = 16 := by
  have hk : (key.map BitVec.toNat).length = 16 := by simp [h]
  have h1 := cmacSub_length _ (aesBlock_length (key.map BitVec.toNat) (List.replicate 16 0) hk (by simp))
  simp only [aesCmac, List.length_map]
  exact cmacRun_length _ _ _ hk h1 (cmacSub_length _ h1) _ _ _ (by simp)

/-! ## A check sum has 32 bits -/

theorem crcBit_lt (c : Nat) (h : c < 2 ^ 32) : crcBit c < 2 ^ 32 := by
  unfold crcBit
  split
  · exact Nat.xor_lt_two_pow (by omega) (by decide)
  · omega

theorem crcByte_lt (c : Nat) (b : Byte) (h : c < 2 ^ 32) : crcByte c b.toNat < 2 ^ 32 := by
  have hx : Nat.xor c b.toNat < 2 ^ 32 := Nat.xor_lt_two_pow h (by have := b.isLt; omega)
  unfold crcByte
  exact crcBit_lt _ (crcBit_lt _ (crcBit_lt _ (crcBit_lt _ (crcBit_lt _ (crcBit_lt _ (crcBit_lt _ (crcBit_lt _ hx)))))))

theorem crc32c_lt (bs : List Byte) : crc32c bs < 256 ^ 4 := by
  have h : ∀ c, c < 2 ^ 32 → crcRun c bs < 2 ^ 32 := by
    induction bs with
    | nil => exact fun c h => h
    | cons b r ih => exact fun c h => ih _ (crcByte_lt c b h)
  exact Nat.xor_lt_two_pow (n := 32) (h _ (by decide)) (by decide)

/-! ## What a frame's bytes read -/

@[simp] theorem leBytes_length (n v : Nat) : (leBytes n v).length = n := by
  induction n generalizing v with
  | zero => rfl
  | succ n ih => simp [leBytes, ih]

theorem leNat_leBytes (n v : Nat) : leNat (leBytes n v) = v % 256 ^ n := by
  induction n generalizing v with
  | zero => simp [leBytes, leNat, Nat.mod_one]
  | succ n ih =>
    have h : (BitVec.ofNat 8 v).toNat = v % 256 := by simp
    rw [leBytes, leNat, ih, h, Nat.pow_succ, Nat.mul_comm (256 ^ n) 256, Nat.mod_mul]

/-- A field of a byte string: what stands before it is skipped, what stands after it is not read. -/
theorem numAt_field (a c : List Byte) (o n v : Nat) (h : a.length = o) : numAt (a ++ (leBytes n v ++ c)) o n = v % 256 ^ n := by
  subst h
  simp [numAt, leNat_leBytes]

theorem zeroAt_field (a c : List Byte) (o n : Nat) (h : a.length = o) : zeroAt (a ++ (leBytes n 0 ++ c)) o n = true := by
  subst h
  have : ∀ x ∈ leBytes n 0, x = 0 := by
    induction n with
    | zero => simp [leBytes]
    | succ n ih => simpa [leBytes] using ih
  simpa [zeroAt] using this

/-- A frame's bytes, field by field. -/
theorem laceFrameBytes_eq (kind : Nat) (t : Bool) (seq : Nat) (body tag : List Byte) :
    laceFrameBytes kind t seq body tag = laceHead kind t body.length seq ++ (body ++ (tag ++
      (leBytes 4 (crc32c (laceHead kind t body.length seq ++ body ++ tag)) ++ leBytes 4 0))) := by
  simp [laceFrameBytes, List.append_assoc]

theorem laceHead_length (kind : Nat) (t : Bool) (n seq : Nat) : (laceHead kind t n seq).length = 16 := by simp [laceHead]

/-- The header of a frame reads back. -/
theorem laceHead_reads (kind : Nat) (t : Bool) (n seq : Nat) (r : List Byte) (hk : kind < 256) (hn : n < 65536) (hs : seq < 2 ^ 64) :
    byteAt (laceHead kind t n seq ++ r) 0 = kind ∧ byteAt (laceHead kind t n seq ++ r) 1 = b2n t ∧
      numAt (laceHead kind t n seq ++ r) 2 2 = n ∧ zeroAt (laceHead kind t n seq ++ r) 4 4 = true ∧
      numAt (laceHead kind t n seq ++ r) 8 8 = seq := by
  have e : laceHead kind t n seq ++ r =
      leBytes 1 kind ++ (leBytes 1 (b2n t) ++ (leBytes 2 n ++ (leBytes 4 0 ++ (leBytes 8 seq ++ r)))) := by
    simp [laceHead, List.append_assoc]
  rw [e]
  refine ⟨?_, ?_, ?_, ?_, ?_⟩
  · simp [byteAt, leBytes]; omega
  · cases t <;> simp [byteAt, leBytes, b2n]
  · rw [← List.append_assoc]
    exact (numAt_field _ _ 2 2 n (by simp)).trans (Nat.mod_eq_of_lt hn)
  · rw [← List.append_assoc, ← List.append_assoc]
    exact zeroAt_field _ _ 4 4 (by simp)
  · rw [← List.append_assoc, ← List.append_assoc, ← List.append_assoc]
    exact (numAt_field _ _ 8 8 seq (by simp)).trans (Nat.mod_eq_of_lt (by omega))

/-- What a sent frame gives back: its TYPE, its bytes, and its size on the lane. -/
theorem deframe_sent (kind : Nat) (t : Bool) (seq m : Nat) (body tag : List Byte) (hb : body.length = 8 * m) (ht : tag.length = 16) :
    let bl := enframe (nodeType kind) (laceFrameBytes kind t seq body tag)
    deframe bl = some (nodeType kind, laceFrameBytes kind t seq body tag) ∧ frameSize bl = body.length + 56 := by
  intro bl
  have hlen : (laceFrameBytes kind t seq body tag).length = 8 * (m + 5) := by
    simp [laceFrameBytes, laceHead, ht, hb]; omega
  have hty : nodeType kind < 256 := by
    have : nodeType kind ≤ 4 := by unfold nodeType; split_ifs <;> omega
    omega
  have hbl : deframe bl = some (nodeType kind, laceFrameBytes kind t seq body tag) := deframe_enframe _ _ _ hty hlen
  exact ⟨hbl, by simp only [frameSize, hbl, hlen, hb]; omega⟩

/-- The frame that a node sends on port b, tagged once the session key exists, is taken, and its body is the body that was sent
(R283, R284, R298, R299). -/
theorem Dev.frame_of_sent {d : Dev} {b kind seq : Nat} {body tag : List Byte} {m : Nat}
    (hopen : 2 ≤ d.portState b ∧ d.portState b ≠ 7) (hnode : nodeType kind ≠ 0) (hkind : kind < 256)
    (hbody : body.length = 8 * m) (hshort : body.length < 65536) (hseq : seq < 2 ^ 64)
    (htag : tag.length = 16)
    (hkey : ∀ k, (d.ls b).key = some k → tag = aesCmac k (laceHead kind true body.length seq ++ body))
    (hmay : (d.ls b).key.isSome = true ∨ kind = 0x81 ∨ kind = 0x82)
    (hsize : ∀ n, bodySize kind = some n → body.length = n) (hzero : bodyZero kind body = true)
    (hroom : 16 * (body.length + 56) ≤ ((d.refill b).ls b).bucket)
    (hlast : ((d.refill b).ls b).rxSeq < seq) :
    let bl := enframe (nodeType kind) (laceFrameBytes kind (d.ls b).key.isSome seq body tag)
    let x := { (d.refill b).ls b with bucket := ((d.refill b).ls b).bucket - 16 * frameSize bl }
    d.Frame b kind bl
      (((d.refill b).setLs b x).setLs b { x with rxSeq := seq, seqGaps := x.seqGaps + b2n (decide (x.rxSeq + 1 < seq)) }) body := by
  intro bl x
  have hlen : (laceFrameBytes kind (d.ls b).key.isSome seq body tag).length = 8 * (m + 5) := by
    simp [laceFrameBytes, laceHead, htag, hbody]; omega
  have hbl : deframe bl = some (nodeType kind, laceFrameBytes kind (d.ls b).key.isSome seq body tag) :=
    (deframe_sent kind _ seq m body tag hbody htag).1
  have hsz : frameSize bl = body.length + 56 := (deframe_sent kind _ seq m body tag hbody htag).2
  have hbytes : bytesOf bl = laceFrameBytes kind (d.ls b).key.isSome seq body tag := by simp only [bytesOf, hbl]
  have hls : ((d.refill b).setLs b x).ls b = x := mapGet_mapSet_same _ _ _ _
  have hxk : x.key = (d.ls b).key := by
    have := Dev.refill_key d b x.bucket
    rw [← this]
    exact congrArg LaceSt.key hls.symm
  have hf := laceFrameBytes_eq kind (d.ls b).key.isSome seq body tag
  generalize hc : crc32c (laceHead kind (d.ls b).key.isSome body.length seq ++ body ++ tag) = c at hf
  have hcl : c < 256 ^ 4 := by subst hc; exact crc32c_lt _
  obtain ⟨r0, r1, r2, r3, r4⟩ := laceHead_reads kind (d.ls b).key.isSome body.length seq (body ++ (tag ++ (leBytes 4 c ++ leBytes 4 0)))
    hkind hshort hseq
  rw [← hf] at r0 r1 r2 r3 r4
  have hhl := laceHead_length kind (d.ls b).key.isSome body.length seq
  generalize hh : laceHead kind (d.ls b).key.isSome body.length seq = hd at *
  generalize hF : laceFrameBytes kind (d.ls b).key.isSome seq body tag = f at *
  have t1 : f.take (16 + body.length) = hd ++ body := by
    rw [hf, ← List.append_assoc]; exact List.take_left' (by simp [hhl])
  have t2 : f.take (32 + body.length) = hd ++ body ++ tag := by
    rw [hf, ← List.append_assoc, ← List.append_assoc]; exact List.take_left' (by simp [hhl, htag]; omega)
  have t3 : (f.drop 16).take body.length = body := by
    rw [hf, List.drop_left' hhl]; exact List.take_left' rfl
  have t4 : (f.drop (16 + body.length)).take 16 = tag := by
    rw [hf, ← List.append_assoc, List.drop_left' (by simp [hhl])]; exact List.take_left' htag
  have t5 : numAt f (32 + body.length) 4 = c := by
    rw [hf, ← List.append_assoc, ← List.append_assoc]
    exact (numAt_field _ _ _ 4 c (by simp [hhl, htag]; omega)).trans (Nat.mod_eq_of_lt hcl)
  have t6 : zeroAt f (36 + body.length) 4 = true := by
    have e : hd ++ (body ++ (tag ++ (leBytes 4 c ++ leBytes 4 0))) = (hd ++ (body ++ (tag ++ leBytes 4 c))) ++ (leBytes 4 0 ++ []) := by
      simp [List.append_assoc]
    rw [hf, e]; exact zeroAt_field _ _ _ 4 (by simp [hhl, htag]; omega)
  refine ⟨hopen, by rw [hsz]; exact hroom, by rw [hbl, hbytes], ?_, ?_, ?_, by rw [hbytes, r0], ?_⟩
  · have e : f.length = 40 + body.length := by rw [hlen, hbody]; omega
    simp [laceCrcOk, hbytes, r2, e, t2, t5, ← hc]
  · have ht : (match x.key with | some k => !bitOf (byteAt f 1) 0 || tag != aesCmac k (f.take (16 + body.length)) | none => bitOf (byteAt f 1) 0) = false := by
      rw [hxk, r1, t1]
      cases hk : (d.ls b).key with
      | none => rfl
      | some k =>
        have := hkey k hk
        rw [hk] at hh
        simp at hh
        have e : bitOf (b2n true) 0 = true := rfl
        simp [e, this, hh]
    have hsq : ¬seq ≤ x.rxSeq := Nat.not_le.2 hlast
    have hd : ∀ y : Dev, y.ls b = x → y.tagSeq b f =
        (y.setLs b { x with rxSeq := seq, seqGaps := x.seqGaps + b2n (decide (x.rxSeq + 1 < seq)) }, true) := by
      intro y hy
      unfold Dev.tagSeq
      simp only [hy, r2, r4, t4]
      exact (if_neg (fun e => Bool.noConfusion (ht.symm.trans e))).trans (if_neg hsq)
    rw [hbytes]
    exact hd _ hls
  · rw [hbytes, r2, t3]
  · have hb1 : byteAt f 1 < 2 := by rw [r1]; cases (d.ls b).key.isSome <;> decide
    have hm : ((d.ls b).key.isSome || kind == 0x81 || kind == 0x82) = true := by
      rcases hmay with h | h | h <;> simp [h]
    rw [hbytes]
    unfold laceFits
    simp only [r0, r2, t3, r3, t6, hzero, hb1, hm]
    cases h : bodySize kind with
    | none => simp [hnode]
    | some n => simp [hnode, hsize n h]

end Sys2Proof.Machine
end

