-- ==== Sys2Proof/Laws/State.lean ====
section
/-!
SUPPORT. One lemma for each field of the module and each named update that leaves it alone, true by unfolding, so that a
proof need not unfold a record update.
-/

namespace Sys2Proof.Machine

/-! ## `Dev.wr` -/

@[simp] theorem Dev.wr_tc (d : Dev) (a v : Nat) : (d.wr a v).tc = d.tc := rfl
@[simp] theorem Dev.wr_log (d : Dev) (a v : Nat) : (d.wr a v).log = d.log := rfl
@[simp] theorem Dev.wr_host (d : Dev) (a v : Nat) : (d.wr a v).host = d.host := rfl
@[simp] theorem Dev.wr_cfg (d : Dev) (a v : Nat) : (d.wr a v).cfg = d.cfg := rfl
@[simp] theorem Dev.wr_job (d : Dev) (a v : Nat) : (d.wr a v).job = d.job := rfl
@[simp] theorem Dev.wr_strip (d : Dev) (a v : Nat) : (d.wr a v).strip = d.strip := rfl
@[simp] theorem Dev.wr_rast (d : Dev) (a v : Nat) : (d.wr a v).rast = d.rast := rfl
@[simp] theorem Dev.wr_fire (d : Dev) (a v : Nat) : (d.wr a v).fire = d.fire := rfl
@[simp] theorem Dev.wr_lace (d : Dev) (a v : Nat) : (d.wr a v).lace = d.lace := rfl
@[simp] theorem Dev.wr_pair (d : Dev) (a v : Nat) : (d.wr a v).pair = d.pair := rfl
@[simp] theorem Dev.wr_pos (d : Dev) (a v : Nat) : (d.wr a v).pos = d.pos := rfl
@[simp] theorem Dev.wr_mem (d : Dev) (a v : Nat) : (d.wr a v).mem = d.mem := rfl
@[simp] theorem Dev.wr_safe (d : Dev) (a v : Nat) : (d.wr a v).safe = d.safe := rfl
@[simp] theorem Dev.wr_cam (d : Dev) (a v : Nat) : (d.wr a v).cam = d.cam := rfl
@[simp] theorem Dev.wr_loop (d : Dev) (a v : Nat) : (d.wr a v).loop = d.loop := rfl
@[simp] theorem Dev.wr_time (d : Dev) (a v : Nat) : (d.wr a v).time = d.time := rfl
@[simp] theorem Dev.wr_net (d : Dev) (a v : Nat) : (d.wr a v).net = d.net := rfl
@[simp] theorem Dev.wr_lane (d : Dev) (a v : Nat) : (d.wr a v).lane = d.lane := rfl
@[simp] theorem Dev.wr_pwr (d : Dev) (a v : Nat) : (d.wr a v).pwr = d.pwr := rfl
@[simp] theorem Dev.wr_hlth (d : Dev) (a v : Nat) : (d.wr a v).hlth = d.hlth := rfl
@[simp] theorem Dev.wr_tx (d : Dev) (a v : Nat) : (d.wr a v).tx = d.tx := rfl
@[simp] theorem Dev.wr_ctl (d : Dev) (a v : Nat) : (d.wr a v).ctl = d.ctl := rfl
@[simp] theorem Dev.wr_visUse (d : Dev) (a v : Nat) : (d.wr a v).visUse = d.visUse := rfl
@[simp] theorem Dev.wr_freeCtr (d : Dev) (a v : Nat) : (d.wr a v).freeCtr = d.freeCtr := rfl

/-! ## `Dev.wrF` -/

@[simp] theorem Dev.wrF_tc (d : Dev) (a lo n v : Nat) : (d.wrF a lo n v).tc = d.tc :=
  Dev.wr_tc d a _
@[simp] theorem Dev.wrF_log (d : Dev) (a lo n v : Nat) : (d.wrF a lo n v).log = d.log :=
  Dev.wr_log d a _
@[simp] theorem Dev.wrF_host (d : Dev) (a lo n v : Nat) : (d.wrF a lo n v).host = d.host :=
  Dev.wr_host d a _
@[simp] theorem Dev.wrF_cfg (d : Dev) (a lo n v : Nat) : (d.wrF a lo n v).cfg = d.cfg :=
  Dev.wr_cfg d a _
@[simp] theorem Dev.wrF_job (d : Dev) (a lo n v : Nat) : (d.wrF a lo n v).job = d.job :=
  Dev.wr_job d a _
@[simp] theorem Dev.wrF_strip (d : Dev) (a lo n v : Nat) : (d.wrF a lo n v).strip = d.strip :=
  Dev.wr_strip d a _
@[simp] theorem Dev.wrF_rast (d : Dev) (a lo n v : Nat) : (d.wrF a lo n v).rast = d.rast :=
  Dev.wr_rast d a _
@[simp] theorem Dev.wrF_fire (d : Dev) (a lo n v : Nat) : (d.wrF a lo n v).fire = d.fire :=
  Dev.wr_fire d a _
@[simp] theorem Dev.wrF_lace (d : Dev) (a lo n v : Nat) : (d.wrF a lo n v).lace = d.lace :=
  Dev.wr_lace d a _
@[simp] theorem Dev.wrF_pair (d : Dev) (a lo n v : Nat) : (d.wrF a lo n v).pair = d.pair :=
  Dev.wr_pair d a _
@[simp] theorem Dev.wrF_pos (d : Dev) (a lo n v : Nat) : (d.wrF a lo n v).pos = d.pos :=
  Dev.wr_pos d a _
@[simp] theorem Dev.wrF_mem (d : Dev) (a lo n v : Nat) : (d.wrF a lo n v).mem = d.mem :=
  Dev.wr_mem d a _
@[simp] theorem Dev.wrF_safe (d : Dev) (a lo n v : Nat) : (d.wrF a lo n v).safe = d.safe :=
  Dev.wr_safe d a _
@[simp] theorem Dev.wrF_cam (d : Dev) (a lo n v : Nat) : (d.wrF a lo n v).cam = d.cam :=
  Dev.wr_cam d a _
@[simp] theorem Dev.wrF_loop (d : Dev) (a lo n v : Nat) : (d.wrF a lo n v).loop = d.loop :=
  Dev.wr_loop d a _
@[simp] theorem Dev.wrF_time (d : Dev) (a lo n v : Nat) : (d.wrF a lo n v).time = d.time :=
  Dev.wr_time d a _
@[simp] theorem Dev.wrF_net (d : Dev) (a lo n v : Nat) : (d.wrF a lo n v).net = d.net :=
  Dev.wr_net d a _
@[simp] theorem Dev.wrF_lane (d : Dev) (a lo n v : Nat) : (d.wrF a lo n v).lane = d.lane :=
  Dev.wr_lane d a _
@[simp] theorem Dev.wrF_pwr (d : Dev) (a lo n v : Nat) : (d.wrF a lo n v).pwr = d.pwr :=
  Dev.wr_pwr d a _
@[simp] theorem Dev.wrF_hlth (d : Dev) (a lo n v : Nat) : (d.wrF a lo n v).hlth = d.hlth :=
  Dev.wr_hlth d a _
@[simp] theorem Dev.wrF_tx (d : Dev) (a lo n v : Nat) : (d.wrF a lo n v).tx = d.tx :=
  Dev.wr_tx d a _
@[simp] theorem Dev.wrF_ctl (d : Dev) (a lo n v : Nat) : (d.wrF a lo n v).ctl = d.ctl :=
  Dev.wr_ctl d a _
@[simp] theorem Dev.wrF_visUse (d : Dev) (a lo n v : Nat) : (d.wrF a lo n v).visUse = d.visUse :=
  Dev.wr_visUse d a _
@[simp] theorem Dev.wrF_freeCtr (d : Dev) (a lo n v : Nat) : (d.wrF a lo n v).freeCtr = d.freeCtr :=
  Dev.wr_freeCtr d a _

/-! ## `Dev.wrBit` -/

@[simp] theorem Dev.wrBit_tc (d : Dev) (a i : Nat) (b : Bool) : (d.wrBit a i b).tc = d.tc :=
  Dev.wrF_tc d a i 1 _
@[simp] theorem Dev.wrBit_log (d : Dev) (a i : Nat) (b : Bool) : (d.wrBit a i b).log = d.log :=
  Dev.wrF_log d a i 1 _
@[simp] theorem Dev.wrBit_host (d : Dev) (a i : Nat) (b : Bool) : (d.wrBit a i b).host = d.host :=
  Dev.wrF_host d a i 1 _
@[simp] theorem Dev.wrBit_cfg (d : Dev) (a i : Nat) (b : Bool) : (d.wrBit a i b).cfg = d.cfg :=
  Dev.wrF_cfg d a i 1 _
@[simp] theorem Dev.wrBit_job (d : Dev) (a i : Nat) (b : Bool) : (d.wrBit a i b).job = d.job :=
  Dev.wrF_job d a i 1 _
@[simp] theorem Dev.wrBit_strip (d : Dev) (a i : Nat) (b : Bool) : (d.wrBit a i b).strip = d.strip :=
  Dev.wrF_strip d a i 1 _
@[simp] theorem Dev.wrBit_rast (d : Dev) (a i : Nat) (b : Bool) : (d.wrBit a i b).rast = d.rast :=
  Dev.wrF_rast d a i 1 _
@[simp] theorem Dev.wrBit_fire (d : Dev) (a i : Nat) (b : Bool) : (d.wrBit a i b).fire = d.fire :=
  Dev.wrF_fire d a i 1 _
@[simp] theorem Dev.wrBit_lace (d : Dev) (a i : Nat) (b : Bool) : (d.wrBit a i b).lace = d.lace :=
  Dev.wrF_lace d a i 1 _
@[simp] theorem Dev.wrBit_pair (d : Dev) (a i : Nat) (b : Bool) : (d.wrBit a i b).pair = d.pair :=
  Dev.wrF_pair d a i 1 _
@[simp] theorem Dev.wrBit_pos (d : Dev) (a i : Nat) (b : Bool) : (d.wrBit a i b).pos = d.pos :=
  Dev.wrF_pos d a i 1 _
@[simp] theorem Dev.wrBit_mem (d : Dev) (a i : Nat) (b : Bool) : (d.wrBit a i b).mem = d.mem :=
  Dev.wrF_mem d a i 1 _
@[simp] theorem Dev.wrBit_safe (d : Dev) (a i : Nat) (b : Bool) : (d.wrBit a i b).safe = d.safe :=
  Dev.wrF_safe d a i 1 _
@[simp] theorem Dev.wrBit_cam (d : Dev) (a i : Nat) (b : Bool) : (d.wrBit a i b).cam = d.cam :=
  Dev.wrF_cam d a i 1 _
@[simp] theorem Dev.wrBit_loop (d : Dev) (a i : Nat) (b : Bool) : (d.wrBit a i b).loop = d.loop :=
  Dev.wrF_loop d a i 1 _
@[simp] theorem Dev.wrBit_time (d : Dev) (a i : Nat) (b : Bool) : (d.wrBit a i b).time = d.time :=
  Dev.wrF_time d a i 1 _
@[simp] theorem Dev.wrBit_net (d : Dev) (a i : Nat) (b : Bool) : (d.wrBit a i b).net = d.net :=
  Dev.wrF_net d a i 1 _
@[simp] theorem Dev.wrBit_lane (d : Dev) (a i : Nat) (b : Bool) : (d.wrBit a i b).lane = d.lane :=
  Dev.wrF_lane d a i 1 _
@[simp] theorem Dev.wrBit_pwr (d : Dev) (a i : Nat) (b : Bool) : (d.wrBit a i b).pwr = d.pwr :=
  Dev.wrF_pwr d a i 1 _
@[simp] theorem Dev.wrBit_hlth (d : Dev) (a i : Nat) (b : Bool) : (d.wrBit a i b).hlth = d.hlth :=
  Dev.wrF_hlth d a i 1 _
@[simp] theorem Dev.wrBit_tx (d : Dev) (a i : Nat) (b : Bool) : (d.wrBit a i b).tx = d.tx :=
  Dev.wrF_tx d a i 1 _
@[simp] theorem Dev.wrBit_ctl (d : Dev) (a i : Nat) (b : Bool) : (d.wrBit a i b).ctl = d.ctl :=
  Dev.wrF_ctl d a i 1 _
@[simp] theorem Dev.wrBit_visUse (d : Dev) (a i : Nat) (b : Bool) : (d.wrBit a i b).visUse = d.visUse :=
  Dev.wrF_visUse d a i 1 _
@[simp] theorem Dev.wrBit_freeCtr (d : Dev) (a i : Nat) (b : Bool) : (d.wrBit a i b).freeCtr = d.freeCtr :=
  Dev.wrF_freeCtr d a i 1 _

/-! ## `Dev.wrS` -/

@[simp] theorem Dev.wrS_tc (d : Dev) (a : Nat) (v : Int) : (d.wrS a v).tc = d.tc :=
  Dev.wr_tc d a _
@[simp] theorem Dev.wrS_log (d : Dev) (a : Nat) (v : Int) : (d.wrS a v).log = d.log :=
  Dev.wr_log d a _
@[simp] theorem Dev.wrS_host (d : Dev) (a : Nat) (v : Int) : (d.wrS a v).host = d.host :=
  Dev.wr_host d a _
@[simp] theorem Dev.wrS_cfg (d : Dev) (a : Nat) (v : Int) : (d.wrS a v).cfg = d.cfg :=
  Dev.wr_cfg d a _
@[simp] theorem Dev.wrS_job (d : Dev) (a : Nat) (v : Int) : (d.wrS a v).job = d.job :=
  Dev.wr_job d a _
@[simp] theorem Dev.wrS_strip (d : Dev) (a : Nat) (v : Int) : (d.wrS a v).strip = d.strip :=
  Dev.wr_strip d a _
@[simp] theorem Dev.wrS_rast (d : Dev) (a : Nat) (v : Int) : (d.wrS a v).rast = d.rast :=
  Dev.wr_rast d a _
@[simp] theorem Dev.wrS_fire (d : Dev) (a : Nat) (v : Int) : (d.wrS a v).fire = d.fire :=
  Dev.wr_fire d a _
@[simp] theorem Dev.wrS_lace (d : Dev) (a : Nat) (v : Int) : (d.wrS a v).lace = d.lace :=
  Dev.wr_lace d a _
@[simp] theorem Dev.wrS_pair (d : Dev) (a : Nat) (v : Int) : (d.wrS a v).pair = d.pair :=
  Dev.wr_pair d a _
@[simp] theorem Dev.wrS_pos (d : Dev) (a : Nat) (v : Int) : (d.wrS a v).pos = d.pos :=
  Dev.wr_pos d a _
@[simp] theorem Dev.wrS_mem (d : Dev) (a : Nat) (v : Int) : (d.wrS a v).mem = d.mem :=
  Dev.wr_mem d a _
@[simp] theorem Dev.wrS_safe (d : Dev) (a : Nat) (v : Int) : (d.wrS a v).safe = d.safe :=
  Dev.wr_safe d a _
@[simp] theorem Dev.wrS_cam (d : Dev) (a : Nat) (v : Int) : (d.wrS a v).cam = d.cam :=
  Dev.wr_cam d a _
@[simp] theorem Dev.wrS_loop (d : Dev) (a : Nat) (v : Int) : (d.wrS a v).loop = d.loop :=
  Dev.wr_loop d a _
@[simp] theorem Dev.wrS_time (d : Dev) (a : Nat) (v : Int) : (d.wrS a v).time = d.time :=
  Dev.wr_time d a _
@[simp] theorem Dev.wrS_net (d : Dev) (a : Nat) (v : Int) : (d.wrS a v).net = d.net :=
  Dev.wr_net d a _
@[simp] theorem Dev.wrS_lane (d : Dev) (a : Nat) (v : Int) : (d.wrS a v).lane = d.lane :=
  Dev.wr_lane d a _
@[simp] theorem Dev.wrS_pwr (d : Dev) (a : Nat) (v : Int) : (d.wrS a v).pwr = d.pwr :=
  Dev.wr_pwr d a _
@[simp] theorem Dev.wrS_hlth (d : Dev) (a : Nat) (v : Int) : (d.wrS a v).hlth = d.hlth :=
  Dev.wr_hlth d a _
@[simp] theorem Dev.wrS_tx (d : Dev) (a : Nat) (v : Int) : (d.wrS a v).tx = d.tx :=
  Dev.wr_tx d a _
@[simp] theorem Dev.wrS_ctl (d : Dev) (a : Nat) (v : Int) : (d.wrS a v).ctl = d.ctl :=
  Dev.wr_ctl d a _
@[simp] theorem Dev.wrS_visUse (d : Dev) (a : Nat) (v : Int) : (d.wrS a v).visUse = d.visUse :=
  Dev.wr_visUse d a _
@[simp] theorem Dev.wrS_freeCtr (d : Dev) (a : Nat) (v : Int) : (d.wrS a v).freeCtr = d.freeCtr :=
  Dev.wr_freeCtr d a _

/-! ## `Dev.wr64` -/

@[simp] theorem Dev.wr64_tc (d : Dev) (a v : Nat) : (d.wr64 a v).tc = d.tc :=
  (Dev.wr_tc _ _ _).trans (Dev.wr_tc d a _)
@[simp] theorem Dev.wr64_log (d : Dev) (a v : Nat) : (d.wr64 a v).log = d.log :=
  (Dev.wr_log _ _ _).trans (Dev.wr_log d a _)
@[simp] theorem Dev.wr64_host (d : Dev) (a v : Nat) : (d.wr64 a v).host = d.host :=
  (Dev.wr_host _ _ _).trans (Dev.wr_host d a _)
@[simp] theorem Dev.wr64_cfg (d : Dev) (a v : Nat) : (d.wr64 a v).cfg = d.cfg :=
  (Dev.wr_cfg _ _ _).trans (Dev.wr_cfg d a _)
@[simp] theorem Dev.wr64_job (d : Dev) (a v : Nat) : (d.wr64 a v).job = d.job :=
  (Dev.wr_job _ _ _).trans (Dev.wr_job d a _)
@[simp] theorem Dev.wr64_strip (d : Dev) (a v : Nat) : (d.wr64 a v).strip = d.strip :=
  (Dev.wr_strip _ _ _).trans (Dev.wr_strip d a _)
@[simp] theorem Dev.wr64_rast (d : Dev) (a v : Nat) : (d.wr64 a v).rast = d.rast :=
  (Dev.wr_rast _ _ _).trans (Dev.wr_rast d a _)
@[simp] theorem Dev.wr64_fire (d : Dev) (a v : Nat) : (d.wr64 a v).fire = d.fire :=
  (Dev.wr_fire _ _ _).trans (Dev.wr_fire d a _)
@[simp] theorem Dev.wr64_lace (d : Dev) (a v : Nat) : (d.wr64 a v).lace = d.lace :=
  (Dev.wr_lace _ _ _).trans (Dev.wr_lace d a _)
@[simp] theorem Dev.wr64_pair (d : Dev) (a v : Nat) : (d.wr64 a v).pair = d.pair :=
  (Dev.wr_pair _ _ _).trans (Dev.wr_pair d a _)
@[simp] theorem Dev.wr64_pos (d : Dev) (a v : Nat) : (d.wr64 a v).pos = d.pos :=
  (Dev.wr_pos _ _ _).trans (Dev.wr_pos d a _)
@[simp] theorem Dev.wr64_mem (d : Dev) (a v : Nat) : (d.wr64 a v).mem = d.mem :=
  (Dev.wr_mem _ _ _).trans (Dev.wr_mem d a _)
@[simp] theorem Dev.wr64_safe (d : Dev) (a v : Nat) : (d.wr64 a v).safe = d.safe :=
  (Dev.wr_safe _ _ _).trans (Dev.wr_safe d a _)
@[simp] theorem Dev.wr64_cam (d : Dev) (a v : Nat) : (d.wr64 a v).cam = d.cam :=
  (Dev.wr_cam _ _ _).trans (Dev.wr_cam d a _)
@[simp] theorem Dev.wr64_loop (d : Dev) (a v : Nat) : (d.wr64 a v).loop = d.loop :=
  (Dev.wr_loop _ _ _).trans (Dev.wr_loop d a _)
@[simp] theorem Dev.wr64_time (d : Dev) (a v : Nat) : (d.wr64 a v).time = d.time :=
  (Dev.wr_time _ _ _).trans (Dev.wr_time d a _)
@[simp] theorem Dev.wr64_net (d : Dev) (a v : Nat) : (d.wr64 a v).net = d.net :=
  (Dev.wr_net _ _ _).trans (Dev.wr_net d a _)
@[simp] theorem Dev.wr64_lane (d : Dev) (a v : Nat) : (d.wr64 a v).lane = d.lane :=
  (Dev.wr_lane _ _ _).trans (Dev.wr_lane d a _)
@[simp] theorem Dev.wr64_pwr (d : Dev) (a v : Nat) : (d.wr64 a v).pwr = d.pwr :=
  (Dev.wr_pwr _ _ _).trans (Dev.wr_pwr d a _)
@[simp] theorem Dev.wr64_hlth (d : Dev) (a v : Nat) : (d.wr64 a v).hlth = d.hlth :=
  (Dev.wr_hlth _ _ _).trans (Dev.wr_hlth d a _)
@[simp] theorem Dev.wr64_tx (d : Dev) (a v : Nat) : (d.wr64 a v).tx = d.tx :=
  (Dev.wr_tx _ _ _).trans (Dev.wr_tx d a _)
@[simp] theorem Dev.wr64_ctl (d : Dev) (a v : Nat) : (d.wr64 a v).ctl = d.ctl :=
  (Dev.wr_ctl _ _ _).trans (Dev.wr_ctl d a _)
@[simp] theorem Dev.wr64_visUse (d : Dev) (a v : Nat) : (d.wr64 a v).visUse = d.visUse :=
  (Dev.wr_visUse _ _ _).trans (Dev.wr_visUse d a _)
@[simp] theorem Dev.wr64_freeCtr (d : Dev) (a v : Nat) : (d.wr64 a v).freeCtr = d.freeCtr :=
  (Dev.wr_freeCtr _ _ _).trans (Dev.wr_freeCtr d a _)

/-! ## `Dev.wrS64` -/

@[simp] theorem Dev.wrS64_tc (d : Dev) (a : Nat) (v : Int) : (d.wrS64 a v).tc = d.tc :=
  Dev.wr64_tc d a _
@[simp] theorem Dev.wrS64_log (d : Dev) (a : Nat) (v : Int) : (d.wrS64 a v).log = d.log :=
  Dev.wr64_log d a _
@[simp] theorem Dev.wrS64_host (d : Dev) (a : Nat) (v : Int) : (d.wrS64 a v).host = d.host :=
  Dev.wr64_host d a _
@[simp] theorem Dev.wrS64_cfg (d : Dev) (a : Nat) (v : Int) : (d.wrS64 a v).cfg = d.cfg :=
  Dev.wr64_cfg d a _
@[simp] theorem Dev.wrS64_job (d : Dev) (a : Nat) (v : Int) : (d.wrS64 a v).job = d.job :=
  Dev.wr64_job d a _
@[simp] theorem Dev.wrS64_strip (d : Dev) (a : Nat) (v : Int) : (d.wrS64 a v).strip = d.strip :=
  Dev.wr64_strip d a _
@[simp] theorem Dev.wrS64_rast (d : Dev) (a : Nat) (v : Int) : (d.wrS64 a v).rast = d.rast :=
  Dev.wr64_rast d a _
@[simp] theorem Dev.wrS64_fire (d : Dev) (a : Nat) (v : Int) : (d.wrS64 a v).fire = d.fire :=
  Dev.wr64_fire d a _
@[simp] theorem Dev.wrS64_lace (d : Dev) (a : Nat) (v : Int) : (d.wrS64 a v).lace = d.lace :=
  Dev.wr64_lace d a _
@[simp] theorem Dev.wrS64_pair (d : Dev) (a : Nat) (v : Int) : (d.wrS64 a v).pair = d.pair :=
  Dev.wr64_pair d a _
@[simp] theorem Dev.wrS64_pos (d : Dev) (a : Nat) (v : Int) : (d.wrS64 a v).pos = d.pos :=
  Dev.wr64_pos d a _
@[simp] theorem Dev.wrS64_mem (d : Dev) (a : Nat) (v : Int) : (d.wrS64 a v).mem = d.mem :=
  Dev.wr64_mem d a _
@[simp] theorem Dev.wrS64_safe (d : Dev) (a : Nat) (v : Int) : (d.wrS64 a v).safe = d.safe :=
  Dev.wr64_safe d a _
@[simp] theorem Dev.wrS64_cam (d : Dev) (a : Nat) (v : Int) : (d.wrS64 a v).cam = d.cam :=
  Dev.wr64_cam d a _
@[simp] theorem Dev.wrS64_loop (d : Dev) (a : Nat) (v : Int) : (d.wrS64 a v).loop = d.loop :=
  Dev.wr64_loop d a _
@[simp] theorem Dev.wrS64_time (d : Dev) (a : Nat) (v : Int) : (d.wrS64 a v).time = d.time :=
  Dev.wr64_time d a _
@[simp] theorem Dev.wrS64_net (d : Dev) (a : Nat) (v : Int) : (d.wrS64 a v).net = d.net :=
  Dev.wr64_net d a _
@[simp] theorem Dev.wrS64_lane (d : Dev) (a : Nat) (v : Int) : (d.wrS64 a v).lane = d.lane :=
  Dev.wr64_lane d a _
@[simp] theorem Dev.wrS64_pwr (d : Dev) (a : Nat) (v : Int) : (d.wrS64 a v).pwr = d.pwr :=
  Dev.wr64_pwr d a _
@[simp] theorem Dev.wrS64_hlth (d : Dev) (a : Nat) (v : Int) : (d.wrS64 a v).hlth = d.hlth :=
  Dev.wr64_hlth d a _
@[simp] theorem Dev.wrS64_tx (d : Dev) (a : Nat) (v : Int) : (d.wrS64 a v).tx = d.tx :=
  Dev.wr64_tx d a _
@[simp] theorem Dev.wrS64_ctl (d : Dev) (a : Nat) (v : Int) : (d.wrS64 a v).ctl = d.ctl :=
  Dev.wr64_ctl d a _
@[simp] theorem Dev.wrS64_visUse (d : Dev) (a : Nat) (v : Int) : (d.wrS64 a v).visUse = d.visUse :=
  Dev.wr64_visUse d a _
@[simp] theorem Dev.wrS64_freeCtr (d : Dev) (a : Nat) (v : Int) : (d.wrS64 a v).freeCtr = d.freeCtr :=
  Dev.wr64_freeCtr d a _

/-! ## `Dev.bumpBy` -/

@[simp] theorem Dev.bumpBy_tc (d : Dev) (a k : Nat) : (d.bumpBy a k).tc = d.tc :=
  Dev.wr_tc d a _
@[simp] theorem Dev.bumpBy_log (d : Dev) (a k : Nat) : (d.bumpBy a k).log = d.log :=
  Dev.wr_log d a _
@[simp] theorem Dev.bumpBy_host (d : Dev) (a k : Nat) : (d.bumpBy a k).host = d.host :=
  Dev.wr_host d a _
@[simp] theorem Dev.bumpBy_cfg (d : Dev) (a k : Nat) : (d.bumpBy a k).cfg = d.cfg :=
  Dev.wr_cfg d a _
@[simp] theorem Dev.bumpBy_job (d : Dev) (a k : Nat) : (d.bumpBy a k).job = d.job :=
  Dev.wr_job d a _
@[simp] theorem Dev.bumpBy_strip (d : Dev) (a k : Nat) : (d.bumpBy a k).strip = d.strip :=
  Dev.wr_strip d a _
@[simp] theorem Dev.bumpBy_rast (d : Dev) (a k : Nat) : (d.bumpBy a k).rast = d.rast :=
  Dev.wr_rast d a _
@[simp] theorem Dev.bumpBy_fire (d : Dev) (a k : Nat) : (d.bumpBy a k).fire = d.fire :=
  Dev.wr_fire d a _
@[simp] theorem Dev.bumpBy_lace (d : Dev) (a k : Nat) : (d.bumpBy a k).lace = d.lace :=
  Dev.wr_lace d a _
@[simp] theorem Dev.bumpBy_pair (d : Dev) (a k : Nat) : (d.bumpBy a k).pair = d.pair :=
  Dev.wr_pair d a _
@[simp] theorem Dev.bumpBy_pos (d : Dev) (a k : Nat) : (d.bumpBy a k).pos = d.pos :=
  Dev.wr_pos d a _
@[simp] theorem Dev.bumpBy_mem (d : Dev) (a k : Nat) : (d.bumpBy a k).mem = d.mem :=
  Dev.wr_mem d a _
@[simp] theorem Dev.bumpBy_safe (d : Dev) (a k : Nat) : (d.bumpBy a k).safe = d.safe :=
  Dev.wr_safe d a _
@[simp] theorem Dev.bumpBy_cam (d : Dev) (a k : Nat) : (d.bumpBy a k).cam = d.cam :=
  Dev.wr_cam d a _
@[simp] theorem Dev.bumpBy_loop (d : Dev) (a k : Nat) : (d.bumpBy a k).loop = d.loop :=
  Dev.wr_loop d a _
@[simp] theorem Dev.bumpBy_time (d : Dev) (a k : Nat) : (d.bumpBy a k).time = d.time :=
  Dev.wr_time d a _
@[simp] theorem Dev.bumpBy_net (d : Dev) (a k : Nat) : (d.bumpBy a k).net = d.net :=
  Dev.wr_net d a _
@[simp] theorem Dev.bumpBy_lane (d : Dev) (a k : Nat) : (d.bumpBy a k).lane = d.lane :=
  Dev.wr_lane d a _
@[simp] theorem Dev.bumpBy_pwr (d : Dev) (a k : Nat) : (d.bumpBy a k).pwr = d.pwr :=
  Dev.wr_pwr d a _
@[simp] theorem Dev.bumpBy_hlth (d : Dev) (a k : Nat) : (d.bumpBy a k).hlth = d.hlth :=
  Dev.wr_hlth d a _
@[simp] theorem Dev.bumpBy_tx (d : Dev) (a k : Nat) : (d.bumpBy a k).tx = d.tx :=
  Dev.wr_tx d a _
@[simp] theorem Dev.bumpBy_ctl (d : Dev) (a k : Nat) : (d.bumpBy a k).ctl = d.ctl :=
  Dev.wr_ctl d a _
@[simp] theorem Dev.bumpBy_visUse (d : Dev) (a k : Nat) : (d.bumpBy a k).visUse = d.visUse :=
  Dev.wr_visUse d a _
@[simp] theorem Dev.bumpBy_freeCtr (d : Dev) (a k : Nat) : (d.bumpBy a k).freeCtr = d.freeCtr :=
  Dev.wr_freeCtr d a _

/-! ## `Dev.bump` -/

@[simp] theorem Dev.bump_tc (d : Dev) (a : Nat) : (d.bump a).tc = d.tc := Dev.bumpBy_tc d a 1
@[simp] theorem Dev.bump_log (d : Dev) (a : Nat) : (d.bump a).log = d.log := Dev.bumpBy_log d a 1
@[simp] theorem Dev.bump_host (d : Dev) (a : Nat) : (d.bump a).host = d.host := Dev.bumpBy_host d a 1
@[simp] theorem Dev.bump_cfg (d : Dev) (a : Nat) : (d.bump a).cfg = d.cfg := Dev.bumpBy_cfg d a 1
@[simp] theorem Dev.bump_job (d : Dev) (a : Nat) : (d.bump a).job = d.job := Dev.bumpBy_job d a 1
@[simp] theorem Dev.bump_strip (d : Dev) (a : Nat) : (d.bump a).strip = d.strip := Dev.bumpBy_strip d a 1
@[simp] theorem Dev.bump_rast (d : Dev) (a : Nat) : (d.bump a).rast = d.rast := Dev.bumpBy_rast d a 1
@[simp] theorem Dev.bump_fire (d : Dev) (a : Nat) : (d.bump a).fire = d.fire := Dev.bumpBy_fire d a 1
@[simp] theorem Dev.bump_lace (d : Dev) (a : Nat) : (d.bump a).lace = d.lace := Dev.bumpBy_lace d a 1
@[simp] theorem Dev.bump_pair (d : Dev) (a : Nat) : (d.bump a).pair = d.pair := Dev.bumpBy_pair d a 1
@[simp] theorem Dev.bump_pos (d : Dev) (a : Nat) : (d.bump a).pos = d.pos := Dev.bumpBy_pos d a 1
@[simp] theorem Dev.bump_mem (d : Dev) (a : Nat) : (d.bump a).mem = d.mem := Dev.bumpBy_mem d a 1
@[simp] theorem Dev.bump_safe (d : Dev) (a : Nat) : (d.bump a).safe = d.safe := Dev.bumpBy_safe d a 1
@[simp] theorem Dev.bump_cam (d : Dev) (a : Nat) : (d.bump a).cam = d.cam := Dev.bumpBy_cam d a 1
@[simp] theorem Dev.bump_loop (d : Dev) (a : Nat) : (d.bump a).loop = d.loop := Dev.bumpBy_loop d a 1
@[simp] theorem Dev.bump_time (d : Dev) (a : Nat) : (d.bump a).time = d.time := Dev.bumpBy_time d a 1
@[simp] theorem Dev.bump_net (d : Dev) (a : Nat) : (d.bump a).net = d.net := Dev.bumpBy_net d a 1
@[simp] theorem Dev.bump_lane (d : Dev) (a : Nat) : (d.bump a).lane = d.lane := Dev.bumpBy_lane d a 1
@[simp] theorem Dev.bump_pwr (d : Dev) (a : Nat) : (d.bump a).pwr = d.pwr := Dev.bumpBy_pwr d a 1
@[simp] theorem Dev.bump_hlth (d : Dev) (a : Nat) : (d.bump a).hlth = d.hlth := Dev.bumpBy_hlth d a 1
@[simp] theorem Dev.bump_tx (d : Dev) (a : Nat) : (d.bump a).tx = d.tx := Dev.bumpBy_tx d a 1
@[simp] theorem Dev.bump_ctl (d : Dev) (a : Nat) : (d.bump a).ctl = d.ctl := Dev.bumpBy_ctl d a 1
@[simp] theorem Dev.bump_visUse (d : Dev) (a : Nat) : (d.bump a).visUse = d.visUse := Dev.bumpBy_visUse d a 1
@[simp] theorem Dev.bump_freeCtr (d : Dev) (a : Nat) : (d.bump a).freeCtr = d.freeCtr := Dev.bumpBy_freeCtr d a 1

/-! ## `Dev.publish` -/

@[simp] theorem Dev.publish_tc (d : Dev) (a : Nat) : (d.publish a).tc = d.tc :=
  (Dev.wrBit_tc _ _ _ _).trans (Dev.wrF_tc d a _ _ _)
@[simp] theorem Dev.publish_log (d : Dev) (a : Nat) : (d.publish a).log = d.log :=
  (Dev.wrBit_log _ _ _ _).trans (Dev.wrF_log d a _ _ _)
@[simp] theorem Dev.publish_host (d : Dev) (a : Nat) : (d.publish a).host = d.host :=
  (Dev.wrBit_host _ _ _ _).trans (Dev.wrF_host d a _ _ _)
@[simp] theorem Dev.publish_cfg (d : Dev) (a : Nat) : (d.publish a).cfg = d.cfg :=
  (Dev.wrBit_cfg _ _ _ _).trans (Dev.wrF_cfg d a _ _ _)
@[simp] theorem Dev.publish_job (d : Dev) (a : Nat) : (d.publish a).job = d.job :=
  (Dev.wrBit_job _ _ _ _).trans (Dev.wrF_job d a _ _ _)
@[simp] theorem Dev.publish_strip (d : Dev) (a : Nat) : (d.publish a).strip = d.strip :=
  (Dev.wrBit_strip _ _ _ _).trans (Dev.wrF_strip d a _ _ _)
@[simp] theorem Dev.publish_rast (d : Dev) (a : Nat) : (d.publish a).rast = d.rast :=
  (Dev.wrBit_rast _ _ _ _).trans (Dev.wrF_rast d a _ _ _)
@[simp] theorem Dev.publish_fire (d : Dev) (a : Nat) : (d.publish a).fire = d.fire :=
  (Dev.wrBit_fire _ _ _ _).trans (Dev.wrF_fire d a _ _ _)
@[simp] theorem Dev.publish_lace (d : Dev) (a : Nat) : (d.publish a).lace = d.lace :=
  (Dev.wrBit_lace _ _ _ _).trans (Dev.wrF_lace d a _ _ _)
@[simp] theorem Dev.publish_pair (d : Dev) (a : Nat) : (d.publish a).pair = d.pair :=
  (Dev.wrBit_pair _ _ _ _).trans (Dev.wrF_pair d a _ _ _)
@[simp] theorem Dev.publish_pos (d : Dev) (a : Nat) : (d.publish a).pos = d.pos :=
  (Dev.wrBit_pos _ _ _ _).trans (Dev.wrF_pos d a _ _ _)
@[simp] theorem Dev.publish_mem (d : Dev) (a : Nat) : (d.publish a).mem = d.mem :=
  (Dev.wrBit_mem _ _ _ _).trans (Dev.wrF_mem d a _ _ _)
@[simp] theorem Dev.publish_safe (d : Dev) (a : Nat) : (d.publish a).safe = d.safe :=
  (Dev.wrBit_safe _ _ _ _).trans (Dev.wrF_safe d a _ _ _)
@[simp] theorem Dev.publish_cam (d : Dev) (a : Nat) : (d.publish a).cam = d.cam :=
  (Dev.wrBit_cam _ _ _ _).trans (Dev.wrF_cam d a _ _ _)
@[simp] theorem Dev.publish_loop (d : Dev) (a : Nat) : (d.publish a).loop = d.loop :=
  (Dev.wrBit_loop _ _ _ _).trans (Dev.wrF_loop d a _ _ _)
@[simp] theorem Dev.publish_time (d : Dev) (a : Nat) : (d.publish a).time = d.time :=
  (Dev.wrBit_time _ _ _ _).trans (Dev.wrF_time d a _ _ _)
@[simp] theorem Dev.publish_net (d : Dev) (a : Nat) : (d.publish a).net = d.net :=
  (Dev.wrBit_net _ _ _ _).trans (Dev.wrF_net d a _ _ _)
@[simp] theorem Dev.publish_lane (d : Dev) (a : Nat) : (d.publish a).lane = d.lane :=
  (Dev.wrBit_lane _ _ _ _).trans (Dev.wrF_lane d a _ _ _)
@[simp] theorem Dev.publish_pwr (d : Dev) (a : Nat) : (d.publish a).pwr = d.pwr :=
  (Dev.wrBit_pwr _ _ _ _).trans (Dev.wrF_pwr d a _ _ _)
@[simp] theorem Dev.publish_hlth (d : Dev) (a : Nat) : (d.publish a).hlth = d.hlth :=
  (Dev.wrBit_hlth _ _ _ _).trans (Dev.wrF_hlth d a _ _ _)
@[simp] theorem Dev.publish_tx (d : Dev) (a : Nat) : (d.publish a).tx = d.tx :=
  (Dev.wrBit_tx _ _ _ _).trans (Dev.wrF_tx d a _ _ _)
@[simp] theorem Dev.publish_ctl (d : Dev) (a : Nat) : (d.publish a).ctl = d.ctl :=
  (Dev.wrBit_ctl _ _ _ _).trans (Dev.wrF_ctl d a _ _ _)
@[simp] theorem Dev.publish_visUse (d : Dev) (a : Nat) : (d.publish a).visUse = d.visUse :=
  (Dev.wrBit_visUse _ _ _ _).trans (Dev.wrF_visUse d a _ _ _)
@[simp] theorem Dev.publish_freeCtr (d : Dev) (a : Nat) : (d.publish a).freeCtr = d.freeCtr :=
  (Dev.wrBit_freeCtr _ _ _ _).trans (Dev.wrF_freeCtr d a _ _ _)

/-! ## `Dev.wrWords` -/

@[simp] theorem Dev.wrWords_tc (d : Dev) (a : Nat) (ws : List Nat) : (d.wrWords a ws).tc = d.tc := rfl
@[simp] theorem Dev.wrWords_log (d : Dev) (a : Nat) (ws : List Nat) : (d.wrWords a ws).log = d.log := rfl
@[simp] theorem Dev.wrWords_host (d : Dev) (a : Nat) (ws : List Nat) : (d.wrWords a ws).host = d.host := rfl
@[simp] theorem Dev.wrWords_cfg (d : Dev) (a : Nat) (ws : List Nat) : (d.wrWords a ws).cfg = d.cfg := rfl
@[simp] theorem Dev.wrWords_job (d : Dev) (a : Nat) (ws : List Nat) : (d.wrWords a ws).job = d.job := rfl
@[simp] theorem Dev.wrWords_strip (d : Dev) (a : Nat) (ws : List Nat) : (d.wrWords a ws).strip = d.strip := rfl
@[simp] theorem Dev.wrWords_rast (d : Dev) (a : Nat) (ws : List Nat) : (d.wrWords a ws).rast = d.rast := rfl
@[simp] theorem Dev.wrWords_fire (d : Dev) (a : Nat) (ws : List Nat) : (d.wrWords a ws).fire = d.fire := rfl
@[simp] theorem Dev.wrWords_lace (d : Dev) (a : Nat) (ws : List Nat) : (d.wrWords a ws).lace = d.lace := rfl
@[simp] theorem Dev.wrWords_pair (d : Dev) (a : Nat) (ws : List Nat) : (d.wrWords a ws).pair = d.pair := rfl
@[simp] theorem Dev.wrWords_pos (d : Dev) (a : Nat) (ws : List Nat) : (d.wrWords a ws).pos = d.pos := rfl
@[simp] theorem Dev.wrWords_mem (d : Dev) (a : Nat) (ws : List Nat) : (d.wrWords a ws).mem = d.mem := rfl
@[simp] theorem Dev.wrWords_safe (d : Dev) (a : Nat) (ws : List Nat) : (d.wrWords a ws).safe = d.safe := rfl
@[simp] theorem Dev.wrWords_cam (d : Dev) (a : Nat) (ws : List Nat) : (d.wrWords a ws).cam = d.cam := rfl
@[simp] theorem Dev.wrWords_loop (d : Dev) (a : Nat) (ws : List Nat) : (d.wrWords a ws).loop = d.loop := rfl
@[simp] theorem Dev.wrWords_time (d : Dev) (a : Nat) (ws : List Nat) : (d.wrWords a ws).time = d.time := rfl
@[simp] theorem Dev.wrWords_net (d : Dev) (a : Nat) (ws : List Nat) : (d.wrWords a ws).net = d.net := rfl
@[simp] theorem Dev.wrWords_lane (d : Dev) (a : Nat) (ws : List Nat) : (d.wrWords a ws).lane = d.lane := rfl
@[simp] theorem Dev.wrWords_pwr (d : Dev) (a : Nat) (ws : List Nat) : (d.wrWords a ws).pwr = d.pwr := rfl
@[simp] theorem Dev.wrWords_hlth (d : Dev) (a : Nat) (ws : List Nat) : (d.wrWords a ws).hlth = d.hlth := rfl
@[simp] theorem Dev.wrWords_tx (d : Dev) (a : Nat) (ws : List Nat) : (d.wrWords a ws).tx = d.tx := rfl
@[simp] theorem Dev.wrWords_ctl (d : Dev) (a : Nat) (ws : List Nat) : (d.wrWords a ws).ctl = d.ctl := rfl
@[simp] theorem Dev.wrWords_visUse (d : Dev) (a : Nat) (ws : List Nat) : (d.wrWords a ws).visUse = d.visUse := rfl
@[simp] theorem Dev.wrWords_freeCtr (d : Dev) (a : Nat) (ws : List Nat) : (d.wrWords a ws).freeCtr = d.freeCtr := rfl

/-! ## `Dev.send` -/

@[simp] theorem Dev.send_tc (d : Dev) (t : Tx) : (d.send t).tc = d.tc := rfl
@[simp] theorem Dev.send_regs (d : Dev) (t : Tx) : (d.send t).regs = d.regs := rfl
@[simp] theorem Dev.send_log (d : Dev) (t : Tx) : (d.send t).log = d.log := rfl
@[simp] theorem Dev.send_host (d : Dev) (t : Tx) : (d.send t).host = d.host := rfl
@[simp] theorem Dev.send_cfg (d : Dev) (t : Tx) : (d.send t).cfg = d.cfg := rfl
@[simp] theorem Dev.send_job (d : Dev) (t : Tx) : (d.send t).job = d.job := rfl
@[simp] theorem Dev.send_strip (d : Dev) (t : Tx) : (d.send t).strip = d.strip := rfl
@[simp] theorem Dev.send_rast (d : Dev) (t : Tx) : (d.send t).rast = d.rast := rfl
@[simp] theorem Dev.send_fire (d : Dev) (t : Tx) : (d.send t).fire = d.fire := rfl
@[simp] theorem Dev.send_lace (d : Dev) (t : Tx) : (d.send t).lace = d.lace := rfl
@[simp] theorem Dev.send_pair (d : Dev) (t : Tx) : (d.send t).pair = d.pair := rfl
@[simp] theorem Dev.send_pos (d : Dev) (t : Tx) : (d.send t).pos = d.pos := rfl
@[simp] theorem Dev.send_mem (d : Dev) (t : Tx) : (d.send t).mem = d.mem := rfl
@[simp] theorem Dev.send_safe (d : Dev) (t : Tx) : (d.send t).safe = d.safe := rfl
@[simp] theorem Dev.send_cam (d : Dev) (t : Tx) : (d.send t).cam = d.cam := rfl
@[simp] theorem Dev.send_loop (d : Dev) (t : Tx) : (d.send t).loop = d.loop := rfl
@[simp] theorem Dev.send_time (d : Dev) (t : Tx) : (d.send t).time = d.time := rfl
@[simp] theorem Dev.send_net (d : Dev) (t : Tx) : (d.send t).net = d.net := rfl
@[simp] theorem Dev.send_lane (d : Dev) (t : Tx) : (d.send t).lane = d.lane := rfl
@[simp] theorem Dev.send_pwr (d : Dev) (t : Tx) : (d.send t).pwr = d.pwr := rfl
@[simp] theorem Dev.send_hlth (d : Dev) (t : Tx) : (d.send t).hlth = d.hlth := rfl
@[simp] theorem Dev.send_ctl (d : Dev) (t : Tx) : (d.send t).ctl = d.ctl := rfl
@[simp] theorem Dev.send_visUse (d : Dev) (t : Tx) : (d.send t).visUse = d.visUse := rfl
@[simp] theorem Dev.send_freeCtr (d : Dev) (t : Tx) : (d.send t).freeCtr = d.freeCtr := rfl

/-! ## `Dev.tick` -/

@[simp] theorem Dev.tick_tc (d : Dev) : (d.tick).tc = d.tc := rfl
@[simp] theorem Dev.tick_regs (d : Dev) : (d.tick).regs = d.regs := rfl
@[simp] theorem Dev.tick_log (d : Dev) : (d.tick).log = d.log := rfl
@[simp] theorem Dev.tick_host (d : Dev) : (d.tick).host = d.host := rfl
@[simp] theorem Dev.tick_cfg (d : Dev) : (d.tick).cfg = d.cfg := rfl
@[simp] theorem Dev.tick_job (d : Dev) : (d.tick).job = d.job := rfl
@[simp] theorem Dev.tick_strip (d : Dev) : (d.tick).strip = d.strip := rfl
@[simp] theorem Dev.tick_rast (d : Dev) : (d.tick).rast = d.rast := rfl
@[simp] theorem Dev.tick_fire (d : Dev) : (d.tick).fire = d.fire := rfl
@[simp] theorem Dev.tick_lace (d : Dev) : (d.tick).lace = d.lace := rfl
@[simp] theorem Dev.tick_pair (d : Dev) : (d.tick).pair = d.pair := rfl
@[simp] theorem Dev.tick_pos (d : Dev) : (d.tick).pos = d.pos := rfl
@[simp] theorem Dev.tick_mem (d : Dev) : (d.tick).mem = d.mem := rfl
@[simp] theorem Dev.tick_safe (d : Dev) : (d.tick).safe = d.safe := rfl
@[simp] theorem Dev.tick_cam (d : Dev) : (d.tick).cam = d.cam := rfl
@[simp] theorem Dev.tick_loop (d : Dev) : (d.tick).loop = d.loop := rfl
@[simp] theorem Dev.tick_time (d : Dev) : (d.tick).time = d.time := rfl
@[simp] theorem Dev.tick_net (d : Dev) : (d.tick).net = d.net := rfl
@[simp] theorem Dev.tick_lane (d : Dev) : (d.tick).lane = d.lane := rfl
@[simp] theorem Dev.tick_pwr (d : Dev) : (d.tick).pwr = d.pwr := rfl
@[simp] theorem Dev.tick_hlth (d : Dev) : (d.tick).hlth = d.hlth := rfl
@[simp] theorem Dev.tick_tx (d : Dev) : (d.tick).tx = d.tx := rfl

/-! ## `Dev.setQs` -/

@[simp] theorem Dev.setQs_tc (d : Dev) (q : Nat) (x : QSt) : (d.setQs q x).tc = d.tc := rfl
@[simp] theorem Dev.setQs_regs (d : Dev) (q : Nat) (x : QSt) : (d.setQs q x).regs = d.regs := rfl
@[simp] theorem Dev.setQs_log (d : Dev) (q : Nat) (x : QSt) : (d.setQs q x).log = d.log := rfl
@[simp] theorem Dev.setQs_cfg (d : Dev) (q : Nat) (x : QSt) : (d.setQs q x).cfg = d.cfg := rfl
@[simp] theorem Dev.setQs_job (d : Dev) (q : Nat) (x : QSt) : (d.setQs q x).job = d.job := rfl
@[simp] theorem Dev.setQs_strip (d : Dev) (q : Nat) (x : QSt) : (d.setQs q x).strip = d.strip := rfl
@[simp] theorem Dev.setQs_rast (d : Dev) (q : Nat) (x : QSt) : (d.setQs q x).rast = d.rast := rfl
@[simp] theorem Dev.setQs_fire (d : Dev) (q : Nat) (x : QSt) : (d.setQs q x).fire = d.fire := rfl
@[simp] theorem Dev.setQs_lace (d : Dev) (q : Nat) (x : QSt) : (d.setQs q x).lace = d.lace := rfl
@[simp] theorem Dev.setQs_pair (d : Dev) (q : Nat) (x : QSt) : (d.setQs q x).pair = d.pair := rfl
@[simp] theorem Dev.setQs_pos (d : Dev) (q : Nat) (x : QSt) : (d.setQs q x).pos = d.pos := rfl
@[simp] theorem Dev.setQs_mem (d : Dev) (q : Nat) (x : QSt) : (d.setQs q x).mem = d.mem := rfl
@[simp] theorem Dev.setQs_safe (d : Dev) (q : Nat) (x : QSt) : (d.setQs q x).safe = d.safe := rfl
@[simp] theorem Dev.setQs_cam (d : Dev) (q : Nat) (x : QSt) : (d.setQs q x).cam = d.cam := rfl
@[simp] theorem Dev.setQs_loop (d : Dev) (q : Nat) (x : QSt) : (d.setQs q x).loop = d.loop := rfl
@[simp] theorem Dev.setQs_time (d : Dev) (q : Nat) (x : QSt) : (d.setQs q x).time = d.time := rfl
@[simp] theorem Dev.setQs_net (d : Dev) (q : Nat) (x : QSt) : (d.setQs q x).net = d.net := rfl
@[simp] theorem Dev.setQs_lane (d : Dev) (q : Nat) (x : QSt) : (d.setQs q x).lane = d.lane := rfl
@[simp] theorem Dev.setQs_pwr (d : Dev) (q : Nat) (x : QSt) : (d.setQs q x).pwr = d.pwr := rfl
@[simp] theorem Dev.setQs_hlth (d : Dev) (q : Nat) (x : QSt) : (d.setQs q x).hlth = d.hlth := rfl
@[simp] theorem Dev.setQs_tx (d : Dev) (q : Nat) (x : QSt) : (d.setQs q x).tx = d.tx := rfl
@[simp] theorem Dev.setQs_ctl (d : Dev) (q : Nat) (x : QSt) : (d.setQs q x).ctl = d.ctl := rfl
@[simp] theorem Dev.setQs_visUse (d : Dev) (q : Nat) (x : QSt) : (d.setQs q x).visUse = d.visUse := rfl
@[simp] theorem Dev.setQs_freeCtr (d : Dev) (q : Nat) (x : QSt) : (d.setQs q x).freeCtr = d.freeCtr := rfl

/-! ## `Dev.toHost` -/

@[simp] theorem Dev.toHost_tc (d : Dev) (a : Nat) (bs : List Byte) : (d.toHost a bs).tc = d.tc := rfl
@[simp] theorem Dev.toHost_regs (d : Dev) (a : Nat) (bs : List Byte) : (d.toHost a bs).regs = d.regs := rfl
@[simp] theorem Dev.toHost_log (d : Dev) (a : Nat) (bs : List Byte) : (d.toHost a bs).log = d.log := rfl
@[simp] theorem Dev.toHost_cfg (d : Dev) (a : Nat) (bs : List Byte) : (d.toHost a bs).cfg = d.cfg := rfl
@[simp] theorem Dev.toHost_job (d : Dev) (a : Nat) (bs : List Byte) : (d.toHost a bs).job = d.job := rfl
@[simp] theorem Dev.toHost_strip (d : Dev) (a : Nat) (bs : List Byte) : (d.toHost a bs).strip = d.strip := rfl
@[simp] theorem Dev.toHost_rast (d : Dev) (a : Nat) (bs : List Byte) : (d.toHost a bs).rast = d.rast := rfl
@[simp] theorem Dev.toHost_fire (d : Dev) (a : Nat) (bs : List Byte) : (d.toHost a bs).fire = d.fire := rfl
@[simp] theorem Dev.toHost_lace (d : Dev) (a : Nat) (bs : List Byte) : (d.toHost a bs).lace = d.lace := rfl
@[simp] theorem Dev.toHost_pair (d : Dev) (a : Nat) (bs : List Byte) : (d.toHost a bs).pair = d.pair := rfl
@[simp] theorem Dev.toHost_pos (d : Dev) (a : Nat) (bs : List Byte) : (d.toHost a bs).pos = d.pos := rfl
@[simp] theorem Dev.toHost_mem (d : Dev) (a : Nat) (bs : List Byte) : (d.toHost a bs).mem = d.mem := rfl
@[simp] theorem Dev.toHost_safe (d : Dev) (a : Nat) (bs : List Byte) : (d.toHost a bs).safe = d.safe := rfl
@[simp] theorem Dev.toHost_cam (d : Dev) (a : Nat) (bs : List Byte) : (d.toHost a bs).cam = d.cam := rfl
@[simp] theorem Dev.toHost_loop (d : Dev) (a : Nat) (bs : List Byte) : (d.toHost a bs).loop = d.loop := rfl
@[simp] theorem Dev.toHost_time (d : Dev) (a : Nat) (bs : List Byte) : (d.toHost a bs).time = d.time := rfl
@[simp] theorem Dev.toHost_net (d : Dev) (a : Nat) (bs : List Byte) : (d.toHost a bs).net = d.net := rfl
@[simp] theorem Dev.toHost_lane (d : Dev) (a : Nat) (bs : List Byte) : (d.toHost a bs).lane = d.lane := rfl
@[simp] theorem Dev.toHost_pwr (d : Dev) (a : Nat) (bs : List Byte) : (d.toHost a bs).pwr = d.pwr := rfl
@[simp] theorem Dev.toHost_hlth (d : Dev) (a : Nat) (bs : List Byte) : (d.toHost a bs).hlth = d.hlth := rfl
@[simp] theorem Dev.toHost_tx (d : Dev) (a : Nat) (bs : List Byte) : (d.toHost a bs).tx = d.tx := rfl
@[simp] theorem Dev.toHost_ctl (d : Dev) (a : Nat) (bs : List Byte) : (d.toHost a bs).ctl = d.ctl := rfl
@[simp] theorem Dev.toHost_visUse (d : Dev) (a : Nat) (bs : List Byte) : (d.toHost a bs).visUse = d.visUse := rfl
@[simp] theorem Dev.toHost_freeCtr (d : Dev) (a : Nat) (bs : List Byte) : (d.toHost a bs).freeCtr = d.freeCtr := rfl

/-! ## `Dev.keep` -/

@[simp] theorem Dev.keep_tc (d : Dev) (o : Out) : (d.keep o).tc = d.tc := rfl
@[simp] theorem Dev.keep_regs (d : Dev) (o : Out) : (d.keep o).regs = d.regs := rfl
@[simp] theorem Dev.keep_log (d : Dev) (o : Out) : (d.keep o).log = d.log := rfl
@[simp] theorem Dev.keep_cfg (d : Dev) (o : Out) : (d.keep o).cfg = d.cfg := rfl
@[simp] theorem Dev.keep_job (d : Dev) (o : Out) : (d.keep o).job = d.job := rfl
@[simp] theorem Dev.keep_strip (d : Dev) (o : Out) : (d.keep o).strip = d.strip := rfl
@[simp] theorem Dev.keep_rast (d : Dev) (o : Out) : (d.keep o).rast = d.rast := rfl
@[simp] theorem Dev.keep_fire (d : Dev) (o : Out) : (d.keep o).fire = d.fire := rfl
@[simp] theorem Dev.keep_lace (d : Dev) (o : Out) : (d.keep o).lace = d.lace := rfl
@[simp] theorem Dev.keep_pair (d : Dev) (o : Out) : (d.keep o).pair = d.pair := rfl
@[simp] theorem Dev.keep_pos (d : Dev) (o : Out) : (d.keep o).pos = d.pos := rfl
@[simp] theorem Dev.keep_mem (d : Dev) (o : Out) : (d.keep o).mem = d.mem := rfl
@[simp] theorem Dev.keep_safe (d : Dev) (o : Out) : (d.keep o).safe = d.safe := rfl
@[simp] theorem Dev.keep_cam (d : Dev) (o : Out) : (d.keep o).cam = d.cam := rfl
@[simp] theorem Dev.keep_loop (d : Dev) (o : Out) : (d.keep o).loop = d.loop := rfl
@[simp] theorem Dev.keep_time (d : Dev) (o : Out) : (d.keep o).time = d.time := rfl
@[simp] theorem Dev.keep_net (d : Dev) (o : Out) : (d.keep o).net = d.net := rfl
@[simp] theorem Dev.keep_lane (d : Dev) (o : Out) : (d.keep o).lane = d.lane := rfl
@[simp] theorem Dev.keep_pwr (d : Dev) (o : Out) : (d.keep o).pwr = d.pwr := rfl
@[simp] theorem Dev.keep_hlth (d : Dev) (o : Out) : (d.keep o).hlth = d.hlth := rfl
@[simp] theorem Dev.keep_tx (d : Dev) (o : Out) : (d.keep o).tx = d.tx := rfl
@[simp] theorem Dev.keep_ctl (d : Dev) (o : Out) : (d.keep o).ctl = d.ctl := rfl
@[simp] theorem Dev.keep_visUse (d : Dev) (o : Out) : (d.keep o).visUse = d.visUse := rfl
@[simp] theorem Dev.keep_freeCtr (d : Dev) (o : Out) : (d.keep o).freeCtr = d.freeCtr := rfl

@[simp] theorem Dev.send_tx (d : Dev) (t : Tx) : (d.send t).tx = d.tx ++ [t] := rfl
@[simp] theorem Dev.tick_freeCtr (d : Dev) : d.tick.freeCtr = d.freeCtr + 1 := rfl

end Sys2Proof.Machine
end

