-- ==== Sys2Proof/Laws/Regs.lean ====
section
/-!
SUPPORT. What a register, a field or a bit reads after a register was written.
-/

namespace Sys2Proof.Machine

theorem Dev.rd_wr_same (d : Dev) (a v : Nat) : (d.wr a v).rd a = v % 2 ^ 32 := by
  simp [Dev.rd, Dev.wr, mapGet_mapSet_same]

/-- Writing a register leaves every other register alone. -/
theorem Dev.rd_wr_ne (d : Dev) (v : Nat) {a b : Nat} (h : b ≠ a) : (d.wr a v).rd b = d.rd b := by
  simp [Dev.rd, Dev.wr, mapGet_mapSet_ne _ _ _ h]

theorem Dev.rd_lt (d : Dev) (a : Nat) : d.rd a < 2 ^ 32 := (mapGet 0 d.regs a).isLt

theorem Dev.rd_wrF_ne (d : Dev) (lo n v : Nat) {a b : Nat} (h : b ≠ a) : (d.wrF a lo n v).rd b = d.rd b :=
  d.rd_wr_ne _ h

theorem Dev.rd_wrBit_ne (d : Dev) (i : Nat) (x : Bool) {a b : Nat} (h : b ≠ a) : (d.wrBit a i x).rd b = d.rd b :=
  d.rd_wr_ne _ h

theorem Dev.rd_bump_ne (d : Dev) {a b : Nat} (h : b ≠ a) : (d.bump a).rd b = d.rd b := d.rd_wr_ne _ h

theorem Dev.rd_wr64_ne (d : Dev) (v : Nat) {a b : Nat} (h : b ≠ a) (h4 : b ≠ a + 4) : (d.wr64 a v).rd b = d.rd b := by
  unfold Dev.wr64; rw [Dev.rd_wr_ne _ _ h4, Dev.rd_wr_ne _ _ h]

/-- A counter that is bumped gains 1 and stays at its largest value. -/
theorem Dev.rd_bump_same (d : Dev) (a : Nat) : (d.bump a).rd a = min (d.rd a + 1) 0xFFFFFFFF := by
  unfold Dev.bump Dev.bumpBy
  rw [Dev.rd_wr_same]
  exact Nat.mod_eq_of_lt (by omega)

@[simp] theorem Dev.rd_send (d : Dev) (t : Tx) (a : Nat) : (d.send t).rd a = d.rd a := rfl
@[simp] theorem Dev.rd_tick (d : Dev) (a : Nat) : d.tick.rd a = d.rd a := rfl
@[simp] theorem Dev.rd_setQs (d : Dev) (q : Nat) (x : QSt) (a : Nat) : (d.setQs q x).rd a = d.rd a := rfl
@[simp] theorem Dev.rd_toHost (d : Dev) (h : Nat) (bs : List Byte) (a : Nat) : (d.toHost h bs).rd a = d.rd a := rfl
@[simp] theorem Dev.rd_keep (d : Dev) (o : Out) (a : Nat) : (d.keep o).rd a = d.rd a := rfl

/-- Consecutive registers that were written read back, cut to 32 bits. -/
theorem Dev.rd_wrWords_inside (d : Dev) (a : Nat) (ws : List Nat) (i : Nat) (h : i < ws.length) :
    (d.wrWords a ws).rd (a + 4 * i) = ws.getD i 0 % 2 ^ 32 := by
  unfold Dev.rd Dev.wrWords
  dsimp only
  rw [mapGet_mapWriteWords_inside _ _ _ _ _ (by simpa using h)]
  simp [List.getD_eq_getElem?_getD, List.getElem?_eq_getElem h]

/-- Every other register reads as before. -/
theorem Dev.rd_wrWords_outside (d : Dev) (a : Nat) (ws : List Nat) (b : Nat) (h : ∀ i, i < ws.length → b ≠ a + 4 * i) :
    (d.wrWords a ws).rd b = d.rd b := by
  unfold Dev.rd Dev.wrWords
  dsimp only
  rw [mapGet_mapWriteWords_outside _ _ _ _ _ (by simpa using h)]

/-! ## Fields -/

theorem fld_lt (w lo n : Nat) : fld w lo n < 2 ^ n := Nat.mod_lt _ (Nat.two_pow_pos n)

/-- The parts of a word below, in and above a field. -/
theorem fld_split (w lo n : Nat) : w = w % 2 ^ lo + fld w lo n * 2 ^ lo + w / 2 ^ (lo + n) * 2 ^ (lo + n) := by
  unfold fld
  have h1 := Nat.mod_add_div w (2 ^ lo)
  have h2 := Nat.mod_add_div (w / 2 ^ lo) (2 ^ n)
  have h3 : w / 2 ^ (lo + n) = w / 2 ^ lo / 2 ^ n := by rw [pow_add, Nat.div_div_eq_div_mul]
  have h4 : (w / 2 ^ lo % 2 ^ n + 2 ^ n * (w / 2 ^ lo / 2 ^ n)) * 2 ^ lo = w / 2 ^ lo * 2 ^ lo := by rw [h2]
  rw [h3, pow_add]
  linarith [h1, h4]

theorem putFld_eq (w lo n v : Nat) :
    putFld w lo n v = w % 2 ^ lo + v % 2 ^ n * 2 ^ lo + w / 2 ^ (lo + n) * 2 ^ (lo + n) := by
  unfold putFld
  have := fld_split w lo n
  omega

/-- The field that was put reads as what was put, cut to its width. -/
theorem fld_putFld_same (w lo n v : Nat) : fld (putFld w lo n v) lo n = v % 2 ^ n := by
  rw [putFld_eq]
  unfold fld
  have hl := Nat.mod_lt w (Nat.two_pow_pos lo)
  have e : w % 2 ^ lo + v % 2 ^ n * 2 ^ lo + w / 2 ^ (lo + n) * 2 ^ (lo + n) =
      w % 2 ^ lo + (v % 2 ^ n + w / 2 ^ (lo + n) * 2 ^ n) * 2 ^ lo := by rw [pow_add]; ring
  rw [e, Nat.add_mul_div_right _ _ (Nat.two_pow_pos lo), Nat.div_eq_of_lt hl, Nat.zero_add, Nat.add_mul_mod_self_right,
    Nat.mod_mod]

/-- A field below the one that was put is left alone. -/
theorem fld_putFld_below (w lo n v : Nat) {lo' n' : Nat} (h : lo' + n' ≤ lo) :
    fld (putFld w lo n v) lo' n' = fld w lo' n' := by
  have key : ∀ x y : Nat, x % 2 ^ lo = y % 2 ^ lo → fld x lo' n' = fld y lo' n' := by
    intro x y hxy
    unfold fld
    have e : ∀ z : Nat, z / 2 ^ lo' % 2 ^ n' = z % 2 ^ (lo' + n') / 2 ^ lo' := by
      intro z
      rw [pow_add, Nat.mod_mul_right_div_self]
    have m : ∀ z : Nat, z % 2 ^ (lo' + n') = z % 2 ^ lo % 2 ^ (lo' + n') := by
      intro z
      rw [Nat.mod_mod_of_dvd _ (pow_dvd_pow 2 h)]
    rw [e, e, m x, m y, hxy]
  apply key
  rw [putFld_eq, pow_add]
  have e : w % 2 ^ lo + v % 2 ^ n * 2 ^ lo + w / (2 ^ lo * 2 ^ n) * (2 ^ lo * 2 ^ n) =
      w % 2 ^ lo + (v % 2 ^ n + w / (2 ^ lo * 2 ^ n) * 2 ^ n) * 2 ^ lo := by ring
  rw [e, Nat.add_mul_mod_self_right, Nat.mod_mod]

/-- A field above the one that was put is left alone. -/
theorem fld_putFld_above (w lo n v : Nat) {lo' n' : Nat} (h : lo + n ≤ lo') :
    fld (putFld w lo n v) lo' n' = fld w lo' n' := by
  unfold fld
  have key : putFld w lo n v / 2 ^ (lo + n) = w / 2 ^ (lo + n) := by
    rw [putFld_eq]
    have hl := Nat.mod_lt w (Nat.two_pow_pos lo)
    have hv := Nat.mod_lt v (Nat.two_pow_pos n)
    have hb : w % 2 ^ lo + v % 2 ^ n * 2 ^ lo < 2 ^ (lo + n) := by
      rw [pow_add]
      nlinarith [Nat.mul_le_mul_right (2 ^ lo) (Nat.succ_le_of_lt hv)]
    rw [Nat.add_mul_div_right _ _ (Nat.two_pow_pos _), Nat.div_eq_of_lt hb, Nat.zero_add]
  obtain ⟨k, rfl⟩ := Nat.exists_eq_add_of_le h
  rw [pow_add 2 (lo + n) k, ← Nat.div_div_eq_div_mul, ← Nat.div_div_eq_div_mul, key]

theorem putFld_lt (w lo n v : Nat) (hw : w < 2 ^ 32) (h : lo + n ≤ 32) : putFld w lo n v < 2 ^ 32 := by
  rw [putFld_eq]
  have hl := Nat.mod_lt w (Nat.two_pow_pos lo)
  have hv := Nat.mod_lt v (Nat.two_pow_pos n)
  have hb : w % 2 ^ lo + v % 2 ^ n * 2 ^ lo < 2 ^ (lo + n) := by
    rw [pow_add]
    nlinarith [Nat.mul_le_mul_right (2 ^ lo) (Nat.succ_le_of_lt hv)]
  obtain ⟨k, hk⟩ := Nat.exists_eq_add_of_le h
  have h32 : (2 : Nat) ^ 32 = 2 ^ (lo + n) * 2 ^ k := by rw [← pow_add, ← hk]
  have hq : w / 2 ^ (lo + n) < 2 ^ k := by
    rw [Nat.div_lt_iff_lt_mul (Nat.two_pow_pos _), mul_comm, ← h32]
    exact hw
  rw [h32]
  nlinarith [Nat.two_pow_pos (lo + n)]

theorem Dev.rd_wrF_same (d : Dev) (a lo n v : Nat) (h : lo + n ≤ 32) :
    (d.wrF a lo n v).rd a = putFld (d.rd a) lo n v := by
  unfold Dev.wrF
  rw [Dev.rd_wr_same, Nat.mod_eq_of_lt (putFld_lt _ _ _ _ (d.rd_lt a) h)]

theorem Dev.rdF_wrF_same (d : Dev) (a lo n v : Nat) (h : lo + n ≤ 32) : (d.wrF a lo n v).rdF a lo n = v % 2 ^ n := by
  unfold Dev.rdF
  rw [Dev.rd_wrF_same d a lo n v h, fld_putFld_same]

theorem Dev.rdF_wrF_ne (d : Dev) (lo n v : Nat) {a b lo' n' : Nat} (h : b ≠ a) :
    (d.wrF a lo n v).rdF b lo' n' = d.rdF b lo' n' := by
  unfold Dev.rdF
  rw [Dev.rd_wrF_ne d lo n v h]

theorem Dev.rdF_wrF_other (d : Dev) (a lo n v : Nat) {lo' n' : Nat} (h : lo + n ≤ 32)
    (o : lo' + n' ≤ lo ∨ lo + n ≤ lo') : (d.wrF a lo n v).rdF a lo' n' = d.rdF a lo' n' := by
  unfold Dev.rdF
  rw [Dev.rd_wrF_same d a lo n v h]
  rcases o with o | o
  · exact fld_putFld_below _ _ _ _ o
  · exact fld_putFld_above _ _ _ _ o

theorem Dev.bit_wrBit_same (d : Dev) (a i : Nat) (x : Bool) (h : i < 32) : (d.wrBit a i x).bit a i = x := by
  unfold Dev.bit bitOf Dev.wrBit
  rw [Dev.rd_wrF_same d a i 1 _ (by omega), fld_putFld_same]
  cases x <;> rfl

theorem Dev.bit_wrBit_other (d : Dev) (a i : Nat) (x : Bool) {j : Nat} (h : i < 32) (hj : j ≠ i) :
    (d.wrBit a i x).bit a j = d.bit a j := by
  unfold Dev.bit bitOf Dev.wrBit
  rw [Dev.rd_wrF_same d a i 1 _ (by omega)]
  rcases Nat.lt_or_gt_of_ne hj with o | o
  · rw [fld_putFld_below _ _ _ _ (by omega)]
  · rw [fld_putFld_above _ _ _ _ (by omega)]

theorem Dev.bit_wrBit_ne (d : Dev) (i j : Nat) (x : Bool) {a b : Nat} (h : b ≠ a) : (d.wrBit a i x).bit b j = d.bit b j := by
  unfold Dev.bit
  rw [Dev.rd_wrBit_ne d i x h]

end Sys2Proof.Machine
end

