-- ==== Sys2Proof/Laws/Shared.lean ====
section
/-!
SUPPORT. What the shared operations can do, said once: which registers an append, an interrupt, an event and a completion
write, and that they leave the rest of the module alone.
-/

namespace Sys2Proof.Machine

/-- From `d` to `d'` only the log, what was sent, host memory and the queues, what the control plane knows of the parts, and registers of a
set have changed. -/
def Dev.Touches (S : Nat → Prop) (d d' : Dev) : Prop :=
  (∃ m l t h k, d' = { d with regs := m, log := l, tx := t, host := h, ctl := k }) ∧ ∀ a, ¬S a → d'.rd a = d.rd a

/-- The registers that an append to the log writes (R499, R500). -/
def logReg (a : Nat) : Prop :=
  a = Reg.NVM_LOG_NEXT_LO ∨ a = Reg.NVM_LOG_NEXT_LO + 4 ∨ a = Reg.NVM_LOG_OLDEST_LO ∨ a = Reg.NVM_LOG_OLDEST_LO + 4 ∨
    a = Reg.HLTH_STATUS ∨ a = Reg.HLTH_LOG_DROP

/-- The registers that a masked interrupt writes, its pending bits (R101). -/
def pbaReg (a : Nat) : Prop := a = Reg.HOSTQ_MSIX_PBA 0 ∨ a = Reg.HOSTQ_MSIX_PBA 1

namespace Dev

theorem Touches.refl (S : Nat → Prop) (d : Dev) : Touches S d d := ⟨⟨d.regs, d.log, d.tx, d.host, d.ctl, rfl⟩, fun _ _ => rfl⟩

theorem Touches.trans {S : Nat → Prop} {a b c : Dev} (h : Touches S a b) (g : Touches S b c) : Touches S a c := by
  obtain ⟨⟨m, l, t, x, k, rfl⟩, h2⟩ := h
  obtain ⟨⟨m', l', t', x', k', rfl⟩, g2⟩ := g
  exact ⟨⟨m', l', t', x', k', rfl⟩, fun r hr => (g2 r hr).trans (h2 r hr)⟩

theorem Touches.mono {S T : Nat → Prop} {a b : Dev} (h : Touches S a b) (st : ∀ r, S r → T r) : Touches T a b :=
  ⟨h.1, fun r hr => h.2 r (fun s => hr (st _ s))⟩

/-- What `Touches` says of each field it leaves alone. -/
theorem Touches.fields {S : Nat → Prop} {a b : Dev} (h : Touches S a b) :
    b.tc = a.tc ∧ b.cfg = a.cfg ∧ b.job = a.job ∧ b.strip = a.strip ∧ b.rast = a.rast ∧ b.fire = a.fire ∧ b.lace = a.lace ∧
    b.pair = a.pair ∧ b.pos = a.pos ∧ b.mem = a.mem ∧ b.safe = a.safe ∧ b.cam = a.cam ∧ b.loop = a.loop ∧ b.time = a.time ∧
    b.visUse = a.visUse ∧ b.net = a.net ∧ b.lane = a.lane ∧ b.pwr = a.pwr ∧ b.hlth = a.hlth ∧ b.freeCtr = a.freeCtr := by
  obtain ⟨⟨m, l, t, x, k, rfl⟩, -⟩ := h
  simp

theorem touches_wr {S : Nat → Prop} (d : Dev) (a v : Nat) (h : S a) : Touches S d (d.wr a v) :=
  ⟨⟨_, _, _, _, _, rfl⟩, fun _ hr => d.rd_wr_ne v (fun e => hr (e ▸ h))⟩

theorem touches_wrF {S : Nat → Prop} (d : Dev) (a lo n v : Nat) (h : S a) : Touches S d (d.wrF a lo n v) := d.touches_wr a _ h

theorem touches_wrBit {S : Nat → Prop} (d : Dev) (a i : Nat) (x : Bool) (h : S a) : Touches S d (d.wrBit a i x) :=
  d.touches_wr a _ h

theorem touches_bump {S : Nat → Prop} (d : Dev) (a : Nat) (h : S a) : Touches S d (d.bump a) := d.touches_wr a _ h

theorem touches_bumpBy {S : Nat → Prop} (d : Dev) (a k : Nat) (h : S a) : Touches S d (d.bumpBy a k) := d.touches_wr a _ h

theorem touches_wr64 {S : Nat → Prop} (d : Dev) (a v : Nat) (h : S a) (h4 : S (a + 4)) : Touches S d (d.wr64 a v) :=
  (d.touches_wr a v h).trans (touches_wr _ _ _ h4)

theorem touches_publish {S : Nat → Prop} (d : Dev) (a : Nat) (h : S a) : Touches S d (d.publish a) :=
  (d.touches_wrF a _ _ _ h).trans (touches_wrBit _ _ _ _ h)

theorem touches_send {S : Nat → Prop} (d : Dev) (t : Tx) : Touches S d (d.send t) := ⟨⟨_, _, _, _, _, rfl⟩, fun _ _ => rfl⟩

theorem touches_setQs {S : Nat → Prop} (d : Dev) (q : Nat) (x : QSt) : Touches S d (d.setQs q x) :=
  ⟨⟨_, _, _, _, _, rfl⟩, fun _ _ => rfl⟩

theorem touches_toHost {S : Nat → Prop} (d : Dev) (a : Nat) (bs : List Byte) : Touches S d (d.toHost a bs) :=
  ⟨⟨_, _, _, _, _, rfl⟩, fun _ _ => rfl⟩

theorem touches_keep {S : Nat → Prop} (d : Dev) (o : Out) : Touches S d (d.keep o) := ⟨⟨_, _, _, _, _, rfl⟩, fun _ _ => rfl⟩

theorem countFault_touches (d : Dev) (ev : Ev) : Touches logReg d (d.countFault ev) := by
  unfold countFault
  split
  · exact d.touches_wrF _ _ _ _ (by simp [logReg])
  · exact .refl _ d

/-- An append writes the log, its sequence registers, the fault count and the drop count, and nothing else (R499, R500). -/
theorem append_touches (d : Dev) (origin : Nat) (ev : Ev) (p : List Byte) : Touches logReg d (d.append origin ev p) := by
  have h1 : Touches logReg d ((d.wr64 Reg.NVM_LOG_NEXT_LO (d.rd64 Reg.NVM_LOG_NEXT_LO + 1)).countFault ev) :=
    (d.touches_wr64 _ _ (by simp [logReg]) (by simp [logReg])).trans (countFault_touches _ _)
  unfold append
  dsimp only
  split
  · split
    · exact (h1.trans ⟨⟨_, _, _, _, _, rfl⟩, fun _ _ => rfl⟩).trans (touches_wr64 _ _ _ (by simp [logReg]) (by simp [logReg]))
    · exact h1.trans ⟨⟨_, _, _, _, _, rfl⟩, fun _ _ => rfl⟩
  · exact h1.trans (touches_bump _ _ (by simp [logReg]))

/-- An interrupt is sent, or sets its pending bit (R101). -/
theorem vector_touches (d : Dev) (v : Nat) (hv : v < 64) : Touches pbaReg d (d.vector v) := by
  have hp : pbaReg (Reg.HOSTQ_MSIX_PBA (v / 32)) := by
    have : v / 32 = 0 ∨ v / 32 = 1 := by omega
    rcases this with h | h <;> rw [h]
    · exact .inl rfl
    · exact .inr rfl
  unfold vector
  split
  · exact d.touches_wrBit _ _ _ hp
  · exact d.touches_send _

/-- What the control plane learns of the parts is its own (R137). -/
theorem learn_touches {S : Nat → Prop} (d : Dev) (ev : Ev) (seq : Nat) : Touches S d (d.learn ev seq) := by
  unfold learn takeHealth
  split
  · exact ⟨⟨_, _, _, _, _, rfl⟩, fun _ _ => rfl⟩
  · exact .refl _ d

/-- An event is an append, for the data and the management plane an interrupt, and for the data plane what the control plane learns
from it (R101, R137, R270). -/
theorem event_touches (d : Dev) (origin : Nat) (ev : Ev) (p : List Byte) :
    Touches (fun a => logReg a ∨ pbaReg a) d (d.event origin ev p) := by
  have h1 := (d.append_touches origin ev p).mono (T := fun a => logReg a ∨ pbaReg a) (fun _ h => .inl h)
  have h2 : ∀ v, v < 64 → Touches (fun a => logReg a ∨ pbaReg a) d ((d.append origin ev p).vector v) :=
    fun v hv => h1.trans ((vector_touches _ _ hv).mono (fun _ h => .inr h))
  unfold event
  dsimp only
  split
  · split
    · exact (h2 16 (by decide)).trans (learn_touches _ _ _)
    · exact h2 16 (by decide)
  · split
    · exact h2 40 (by decide)
    · exact h1

theorem writeIgnored_touches (d : Dev) (a v : Nat) : Touches logReg d (d.writeIgnored a v) := d.append_touches _ _ _

theorem completionVector_touches (d : Dev) (q : Nat) : Touches pbaReg d (d.completionVector q) :=
  (d.vector_touches _ (Nat.mod_lt _ (by decide))).trans (touches_setQs _ _ _)

theorem signal_touches (d : Dev) (q : Nat) (c : Bool) : Touches pbaReg d (if c then d.completionVector q else d) := by
  cases c
  · exact .refl _ d
  · exact d.completionVector_touches q

/-- A completion entry writes host memory, the CQ tail of its pair and, when it signals, a pending bit (R100, R102). -/
theorem postCq_touches (d : Dev) (q tag status result sqHead : Nat) :
    Touches (fun a => pbaReg a ∨ a = Reg.HOSTQ_Q_CQ_TAIL q) d (d.postCq q tag status result sqHead) := by
  unfold postCq
  dsimp only
  refine Touches.trans (((d.touches_toHost _ _).trans (touches_wr _ (Reg.HOSTQ_Q_CQ_TAIL q) _ (.inr rfl))).trans
    (touches_setQs _ _ _)) ((signal_touches _ _ _).mono fun _ h => Or.inl h)

/-- An append, an interrupt and an event leave host memory and the queues alone. -/
theorem append_host (d : Dev) (origin : Nat) (ev : Ev) (p : List Byte) : (d.append origin ev p).host = d.host := by
  unfold append countFault
  dsimp only
  repeat' split
  all_goals simp

theorem vector_host (d : Dev) (v : Nat) : (d.vector v).host = d.host := by
  unfold vector
  split <;> rfl

theorem learn_host (d : Dev) (ev : Ev) (seq : Nat) : (d.learn ev seq).host = d.host := by
  unfold learn takeHealth
  split <;> rfl

theorem event_host (d : Dev) (origin : Nat) (ev : Ev) (p : List Byte) : (d.event origin ev p).host = d.host := by
  unfold event
  dsimp only
  repeat' split
  all_goals simp [append_host, vector_host, learn_host]

/-- An append sends nothing. -/
theorem append_tx (d : Dev) (origin : Nat) (ev : Ev) (p : List Byte) : (d.append origin ev p).tx = d.tx := by
  unfold append countFault
  dsimp only
  repeat' split
  all_goals simp

/-- The log's ring is written by a flush alone (R500). -/
theorem append_ring (d : Dev) (origin : Nat) (ev : Ev) (p : List Byte) : (d.append origin ev p).log.ring = d.log.ring := by
  unfold append countFault
  dsimp only
  repeat' split
  all_goals simp

end Dev

/-! ## Completion -/

/-- The registers of a plane's mailbox (R103). -/
def mboxReg (plane a : Nat) : Prop :=
  a = Reg.HOSTQ_MBOX_TAG_STATUS plane ∨ a = Reg.HOSTQ_MBOX_STAT plane ∨ ∃ j, j < 8 ∧ a = Reg.HOSTQ_MBOX_DATA plane j

/-- From `d` to `d'` only the log, what was sent, host memory and the queues, the pair's block, and registers of a set have
changed; the commands that have started are the same. -/
def Dev.Completes (S : Nat → Prop) (d d' : Dev) : Prop :=
  (∃ m l t h p k, d' = { d with regs := m, log := l, tx := t, host := h, pair := p, ctl := k }) ∧ (∀ a, ¬S a → d'.rd a = d.rd a) ∧
    d'.host.outs = d.host.outs

namespace Dev

theorem Completes.refl (S : Nat → Prop) (d : Dev) : Completes S d d :=
  ⟨⟨d.regs, d.log, d.tx, d.host, d.pair, d.ctl, rfl⟩, fun _ _ => rfl, rfl⟩

theorem Completes.trans {S : Nat → Prop} {a b c : Dev} (h : Completes S a b) (g : Completes S b c) : Completes S a c := by
  obtain ⟨⟨m, l, t, x, p, k, rfl⟩, h2, h3⟩ := h
  obtain ⟨⟨m', l', t', x', p', k', rfl⟩, g2, g3⟩ := g
  exact ⟨⟨m', l', t', x', p', k', rfl⟩, fun r hr => (g2 r hr).trans (h2 r hr), g3.trans h3⟩

theorem Completes.mono {S T : Nat → Prop} {a b : Dev} (h : Completes S a b) (st : ∀ r, S r → T r) : Completes T a b :=
  ⟨h.1, fun r hr => h.2.1 r (fun s => hr (st _ s)), h.2.2⟩

theorem Touches.completes {S : Nat → Prop} {a b : Dev} (h : Touches S a b) (o : b.host.outs = a.host.outs) :
    Completes S a b := by
  obtain ⟨⟨m, l, t, x, k, rfl⟩, h2⟩ := h
  exact ⟨⟨m, l, t, x, a.pair, k, rfl⟩, h2, o⟩

theorem shankParts_frame (kind n : Nat) (d : Dev) (body : List Byte) :
    ∃ t p, Dev.shankParts kind n d body = { d with tx := t, pair := p } := by
  induction n generalizing d body with
  | zero => exact ⟨d.tx, d.pair, rfl⟩
  | succ n ih =>
    unfold shankParts
    split
    · exact ⟨_, _, rfl⟩
    · obtain ⟨t, p, e⟩ := ih (d.shankOne kind 1 (body.take 4096)) (body.drop 4096)
      exact ⟨t, p, by rw [e]; rfl⟩

/-- Sending to the partner changes what was sent and the pair's block alone (R419, R420). -/
theorem shank_frame (d : Dev) (kind : Nat) (body : List Byte) : ∃ t p, d.shank kind body = { d with tx := t, pair := p } := by
  unfold shank
  split
  · exact shankParts_frame _ _ _ _
  · exact ⟨d.tx, d.pair, rfl⟩

theorem cmdDone_frame (d : Dev) (o : Out) (status result : Nat) :
    ∃ t p, d.cmdDone o status result = { d with tx := t, pair := p } := by
  unfold cmdDone
  split
  · split
    · exact shank_frame _ _ _
    · exact ⟨d.tx, d.pair, rfl⟩
  · exact ⟨d.tx, d.pair, rfl⟩

theorem cmdDone_completes (S : Nat → Prop) (d : Dev) (o : Out) (status result : Nat) :
    Completes S d (d.cmdDone o status result) := by
  obtain ⟨t, p, e⟩ := d.cmdDone_frame o status result
  rw [e]
  exact ⟨⟨_, _, _, _, _, _, rfl⟩, fun _ _ => rfl, rfl⟩

theorem mailbox_touches (d : Dev) (plane tag status : Nat) (data : List Byte) :
    Touches (mboxReg plane) d (d.mailbox plane tag status data) := by
  have hl : (bytesWords ((data ++ List.replicate 32 0).take 32)).length ≤ 8 := by
    have h : ∀ (n : Nat) (bs : List Byte), bs.length ≤ 4 * n → (bytesWords bs).length ≤ n := by
      intro n
      induction n with
      | zero => intro bs h; obtain rfl : bs = [] := List.length_eq_zero_iff.1 (by omega); simp [bytesWords]
      | succ n ih =>
        intro bs h
        match bs, h with
        | [], _ => simp [bytesWords]
        | [_], _ => simp [bytesWords]
        | [_, _], _ => simp [bytesWords]
        | [_, _, _], _ => simp [bytesWords]
        | _ :: _ :: _ :: _ :: r, h =>
          have := ih r (by simp at h; omega)
          simp only [bytesWords, List.length_cons]
          omega
    exact h 8 _ (by simp)
  have h1 : Touches (mboxReg plane) d
      (d.wrWords (Reg.HOSTQ_MBOX_DATA plane 0) (bytesWords ((data ++ List.replicate 32 0).take 32))) := by
    refine ⟨⟨_, _, _, _, _, rfl⟩, fun r hr => d.rd_wrWords_outside _ _ _ fun i hi e => hr (.inr (.inr ⟨i, by omega, ?_⟩))⟩
    rw [e]
    simp [Reg.HOSTQ_MBOX_DATA]
  exact (h1.trans (touches_wr _ _ _ (.inl rfl))).trans (touches_publish _ _ (.inr (.inl rfl)))

theorem setPair_completes (S : Nat → Prop) (d : Dev) (p : PairSt) (c : Bool) :
    Completes S d (if c then { d with pair := p } else d) := by
  cases c
  · exact .refl _ d
  · exact ⟨⟨_, _, _, _, _, _, rfl⟩, fun _ _ => rfl, rfl⟩

theorem signal_outs (d : Dev) (q : Nat) (c : Bool) : (if c then d.completionVector q else d).host.outs = d.host.outs := by
  cases c
  · rfl
  · show (d.vector _).host.outs = _
    rw [vector_host]

theorem postCq_outs (d : Dev) (q tag status result sqHead : Nat) :
    (d.postCq q tag status result sqHead).host.outs = d.host.outs := by
  unfold postCq
  extract_lets t ph d1 t' ph' d2 src d3
  rw [signal_outs]
  simp [d3, d2, d1, setQs, toHost]

theorem mailbox_host (d : Dev) (plane tag status : Nat) (data : List Byte) : (d.mailbox plane tag status data).host = d.host := by
  simp [mailbox]

/-- A completion writes its pair's CQ tail, a pending interrupt bit and the mailbox of its pair's plane, host memory, what the pair sends,
and nothing else (R100 to R104, R424). -/
theorem complete_completes (d : Dev) (o : Out) (status result : Nat) (data : List Byte) :
    Completes (fun a => (pbaReg a ∨ a = Reg.HOSTQ_Q_CQ_TAIL o.q) ∨ mboxReg (d.qPlane o.q) a) d
      (d.complete o status result data) := by
  have h1 : ∀ (x : Dev) (c : Bool), x.qPlane o.q = d.qPlane o.q →
      Completes (fun a => (pbaReg a ∨ a = Reg.HOSTQ_Q_CQ_TAIL o.q) ∨ mboxReg (d.qPlane o.q) a) x
      (if c = true then x.mailbox (x.qPlane o.q) (entTag o.entry) status data else x) := by
    intro x c hx
    cases c
    · exact .refl _ x
    · exact ((mailbox_touches x _ _ _ _).mono fun _ h => Or.inr (hx ▸ h)).completes (congrArg _ (mailbox_host x _ _ _ _))
  have h2 : ∀ (x : Dev) (r : Nat) (c : Bool),
      Completes (fun a => (pbaReg a ∨ a = Reg.HOSTQ_Q_CQ_TAIL o.q) ∨ mboxReg (d.qPlane o.q) a) x
      (if c = true then x.postCq o.q (entTag o.entry) status r o.sqHead else x) := by
    intro x r c
    cases c
    · exact .refl _ x
    · refine ((postCq_touches x _ _ _ _ _).mono fun _ h => Or.inl h).completes ?_
      exact postCq_outs _ _ _ _ _ _
  unfold complete
  extract_lets res src d0 d1 d2
  have hp : d1.qPlane o.q = d.qPlane o.q := by
    have e0 : d0.regs = d.regs := by show (if _ then _ else d).regs = _; split <;> rfl
    have e1 : d1.regs = d0.regs := by
      obtain ⟨t, p, e⟩ := d0.cmdDone_frame o status res
      show (d0.cmdDone o status res).regs = _
      rw [e]
    unfold qPlane rdF rd
    rw [e1, e0]
  exact (((setPair_completes _ d _ _).trans (cmdDone_completes _ d0 o status res)).trans (h1 d1 _ hp)).trans (h2 d2 res o.post)

end Dev

end Sys2Proof.Machine
end

