-- ==== Sys2Proof/Machine/Pci.lean ====
section
/-!
DEFINITION. The PCI function of the endpoint (R73, R86): identity, class, base address registers and limits, and what its configuration
space reads.  No command of the table carries a configuration cycle, so nothing programs the function: the model takes it as enabled
(log entry 111).
-/

namespace Sys2Proof.Machine

/-- Vendor ID 0x0A5E and device ID 0x0820 (R86), as the first word of the header. -/
def pciIds : Nat := 0x0820 * 0x10000 + 0x0A5E

/-- Class code 0x11_8000 (R86). -/
def pciClass : Nat := 0x118000

/-- Bytes of the memory that a base address register pair maps: BAR0 and BAR1, BAR2 and BAR3; the others are not implemented (R86). -/
def barBytes (bar : Nat) : Nat := if bar / 2 = 0 then 0x1000000 else if bar / 2 = 1 then 0x40000 else 0

/-- A base address register after a value has been written to it: the bits below the size read 0, and bits [3:0] of the low half tell a
64-bit non-prefetchable memory (R86; the layout is the PCI type 0 header's, log entry 111). -/
def barRead (bar v : Nat) : Nat :=
  if barBytes bar = 0 then 0 else if bar % 2 = 1 then v % 0x100000000 else v % 0x100000000 / barBytes bar * barBytes bar + 4

/-- Payload and read request sizes in bytes, and non-posted requests outstanding (R86). -/
def pciPayloads : List Nat := [128, 256, 512]
def pciReads : List Nat := [128, 256, 512, 1024, 2048, 4096]
def pciTags : Nat := 512

/-- A read of the function's header at a word offset: none while the endpoint answers with Configuration Request Retry Status (R73).
The revision, which the spec does not give, is left open. -/
def Dev.configRead (d : Dev) (off : Nat) : Option Nat :=
  if d.configRetry then none
  else if off = 0 then some pciIds
  else if off = 8 then some (pciClass * 0x100 + (Config.freeWord d.freeCtr).toNat % 0x100)
  else if 0x10 ≤ off ∧ off < 0x28 then some (barRead ((off - 0x10) / 4) 0)
  else some 0

end Sys2Proof.Machine
end

