-- ==== Sys2Proof/WellFormed.lean ====
section
/-!
DEFINITION. Which terms stand for something outside the module: the lengths and ranges that the spec's layouts fix and
the types do not.  No meaning depends on this check: it says what the outside can deliver, and a command runs on any operand, fitted to
the layout where it does not fit (log entry 6).
-/

namespace Sys2Proof

open Machine

/-- A hold-up measurement is possible: the voltage falls, and lies above the dropout voltage. -/
def HoldUp.ok (m : HoldUp) : Bool := decide (m.v2 < m.v1) && decide (m.vMin < m.v1) && decide (m.v1 < 1000000)

/-- A temperature in 1/16 degC that its register field can show. -/
def tempFits (x : Int) : Bool := decide (-32768 ≤ x ∧ x ≤ 32767)

/-- The term's operands have the lengths and ranges of the spec's layouts. -/
def Instr.wf : Instr → Bool
  | .sqFetch _ (.entries es) => es.all (fun e => e.length == 64)
  | .memoryRequest _ _ addr w _ =>
    decide (addr < 0x400000000) && addr % 64 == 0 &&
      (match w with | some (o, bs) => !bs.isEmpty && decide (o + bs.length ≤ 64) | none => true)
  | .cameraLine _ (.line ss _ _) => ss.length == 73728
  | .servoUpdate _ tau => decide (0 < tau)
  | .dutyParameterCheck xs => xs.all (fun x => x.2.length == 7)
  | .baseplateTempRead bp die => bp.length == 3 && die.length == 5 && bp.all tempFits && die.all tempFits
  | .mainsDipReturn m => m.ok
  | .holdupTest m => m.ok
  | .ageingMeasurement rs => rs.length == 16 && rs.all (fun r => decide (0 < r.2))
  | _ => true

end Sys2Proof
end

