-- ==== Sys2Proof/Tests/Slice0.lean ====
section
/-!
SUPPORT. The tests of the model: the terms the check of WellFormed refuses, values worked out from the spec's examples and
layouts, and for each statement with hypotheses a state and operands that meet them.
-/

open Sys2Proof Sys2Proof.Machine

set_option Elab.async false

namespace Sys2Proof.Tests

/-! ## Terms that stand for nothing outside the module -/

theorem test_fetch_length : (Instr.sqFetch 0 (.entries [List.replicate 63 0])).wf = false := by decide
theorem test_memory_line : (Instr.memoryRequest 0 0 65 none false).wf = false ∧ (Instr.memoryRequest 0 0 0x400000000 none false).wf = false := by
  decide
theorem test_memory_write : (Instr.memoryRequest 0 0 64 (some (60, [0, 0, 0, 0, 0])) false).wf = false ∧
    (Instr.memoryRequest 0 0 64 (some (60, [])) false).wf = false ∧ (Instr.memoryRequest 0 0 64 (some (60, [0, 0, 0, 0])) false).wf = true := by
  decide
theorem test_camera_line : (Instr.cameraLine 0 (.line [] false [])).wf = false := by decide
theorem test_servo_interval : (Instr.servoUpdate 0 0).wf = false := by decide
theorem test_duty_set : (Instr.dutyParameterCheck [(0, [1, 2, 3])]).wf = false := by decide
theorem test_plates : (Instr.baseplateTempRead [0, 0] [0, 0, 0, 0, 0]).wf = false ∧
    (Instr.baseplateTempRead [0, 0, 40000] [0, 0, 0, 0, 0]).wf = false ∧ (Instr.baseplateTempRead [0, 0, 0] [0, 0, 0, 0, -40000]).wf = false := by
  decide
theorem test_hold_up : (Instr.mainsDipReturn ⟨10, 10, 5, 1, 1⟩).wf = false ∧ (Instr.holdupTest ⟨10, 9, 10, 1, 1⟩).wf = false := by
  decide
theorem test_rings : (Instr.ageingMeasurement [(1, 1)]).wf = false ∧ (Instr.ageingMeasurement (List.replicate 16 (1, 0))).wf = false := by
  decide

/-! ## Values from the spec -/

/-- The digits 1 to 9, over which the check value of a CRC is stated. -/
def digits : List Byte := [0x31, 0x32, 0x33, 0x34, 0x35, 0x36, 0x37, 0x38, 0x39]
/-- The check values of the two CRCs whose polynomials R276 names. -/
theorem test_crc : crc32c digits = 0xE3069283 ∧ crc16 digits = 0x29B1 := by decide +kernel
/-- R6's example: offset 0x0040 in block FIRE lies at 0x0019_0040; FIRE_STATUS lies in that block. -/
theorem test_block_address : Reg.FIRE_STATUS / 0x10000 = 0x19 := by decide
/-- SYS_ID reads its number, and the PCI function its identifiers (R86). -/
theorem test_sys_id : State.reset.dev.rd Reg.SYS_ID = 0x08200A5E ∧ State.reset.dev.configRead 0 = some 0x08200A5E := by decide +kernel
/-- What stands between the SOF and EOF blocks of a frame is what was put there (R274, R275). -/
theorem test_blocks : deframe (enframe 5 digits.tail) = some (5, digits.tail) ∧ deframe (enframe 5 digits.tail).tail = none := by decide +kernel

/-! ## States and operands that meet the hypotheses of the statements -/

/-- A module of a few registers, with a few RWH registers in force. -/
def devOf (rs cs : List (Nat × Nat)) : Dev :=
  rs.foldl (fun d x => d.wr x.1 x.2)
    { tc := 0, regs := [], cfg := { force := { regs := cs.foldl (fun m x => mapSet 0 m x.1 (BitVec.ofNat 32 x.2)) [] } } }

/-- SYS_STATUS of a module in HOLD or SERVICE, with the feature set locked. -/
def held : Nat × Nat := (Reg.SYS_STATUS, 0x201)
def serving : Nat × Nat := (Reg.SYS_STATUS, 0x202)

/-- Bytes laid over a list from an offset. -/
def lay (bs : List Byte) (x : Nat × List Byte) : List Byte := bs.take x.1 ++ x.2 ++ bs.drop (x.1 + x.2.length)

/-- A submission entry of an opcode, with parameters at their offsets (R96). -/
def entry (opc : Nat) (ps : List (Nat × List Byte)) : List Byte :=
  ps.foldl lay (leBytes 2 opc ++ leBytes 1 0 ++ leBytes 1 (opPlane opc) ++ List.replicate 60 0)

/-- A buffer reference of one element of n bytes at 0x1000. -/
def ref (n : Nat) : Nat × List Byte := (24, leBytes 8 0x1000 ++ leBytes 4 n)

/-- A module whose pair 0 has fetched one entry. -/
def cmdOf (opc : Nat) (ps : List (Nat × List Byte)) (rs cs : List (Nat × Nat)) : Dev :=
  (devOf (rs ++ [(Reg.HOSTQ_Q_CTRL 0, 1 + 2 * opPlane opc), (Reg.HOSTQ_Q_SIZE 0, 0x11), (Reg.HOSTQ_Q_STATUS 0, 1)]) cs).setQs 0
    { fetched := [entry opc ps] }

/-- The hypothesis `Starts` as a test, with a condition on what starts. -/
def starts (d : Dev) (opc : Nat) (p : Out → Dev → Bool) : Bool :=
  !d.halted && d.frontIs 0 opc &&
    match d.startFront 0 with
    | some (o, x) => (x.cmdCheck 0 o.entry).isNone && p o x
    | none => false

theorem starts_spec {d : Dev} {opc : Nat} {P : Out → Dev → Prop} [∀ o x, Decidable (P o x)]
    (h : starts d opc (fun o x => decide (P o x)) = true) : ∃ o x, d.Starts 0 opc o x ∧ P o x := by
  unfold starts at h
  rw [Bool.and_eq_true, Bool.and_eq_true] at h
  obtain ⟨⟨h1, h2⟩, h3⟩ := h
  split at h3
  · rename_i o x h4
    rw [Bool.and_eq_true] at h3
    exact ⟨o, x, ⟨by simpa using h1, h2, h4, by simpa using h3.1⟩, of_decide_eq_true h3.2⟩
  · exact absurd h3 (by simp)

/-- The same for a command that a formed pair would match, on a module outside a formed pair. -/
theorem runs_spec {d : Dev} {opc : Nat} {dma : Dma} {P : Out → Dev → Prop} [∀ o x, Decidable (P o x)]
    (h : starts d opc (fun o x => decide ((x.pairOn && x.formed) = false ∧ P o x)) = true) : ∃ o x, d.Runs 0 opc dma o x ∧ P o x := by
  obtain ⟨o, x, hs, ha, hp⟩ := starts_spec h
  exact ⟨o, x, .inl ⟨hs, ha⟩, hp⟩

/-! ### The queue -/

theorem witness_idle : State.reset.pending = [] ∧ State.reset.dev.pwr.failing = false ∧ State.reset.dev.pwr.stuck = false ∧
    State.reset.dev.entering = false := by decide +kernel
theorem witness_halted : (devOf [(Reg.PWR_STATUS, 3)] []).halted = true ∧ wakesHalted .posSnapshot = false := by decide +kernel

/-! ### Host queues -/

/-- Pair 0 enabled, with 16 entries in each queue. -/
def pair0 : Dev := devOf [(Reg.HOSTQ_Q_CTRL 0, 0x401), (Reg.HOSTQ_Q_SIZE 0, 0x44), (Reg.HOSTQ_Q_CQ_TAIL 0, 3)] []

theorem witness_doorbell : pair0.halted = false ∧ pair0.qFetching 0 = true ∧ pair0.cqServed 0 = true ∧ 15 < pair0.cqSize 0 ∧ 15 < pair0.sqSize 0 ∧
    (15 + 16 - pair0.rdF (Reg.HOSTQ_Q_SQ_TAIL 0) 0 16) % 16 ≤ (pair0.rdF (Reg.HOSTQ_Q_SQ_HEAD 0) 0 16 + 15 + 16 - 0) % 16 ∧
    (3 + 16 - pair0.rdF (Reg.HOSTQ_Q_CQ_HEAD 0) 0 16) % 16 ≤ (pair0.rdF (Reg.HOSTQ_Q_CQ_TAIL 0) 0 16 + 16 - 0) % 16 := by
  decide +kernel
theorem witness_doorbell_bad : pair0.sqSize 0 ≤ 16 ∧ pair0.cqSize 0 ≤ 16 ∧
    (pair0.rdF (Reg.HOSTQ_Q_CQ_TAIL 0) 0 16 + pair0.cqSize 0 - pair0.rdF (Reg.HOSTQ_Q_CQ_HEAD 0) 0 16) % pair0.cqSize 0 <
      (4 + pair0.cqSize 0 - pair0.rdF (Reg.HOSTQ_Q_CQ_HEAD 0) 0 16) % pair0.cqSize 0 := by decide +kernel
theorem witness_fetch : pair0.bit (Reg.HOSTQ_Q_CTRL 0) 3 = false ∧ ∀ e ∈ [entry 0x0101 []], e.length = 64 := by decide +kernel
theorem witness_enable : State.reset.dev.qEnabled 0 = false ∧ State.reset.dev.bit (Reg.HOSTQ_Q_STATUS 0) 0 = false ∧
    (State.reset.dev.writeCtrl 0 1).pairOk 0 = true ∧ (State.reset.dev.writeCtrl 5 1).pairOk 5 = false := by decide +kernel
theorem witness_disable : pair0.qEnabled 0 = true ∧ State.reset.dev.qEnabled 0 = false ∧
    (State.reset.dev.qs 0).fetched = [] ∧ State.reset.dev.qOuts 0 = [] := by decide +kernel
theorem witness_aggregation : pair0.bit (Reg.HOSTQ_Q_CTRL 0) 10 = true ∧
    0 < ((pair0.setQs 0 { unsent := 1 }).qs 0).unsent := by decide +kernel
theorem witness_link : State.reset.dev.halted = false ∧ State.reset.dev.pwr.wakePin = false ∧ 8 ∈ [1, 2, 4, 8] := by
  decide +kernel

/-! ### Resets, mains and presence -/

/-- A start-up in which nothing fails. -/
def fine : StartUp := ⟨0, true, 0, none, none⟩

theorem witness_start : goodStart fine := ⟨rfl, rfl, rfl, rfl⟩
theorem witness_full : let d := State.reset.dev.unpower.j2Quiet.wakeRelease
    mapWf 0 d.regs = true ∧ d.imgOk (d.rdF Reg.NVM_BOOT 0 1) = true := by decide +kernel
theorem witness_full_more : ({ State.reset.dev with pwr := { failing := true } } : Dev).pwr.failing = true ∧
    (State.reset.dev.wrBit Reg.CLK_STATUS 3 true).refFault = true ∧
    ({ State.reset.dev with pwr := { ejected := true } } : Dev).pwr.failing = false ∧
    ({ State.reset.dev with pwr := { removed := true } } : Dev).pwr.ejected = false := by decide +kernel
theorem witness_warm : let d := (((State.reset.dev.enterHold true id).flushLog.unpower).toHoldover false).wakeRelease
    mapWf 0 d.regs = true ∧ d.imgOk (d.rdF Reg.NVM_BOOT 0 1) = true ∧ State.reset.dev.pState ≠ 5 := by decide +kernel
theorem witness_safety_reset : let d := State.reset.dev.wrBit Reg.SAFE_STATUS 3 true
    d.bit Reg.SAFE_STATUS 3 = true ∧ d.safe.asked = false ∧ d.safe.lastReset = none ∧ d.halted = false := by decide +kernel
theorem witness_presence : State.reset.dev.pwr.failing = false ∧ State.reset.dev.pwr.ejected = false ∧
    State.reset.dev.pwr.removed = false ∧ ({ State.reset.dev with pwr := { j2 := false } } : Dev).pwr.j2 = false := by
  decide +kernel
theorem witness_reference : State.reset.dev.bit Reg.CLK_STATUS 0 = true ∨ State.reset.dev.bit Reg.CLK_STATUS 0 = false := by
  decide +kernel
theorem witness_service : (devOf [serving] []).inService = true ∧ (devOf [serving] []).entering = false := by decide +kernel

/-! ### Registers, completion and configuration -/

theorem witness_rows : (State.reset.dev.halted = false ∧ State.reset.dev.inRecovery = false) ∧
    (rowAt 0xFFFFFC).isNone = true ∧ (rowAt Reg.SYS_ID).any (fun r => r.acc = .ro) = true ∧
    (rowAt Reg.SAFE_STATUS).any (fun r => r.acc = .sro) = true ∧ (rowAt Reg.FIRE_BAR_EN).any (fun r => r.acc = .rwh) = true ∧
    (rowAt Reg.CXP_CTL_ADDR).any (fun r => r.acc = .rw ∧ r.base ∈ plainRw) = true := by decide +kernel
theorem witness_features : (devOf [(Reg.SYS_STATUS, 1)] []).featLocked = false ∧ (devOf [(Reg.SYS_STATUS, 1)] []).featBad 0 = true ∧
    (∀ n, n < 256 → (devOf [(Reg.SYS_STATUS, 1), (Reg.SYS_FEAT_ACCEPT 0, 1)] []).featBad n = false) ∧
    (devOf [held] []).featLocked = true := by decide +kernel
theorem witness_completion : let o : Out := { q := 15, entry := entry 0x0101 [], sqHead := 0, post := true }
    pair0.mboxOn o.entry = false ∧ o.actRes = none ∧ o.mkey = none ∧
    pair0.rdF (Reg.HOSTQ_Q_CQ_TAIL 15) 0 16 + 1 = pair0.cqSize 15 ∧
    pair0.rdF (Reg.HOSTQ_Q_CQ_TAIL 0) 0 16 + 1 < pair0.cqSize 0 := by decide +kernel
theorem witness_checks : let d := cmdOf 0x0101 [(8, [3])] [held] []
    d.frontIs 0 0x0101 = true ∧ (d.startFront 0).any (fun x => x.2.cmdCheck 0 x.1.entry = some RESERVED_FIELD) = true := by
  decide +kernel
theorem witness_check_order : let d := devOf [held] []
    cmdInfo (entOpcode (entry 0x0999 [])) = none ∧ d.cmdCheck 0 (entry 0x0201 []) = some WRONG_PLANE ∧
    d.cmdCheck 0 (entry 0x0101 []) = none ∧ (devOf [(Reg.SYS_STATUS, 1)] []).cmdCheck 0 (entry 0x0101 []) = some FEATURES_UNLOCKED ∧
    (devOf [serving] []).cmdCheck 0 (entry 0x0101 []) = some NOT_IN_HOLD ∧
    (devOf [(Reg.SYS_STATUS, 3)] []).cmdCheck 0 (entry 0x0101 []) = some RECOVERY_ONLY := by decide +kernel
theorem witness_cfg_begin : ∃ o x, (cmdOf 0x0101 [] [held] []).Starts 0 0x0101 o x ∧ byteAt o.entry 8 = 0 :=
  starts_spec (by decide +kernel)
theorem witness_cfg_begin_stored : ∃ o x, ({ cmdOf 0x0101 [(8, [1])] [held] [] with
    cfg := { located := some (7, [], {}) } } : Dev).Starts 0 0x0101 o x ∧
    (byteAt o.entry 8 = 1 ∧ x.cfg.located = some (7, [], {}) ∧ [] = x.featSet) := starts_spec (by decide +kernel)
theorem witness_cfg_begin_last : ∃ o x, ({ cmdOf 0x0101 [(8, [2])] [held] [] with cfg := { last := some {} } } : Dev).Starts 0 0x0101 o x ∧
    (byteAt o.entry 8 = 2 ∧ x.cfg.last = some {}) := starts_spec (by decide +kernel)

/-- A module with an open session. -/
def session (d : Dev) : Dev := { d with cfg := { d.cfg with session := some {} } }

theorem witness_cfg_write : ∃ o x, (session (cmdOf 0x0102 [(8, leBytes 4 0x2201), (16, leBytes 4 16), ref 16] [held] [])).Starts 0 0x0102 o x ∧
    (x.cfg.session = some {} ∧ x.buffer o.entry ⟨[], [], none⟩ = .ok [(0x1000, 16)] ∧ cfgSpanOk 0x2201 0 16 = true ∧
      ({} : Image).sizeWith 0x2201 16 ≤ 0x200000) := starts_spec (by decide +kernel)
theorem witness_cfg_commit : ∃ o x, (session (cmdOf 0x0103 [] [held] [])).Starts 0 0x0103 o x ∧
    (x.cfg.session = some {} ∧ numAt o.entry 8 4 = x.rd Reg.SYS_CFG_RUN_COUNT ∧ numAt o.entry 12 4 = x.rd Reg.SYS_CFG_RUN_CRC) :=
  starts_spec (by decide +kernel)
theorem witness_cfg_read : ∃ o x, (session (cmdOf 0x0104 [(12, leBytes 4 Reg.FIRE_BAR_EN), (16, leBytes 4 4), ref 16] [held] [])).Starts
    0 0x0104 o x ∧ (x.buffer o.entry ⟨[], [], none⟩ = .ok [(0x1000, 16)] ∧ x.cfg.session = some {} ∧
      cfgSpanOk (numAt o.entry 8 4) (numAt o.entry 12 4) (numAt o.entry 16 4) = true) := starts_spec (by decide +kernel)
theorem witness_transfer : (dmaBody ⟨[], [], some ⟨0, 0, none⟩⟩ 0x0104).isSome = true ∧
    dataErr ⟨[], [], some ⟨0, 0, none⟩⟩ ≠ none := by decide +kernel

/-- One row of table 0x2201 for a lane of slot A, and the table of the two lanes of bar 0 (R321). -/
def eqRowOf (l : Nat) : List Byte := leBytes 1 l ++ List.replicate 12 0 ++ [0xF, 0, 0]
def eqTable : List Byte :=
  let b := leBytes 4 0x45515442 ++ [1, 0] ++ leBytes 2 2 ++ List.replicate 24 0 ++ eqRowOf 8 ++ eqRowOf 9
  lay b (28, leBytes 4 (crc32c b))

/-- A configuration that passes its checks: bar 0, encoder channel 0 as the reference, and the equaliser rows of bar 0. -/
def good : Image :=
  let rs := [(Reg.FIRE_BAR_EN, 1), (Reg.POS_ENC_CFG 0, 1), (Reg.POS_ENC_SCALE 0, 0x1000000), (Reg.LANE_LN_CFG 8, 4),
    (Reg.LANE_LN_CFG 9, 4), (Reg.POS_REF, 0x70)]
  { resetImage.putTable 0x2201 0 eqTable with regs := rs.foldl (fun m x => mapSet 0 m x.1 (BitVec.ofNat 32 x.2)) resetRwh }

theorem witness_cfg_check : ∃ o x, ({ cmdOf 0x0103 [] [held, (Reg.SYS_FEAT_ACCEPT 0, 0x1000001), (Reg.PLACE_CH_OK, 0xF)] [] with
    cfg := { force := resetImage, session := some good } } : Dev).Starts 0 0x0103 o x ∧
    (x.cfg.session = some good ∧ ({ x with cfg := { x.cfg with force := good } } : Dev).imageCheck = none ∧
      ({ x with cfg := { x.cfg with force := resetImage } } : Dev).imageCheck = some (2, 0x2201)) := starts_spec (by decide +kernel)

/-! ### Jobs, commit points, strips and tables -/

/-- A job of 100 lines on bar 0, and the record that admits it (R134). -/
def job1 : Job :=
  { id := 7, phase := .admitted, mode := 1, pitch := 0, barMask := 1, cyclic := false, lines := 100, cycles := 0, rep := false,
    planes := [(0, { strips := 1, compBytes := 100, peakBytes := 100, chainMax := 100 })] }
def record1 : List Byte :=
  leBytes 4 7 ++ [1, 0, 1, 0] ++ leBytes 8 100 ++ leBytes 4 0 ++ List.replicate 44 0 ++
    ([0, 0, 0, 0] ++ leBytes 4 1 ++ leBytes 8 100 ++ leBytes 8 100 ++ leBytes 4 100 ++ leBytes 4 0)
def withJob (j : Job) (d : Dev) : Dev := { d with job := { d.job with jobs := [j] } }

/-- A module in SERVICE that may carry the job on bar 0: its bar is enabled, with heads, an engine, lanes and channels. -/
def press : List (Nat × Nat) :=
  [serving, (Reg.SYS_FEAT_ACCEPT 0, 0xFFFFFFFF), (Reg.SYS_FEAT_ACCEPT 1, 0xFFFFFFFF), (Reg.PLACE_CH_OK, 0xF), (Reg.PLACE_DFL_OK, 0xFFFFFF),
   (Reg.PLACE_LACE_OK, 0xFFFF), (Reg.PLACE_RE_MAP, 0x76543210), (Reg.PLACE_WIN_MIB, 1000), (Reg.LACE_STATUS 0, 6),
   (Reg.LACE_HEADS_RATED 0, 1), (Reg.LACE_HEADS_PRESENT 0, 1), (Reg.LACE_HEAD_FMAX 0 0, 60000), (Reg.DFL_CMP_OK, 0xF)]
def bar0 : List (Nat × Nat) := [(Reg.FIRE_BAR_EN, 1), (Reg.PLACE_SPEED_MAX, 100000)]

theorem witness_admit_bad : ∃ o x, (cmdOf 0x0120 [(8, leBytes 4 7), ref 96] press bar0).Runs 0 0x0120 ⟨[], [], none⟩ o x ∧
    (x.findJob 7 = none ∧ x.buffer o.entry ⟨[], [], none⟩ = .ok [(0x1000, 96)] ∧
      recordFieldsOk (dmaBytes ⟨[], record1.set 7 2, none⟩ 96) = false ∧ (withJob job1 x).findJob 7 = some job1) :=
  runs_spec (by decide +kernel)
theorem witness_admit : ∃ o x, ((cmdOf 0x0120 [(8, leBytes 4 7), ref 96] press bar0).takeHealth 1).Runs 0 0x0120 ⟨[], record1, none⟩ o x ∧
    let r := dmaBytes ⟨[], record1, none⟩ 96
    (x.buffer o.entry ⟨[], record1, none⟩ = .ok [(0x1000, 96)] ∧ r.length = 64 + 32 * popBars (byteAt r 6) ∧
      recordFieldsOk r = true ∧ x.recordFeatsOk r = true ∧ x.recordRangesOk r 7 false = true ∧
      x.asKnown.admitRefusal (jobOf r false) (x.asKnown.ceilings (jobOf r false)) = none) :=
  runs_spec (by decide +kernel)
theorem witness_placement : let d := withJob job1 (devOf press bar0)
    d.halted = false ∧ d.job.jobs.find? (fun k => !k.placed) = some job1 ∧ d.findJob job1.id = some job1 ∧
      ∀ k ∈ (withJob { job1 with placed := true } d).job.jobs, k.placed = true := by decide +kernel
theorem witness_run : ∃ o x, (withJob job1 (cmdOf 0x0121 [(8, leBytes 4 7), (16, leBytes 8 1000000)] press bar0)).Runs 0 0x0121 ⟨[], [], none⟩ o x ∧
    (x.role ≠ 2 ∧ x.findJob 7 = some job1 ∧ job1.phase = .admitted ∧ x.barsBusy job1 = false ∧ byteAt o.entry 12 = 0 ∧
      ¬64 * (x.minOmega job1 / 64) ≤ gridPhase (x.xAt x.tc) ((sgn 64 (numAt o.entry 16 8) * 65536 : Int) : Rat) (dpiOf job1.pitch)) :=
  runs_spec (by decide +kernel)
theorem witness_run_time : ∃ o x, (withJob job1 (cmdOf 0x0121 [(8, leBytes 4 7), (12, [1])] press bar0)).Runs 0 0x0121 ⟨[], [], none⟩ o x ∧
    (byteAt o.entry 12 ≠ 0 ∧ x.tc ≤ numAt o.entry 16 8 ∧ numAt o.entry 16 8 < ({ x with tc := 1 } : Dev).tc) :=
  runs_spec (by decide +kernel)
theorem witness_run_passed : ∃ o x, (withJob job1 (cmdOf 0x0121 [(8, leBytes 4 7)] press bar0)).Runs 0 0x0121 ⟨[], [], none⟩ o x ∧
    (x.findJob 7 = some job1 ∧ x.barsBusy job1 = false ∧ byteAt o.entry 12 = 0 ∧
      64 * (x.minOmega job1 / 64) ≤ gridPhase (x.xAt x.tc) 0 (dpiOf job1.pitch)) := runs_spec (by decide +kernel)
theorem witness_abort : ∃ o x, (withJob job1 (cmdOf 0x0122 [(8, leBytes 4 7)] press bar0)).Runs 0 0x0122 ⟨[], [], none⟩ o x ∧
    (x.findJob 7 = some job1) := runs_spec (by decide +kernel)
theorem witness_abort_ended : ∃ o x, (cmdOf 0x0122 [(8, leBytes 4 7)] press bar0).Runs 0 0x0122 ⟨[], [], none⟩ o x ∧
    (x.findJob 7 = none ∧ x.anyJob 7 = none ∧ ({ x with job := { ended := [job1] } } : Dev).anyJob 7 = some job1) :=
  runs_spec (by decide +kernel)
theorem witness_status : ∃ o x, (withJob job1 (cmdOf 0x0123 [(8, leBytes 4 7)] press bar0)).Starts 0 0x0123 o x ∧
    (x.anyJob (numAt o.entry 8 4) = some job1) := starts_spec (by decide +kernel)
theorem witness_stop : ∃ o x, (cmdOf 0x0111 [(8, [1])] press bar0).Runs 0 0x0111 ⟨[], [], none⟩ o x ∧
    (byteAt o.entry 8 ≠ 0 ∧ x.anyActive = false ∧ entOpcode o.entry = 0x0111 ∧
      (withJob { job1 with phase := .scheduled } x).anyActive = true) := runs_spec (by decide +kernel)

/-- A BAR_PHASE record for line 50 of the job. -/
def phase1 : CommitRec := { kind := 2, bar := 0, origin := 0, flags := 0, seq := 0, job := 7, epoch := 0, line := 50, arg := 1 }

theorem witness_commit : ∃ o x,
    (withJob { job1 with phase := .scheduled } (cmdOf 0x0130 [(8, commitBytes phase1)] press bar0)).Runs 0 0x0130 ⟨[], [], none⟩ o x ∧
    (x.role ≠ 2 ∧ x.commitCheck (commitOf ((o.entry.drop 8).take 32)) true = none ∧
      x.commitCheck { phase1 with kind := 0 } true = some COMMIT_RESERVED) := runs_spec (by decide +kernel)
theorem witness_commit_fields : let c : CommitRec := ⟨255, 255, 255, 255, 2 ^ 32 - 1, 2 ^ 32 - 1, 2 ^ 32 - 1, 2 ^ 64 - 1, 2 ^ 64 - 1⟩
    c.kind < 256 ∧ c.bar < 256 ∧ c.origin < 256 ∧ c.flags < 256 ∧ c.seq < 2 ^ 32 ∧ c.job < 2 ^ 32 ∧ c.epoch < 2 ^ 32 ∧
      c.line < 2 ^ 64 ∧ c.arg < 2 ^ 64 := by decide +kernel
theorem witness_commit_list : ∃ o x, (cmdOf 0x0131 [(8, [0xFF]), ref 64] press bar0).Starts 0 0x0131 o x ∧
    (x.buffer o.entry ⟨[], [], none⟩ = .ok [(0x1000, 64)] ∧ dataErr ⟨[], [], none⟩ = none ∧ byteAt o.entry 8 = 0xFF) :=
  starts_spec (by decide +kernel)
theorem witness_table_read : ∃ o x, (cmdOf 0x0211 [(8, [3, 0, 23, 0]), ref 1024] press bar0).Starts 0 0x0211 o x ∧
    (x.buffer o.entry ⟨[], [], none⟩ = .ok [(0x1000, 1024)] ∧
      x.bankArgsOk (byteAt o.entry 9) (byteAt o.entry 8) (byteAt o.entry 10) = true) := starts_spec (by decide +kernel)
theorem crcRun_append (c : Nat) (a b : List Byte) : crcRun c (a ++ b) = crcRun (crcRun c a) b := by
  induction a generalizing c with
  | nil => rfl
  | cons x xs ih => exact ih _
theorem crc_zeros : crc32c (List.replicate 1024 0) = 4004437628 := by
  have h : (List.replicate 1024 0 : List Byte) = List.flatten (List.replicate 8 (List.replicate 128 0)) := by simp
  have h0 : crcRun 4294967295 (List.replicate 128 0) = 4158167844 := by decide +kernel
  have h1 : crcRun 4158167844 (List.replicate 128 0) = 1200442991 := by decide +kernel
  have h2 : crcRun 1200442991 (List.replicate 128 0) = 1158271177 := by decide +kernel
  have h3 : crcRun 1158271177 (List.replicate 128 0) = 3473084991 := by decide +kernel
  have h4 : crcRun 3473084991 (List.replicate 128 0) = 534250289 := by decide +kernel
  have h5 : crcRun 534250289 (List.replicate 128 0) = 3318006521 := by decide +kernel
  have h6 : crcRun 3318006521 (List.replicate 128 0) = 225952960 := by decide +kernel
  have h7 : crcRun 225952960 (List.replicate 128 0) = 290529667 := by decide +kernel
  have e : (List.flatten (List.replicate 8 (List.replicate 128 0)) : List Byte) = List.replicate 128 0 ++ (List.replicate 128 0 ++
      (List.replicate 128 0 ++ (List.replicate 128 0 ++ (List.replicate 128 0 ++ (List.replicate 128 0 ++
      (List.replicate 128 0 ++ List.replicate 128 0)))))) := by simp
  rw [h, e, crc32c]
  simp only [crcRun_append, h0, h1, h2, h3, h4, h5, h6, h7]
  decide +kernel
theorem witness_table_load : ∃ o x, (cmdOf 0x0210 [(8, [3, 0, 23, 1]), (12, leBytes 4 4004437628), ref 1024] press bar0).Runs 0 0x0210 ⟨[], [], none⟩ o x ∧
    (x.tableLocked 0 3 23 1 = false ∧ x.tableLocked 0 3 23 0 = true ∧ x.bankArgsOk 0 3 23 = true ∧ x.bankArgsOk 1 3 23 = false ∧
      x.buffer o.entry ⟨[], [], none⟩ = .ok [(0x1000, 1024)] ∧ bufTotal [(0x1000, 1024)] = bankLen 3 ∧
      dmaBytes ⟨[], [], none⟩ 1024 = List.replicate 1024 0 ∧ numAt o.entry 12 4 = 4004437628 ∧ byteAt o.entry 8 ≠ 2) :=
  runs_spec (by decide +kernel)

/-- A strip of one line for the job, and the entry that submits it. -/
def strip1 : List Byte :=
  [1, 1, 0, 0, 0, 0, 0, 0] ++ leBytes 4 7 ++ leBytes 4 0 ++ leBytes 8 0 ++ leBytes 4 1 ++ leBytes 4 1 ++ [3]

theorem witness_strip : ∃ o x, (withJob job1 (cmdOf 0x0201 [(8, leBytes 4 7), ref 33] press bar0)).Starts 0 0x0201 o x ∧
    let dma : Dma := ⟨[], strip1, none⟩
    let e := o.entry
    (x.strip.waits = [] ∧ x.rawBusy 7 0 = false ∧ x.findJob 7 = some job1 ∧ bitOf job1.barMask 0 = true ∧
      subStrip e = (x.plane job1.id 0).nextStrip ∧ (x.plane job1.id 0).lastSeen = false ∧ entOpcode e = 0x0201 ∧
      x.buffer e dma = .ok [(0x1000, 33)] ∧ dataErr dma = none ∧
      x.envOk job1 0 (subStrip e) (subLast e) (dmaBytes dma 33) = true ∧
      x.roomFor job1 (stripBytes (stripOf (subLast e) (dmaBytes dma 33))) 0 = some OK ∧ subJob e = 7 ∧ subBar e = 0) :=
  starts_spec (by decide +kernel)
theorem witness_strip_full : let p : PlaneSt := { strips := [(⟨0, 0, 0, 0, 1, List.replicate 300 0, 0, none, false⟩ : Strip)] }
    let d := (withJob job1 (devOf (press ++ [(Reg.PLACE_WIN_MIB, 1)]) bar0)).setPlane 7 0 p
    d.halted = false ∧ d.roomFor job1 0x100000 0 = none := by decide +kernel
theorem witness_raw : ∃ o x, (withJob job1 (cmdOf 0x0202 [(8, leBytes 4 7), (20, leBytes 4 1), ref (decodedSize 1 1)] press bar0)).Starts 0 0x0202 o x ∧
    let e := o.entry
    (entOpcode e = 0x0202 ∧ x.strip.waits = [] ∧ x.rawBusy (subJob e) (subBar e) = false ∧ x.findJob (subJob e) = some job1 ∧
      subStrip e = (x.plane job1.id 0).nextStrip ∧ numAt e 20 4 = 1 ∧ x.buffer e ⟨[], [], none⟩ = .ok [(0x1000, decodedSize 1 1)] ∧
      bufTotal [(0x1000, decodedSize 1 1)] = decodedSize job1.mode 1 ∧ byteAt e 15 = 0 ∧ evenOk job1 0 1 (subLast e) = true ∧
      bitOf (byteAt e 14) 0 = false ∧ x.rd Reg.DFL_CMP_OK ≠ 0) := starts_spec (by decide +kernel)
theorem witness_stream : let c : CmpJob := { use := 2, input := [1], verify := true, lane := some 1 }
    let d : Dev := { devOf [(Reg.DFL_CMP_OK, 3)] [] with strip := { cmpWait := [c] } }
    d.halted = false ∧ nextStream (d.fillCmp.strip.cmpWait.filter (fun c => c.lane.isSome)) = some c ∧
      nextStream ((devOf [] []).fillCmp.strip.cmpWait.filter (fun c => c.lane.isSome)) = none ∧
      (((d.wrBit Reg.DFL_CMP_OK 1 false).bump Reg.DFL_VERIFY_FAIL_COUNT).event 1 .cmpVerifyFail (vals [1, 2])).rd Reg.DFL_CMP_OK ≠ 0 := by
  decide +kernel

/-- The module with the job printing on bar 0, the position at hand. -/
def printing : Dev :=
  (withJob { job1 with phase := .printing, x0 := some 0, nextTick := 0, placed := true } (devOf press bar0)).setBf 0 { job := 7 }

theorem witness_decode : let st : Strip := { no := 0, history := 0, check := 0, firstLine := 0, lineCount := 1, payload := [3], crc := 0, last := false }
    let d := (printing.setPlane 7 0 { nextStrip := 1, strips := [st] }).wrF (Reg.DFL_LANE 23) 0 4 0
    d.halted = false ∧ d.bit Reg.PLACE_DFL_OK 23 = true ∧ d.rdF (Reg.DFL_LANE 23) 0 4 = 0 ∧
      (d.decJob 23 0).map Job.id = some 7 ∧ (d.plane 7 0).strips.find? (fun x => x.no == (d.plane 7 0).decNext) = some st ∧
      (d.decJob 23 0).all (fun j => d.mayDecode j 0 0) = true ∧ (devOf [] []).bit Reg.PLACE_DFL_OK 23 = false := by decide +kernel
theorem witness_lane_fail : let d := printing.setLane 3 { job := 7, bar := 0, histValid := true }
    d.halted = false ∧ d.bit Reg.PLACE_DFL_OK 3 = true ∧ (mapGet {} d.strip.lanes 3 : LaneCtx).histValid = true ∧
      ((d.wrBit Reg.PLACE_DFL_OK 3 false).spareLane 0).isSome = true ∧ (d.wr Reg.PLACE_DFL_OK 0).spareLane 0 = none := by
  decide +kernel
theorem witness_replan : ({ printing with job := { printing.job with replanDue := 1 } } : Dev).job.replanDue ≠ 0 ∧
    printing.inService = true := by decide +kernel
theorem witness_pre : (7 : Nat) < 8 ∧ 2 ≤ 2 ∧ (List.replicate (lineBytes 7) (0 : Byte)).length = lineBytes 7 ∧
    ∀ l ∈ [List.replicate (lineBytes 7) (1 : Byte)], l.length = lineBytes 7 := by
  simp

/-! ### Position, compare outputs and the ADC -/

/-- A module in SERVICE with encoder channel 0 as its source and SSI channel 4 beside it, in force as listed. -/
def web (rs cs : List (Nat × Nat)) : Dev :=
  devOf (serving :: rs) ([(Reg.POS_ENC_CFG 0, 0x201), (Reg.POS_ENC_SCALE 0, 0x1000000), (Reg.POS_REF, 0x70)] ++ cs)

theorem witness_quadrature : (web [] []).halted = false ∧ (web [] []).chanEn 0 = true ∧ (web [] []).chanEn 3 = false := by
  decide +kernel
theorem witness_count : (∀ k : Fin 8, (web [] []).cmpEn k = false) ∧ (∀ e : Fin 2, (web [] []).emuEn e = false) ∧
    (-9223372036854775808 : Int) ≤ 9223372036854775807 := by decide +kernel
theorem witness_index : let d := web [(countReg 0, 1000)] [(Reg.POS_ENC_IDX_INTERVAL 0, 900), (Reg.POS_ENC_IDX_TOL 0, 100)]
    let e := d.encSt 0
    d.chanEn 0 = true ∧ d.cfB (Reg.POS_ENC_CFG 0) 9 = true ∧ d.bit (Reg.POS_ENC_STATUS 0) 3 = false ∧
      d.rdF (Reg.POS_ENC_STATUS 0) 6 2 = d.cfF (Reg.POS_ENC_CFG 0) 7 2 ∧ e.taken = false ∧ e.missed = [] ∧ e.window = none ∧
      d.bit (Reg.POS_ENC_STATUS 0) 5 = false ∧ d.bit (Reg.POS_ENC_STATUS 0) 4 = false ∧
      d.count 0 - nearest e.anchor 900 (d.count 0) ≤ 100 ∧ nearest e.anchor 900 (d.count 0) - d.count 0 ≤ 100 ∧
      99 < d.count 0 - nearest 1 900 (d.count 0) - 0 + 1 := by decide +kernel
theorem witness_index_more :
    (web [(Reg.POS_ENC_STATUS 0, 0x20)] []).bit (Reg.POS_ENC_STATUS 0) 5 = true ∧
    (web [(Reg.POS_ENC_STATUS 0, 0x10)] []).bit (Reg.POS_ENC_STATUS 0) 4 = true ∧ (web [] []).cf (Reg.POS_ENC_IDX_INTERVAL 0) = 0 ∧
    (((web [] []).setEnc 0 { window := some (5, true, true), missed := [7, 9] }).encSt 0).missed = [7, 9] := by decide +kernel
theorem witness_position_writes : (web [] []).halted = false ∧ (web [] []).inService = true ∧ (web [] []).src = 0 ∧
    (web [] []).checkSrc = 7 ∧ (armEntries false 3).any (fun j => (web [] []).entDir 0 j == 0) = true ∧
    (armEntries true 0).any (fun j => (web [] []).entDir 0 j == 0) = false := by decide +kernel

/-- A serial channel of 8 bits without a CRC, whose frame is due. -/
def serial (prev : Option Nat) (step : Nat) : Dev :=
  (web [] [(Reg.POS_SSI_CFG 0, 1 + 8 * 8), (Reg.POS_SSI_FIELDS 0, 8 * 64), (Reg.POS_SSI_MAX_STEP 0, step)]).setSsi 0
    { prev := prev, trig := true }

theorem witness_serial : let d := serial none 5
    d.chanEn 4 = true ∧ d.inService = true ∧ d.driving = true ∧ d.ssiDue 0 = true ∧ (d.ssiServe 0).ssiCrcOk 0 0x42 = true ∧
      ((d.ssiServe 0).ssiSt 0).prev = none ∧ d.cfB (Reg.POS_SSI_FIELDS 0) 18 = false := by decide +kernel
theorem witness_serial_step : let d := (serial (some 0xFE) 5).ssiServe 0
    (d.ssiSt 0).prev = some 0xFE ∧ d.ssiPos 0 0x02 = 2 ∧ ssiDelta 8 2 0xFE = 4 ∧ (ssiDelta 8 2 0xFE).natAbs ≤ d.cf (Reg.POS_SSI_MAX_STEP 0) ∧
      d.cf (Reg.POS_SSI_MAX_STEP 0) < (ssiDelta 8 0x20 0xFE).natAbs ∧ (web [] []).chanEn 5 = false := by decide +kernel
/-- The same of a STANDBY, with a CRC of 4 bits and an error bit. -/
def serialCrc : Dev := devOf [serving, (Reg.PAIR_STATUS, 2)]
  [(Reg.POS_SSI_CFG 0, 1 + 12 * 8), (Reg.POS_SSI_FIELDS 0, 8 * 64 + 0x40000 + 11 * 0x1000 + 4 * 0x80000), (Reg.POS_SSI_CRC 0, 3)]
theorem witness_serial_bad : let d := serialCrc
    d.driving = false ∧ d.ssiCrcOk 0 0 = true ∧ d.ssiCrcOk 0 1 = false ∧ d.cfB (Reg.POS_SSI_FIELDS 0) 18 = true ∧
      bitOf 0 (d.cfF (Reg.POS_SSI_FIELDS 0) 12 6) = d.cfB (Reg.POS_SSI_CFG 0) 13 := by decide +kernel
theorem witness_unwrap : 0 < 1 ∧ 1 < 2 ^ 1 ∧ ssiDelta 1 1 0 = -1 ∧ ssiDelta 64 (2 ^ 64 - 1) 0 = -1 := by decide +kernel
theorem witness_observer : let d := web [] [(Reg.POS_TRACK_ERR_MAX, 10)]
    d.src ≠ 7 ∧ d.lost = false ∧ d.obsMeas 0 = some 0 ∧ ¬((10 : Rat) < 0 - 10 ∨ (0 : Rat) - 10 < -10) ∧
      (web [(Reg.POS_STATUS, 0x10)] []).obsMeas 0 = none ∧ (web [(Reg.POS_STATUS, 7)] []).src = 7 ∧ (10 : Rat) < 11 - 0 ∧ 10 ≤ 9 + 1 := by
  decide +kernel
theorem witness_observer_update : let d := web [(Reg.POS_STATUS, 0x10)] []
    d.halted = false ∧ d.bit Reg.POS_STATUS 4 = true ∧ d.lost = false ∧ (web [(Reg.POS_STATUS, 0x20)] []).lost = true := by decide +kernel
theorem witness_outputs : let d := web [] [(Reg.POS_CMP_CFG 0, 1), (Reg.POS_EMU_CFG 0, 1)]
    d.cmpEn 0 = true ∧ d.cmpEn 7 = false ∧ (d.cmpSt 0).ret = none ∧ ((d.setCmp 0 { ret := some 5 }).cmpSt 0).ret = some 5 ∧
      d.emuEn 0 = true ∧ d.emuEn 1 = false ∧ d.fieldDriven = true ∧ d.emuTarget 0 - (d.emuSt 0).emitted = 0 ∧
      1048576 < (d.wr (Reg.POS_EMU_TARGET_LO 0) 1048577).emuTarget 0 - (d.emuSt 0).emitted ∧
      (d.wr (Reg.POS_EMU_TARGET_LO 0) 1048576).emuTarget 0 - (d.emuSt 0).emitted ≠ 0 := by decide +kernel
theorem witness_adc : let d := web [] [(Reg.ADC_CH_CFG 0, 1), (Reg.ADC_CH_RATE 0, 1), (Reg.ADC_CH_CFG 1, 2)]
    d.adcMode 0 = 1 ∧ d.mulDue (d.adcSt 0).served (usLocal (5 * d.cf (Reg.ADC_CH_RATE 0))) = true ∧ d.adcMode 1 = 2 ∧
      ¬0 < (d.adcSt 1).burst ∧ 0 < ((d.setAdc 1 { burst := 1 }).adcSt 1).burst ∧ satS 16 32768 ≠ 32768 := by decide +kernel

/-! ### Frames of the Lace link -/

/-- A frame as the node of bar 0 sends it first, with a tag once the session key exists. -/
def nodeTag (d : Dev) (kind : Nat) (body : List Byte) : List Byte :=
  match (d.ls 0).key with
  | some k => aesCmac k (laceHead kind true body.length 1 ++ body)
  | none => List.replicate 16 0
def sent (d : Dev) (kind : Nat) (body : List Byte) : List Blk :=
  enframe (nodeType kind) (laceFrameBytes kind (d.ls 0).key.isSome 1 body (nodeTag d kind body))

/-- The module after it. -/
def taken (d : Dev) (body : List Byte) : Dev :=
  let x := { (d.refill 0).ls 0 with bucket := ((d.refill 0).ls 0).bucket - 16 * (body.length + 56) }
  ((d.refill 0).setLs 0 x).setLs 0 { x with rxSeq := 1, seqGaps := x.seqGaps + b2n (decide (x.rxSeq + 1 < 1)) }

/-- The port listens, and the frame is one that a node sends. -/
def sendable (d : Dev) (kind : Nat) (body : List Byte) : Bool :=
  decide (2 ≤ d.portState 0 ∧ d.portState 0 ≠ 7 ∧ nodeType kind ≠ 0 ∧ kind < 256 ∧ body.length = 8 * (body.length / 8) ∧
    body.length < 65536 ∧ 16 * (body.length + 56) ≤ ((d.refill 0).ls 0).bucket ∧ ((d.refill 0).ls 0).rxSeq < 1) &&
    ((d.ls 0).key.all (fun k => k.length == 16)) && ((d.ls 0).key.isSome || kind == 0x81 || kind == 0x82) &&
    (match bodySize kind with | some n => body.length == n | none => true) && bodyZero kind body

theorem frame_spec {d : Dev} {kind : Nat} {body : List Byte} {P : Dev → Prop}
    (h : sendable d kind body = true) (hp : P (taken d body)) : ∃ x, d.Frame 0 kind (sent d kind body) x body ∧ P x := by
  unfold sendable at h
  simp only [Bool.and_eq_true, decide_eq_true_eq] at h
  obtain ⟨⟨⟨⟨⟨h1, h2, h3, h4, h5, h6, h7, h8⟩, hk⟩, hm⟩, hs⟩, hz⟩ := h
  have ht : (nodeTag d kind body).length = 16 := by
    unfold nodeTag
    cases e : (d.ls 0).key with
    | none => simp
    | some k => rw [e] at hk; exact aesCmac_length _ _ (by simpa using hk)
  have hf := Dev.frame_of_sent (d := d) (b := 0) (kind := kind) (seq := 1) (body := body) (tag := nodeTag d kind body) ⟨h1, h2⟩ h3 h4 h5 h6
    (by decide) ht (fun k e => by simp [nodeTag, e]) (by simpa [or_assoc] using hm)
    (fun n e => by rw [e] at hs; simpa using hs) hz h7 h8
  refine ⟨_, hf, ?_⟩
  rw [(deframe_sent kind _ 1 _ body _ h5 ht).2]
  exact hp

/-- A port whose link-up stands at a step. -/
def portAt (step : Nat) (x : LaceSt) : Dev :=
  (devOf [serving, (Reg.LACE_STATUS 0, step), (Reg.LACE_HEADS_PRESENT 0, 1), (Reg.LACE_BUF_LINES 0, 300)] [(Reg.FIRE_BAR_EN, 1)]).setLs 0
    { x with bucket := 100000 }
def keyed : LaceSt := { key := some (List.replicate 16 0) }

/-! ### Lines, heads and engines -/

/-- The job printing on bar 0 at a position, and a module with a head's report. -/
def ticking : Dev := { printing with pos := { x := 1000000, sample := 0 } }

theorem witness_tick : (ticking.findJob 7).any (fun j => (ticking.dueTick j).isSome) = true ∧ ticking.halted = false ∧
    ticking.findJob 8 = none ∧ ticking.dueTick { job1 with x0 := none } = none := by decide +kernel
theorem witness_overspeed :
    let d : Dev := { ticking with fire := { ticking.fire with slowFrom := some 0 } }
    d.fire.slowFrom = some 0 ∧ (d.wrBit Reg.FIRE_STATUS 1 true).bit Reg.FIRE_STATUS 1 = true ∧ d.role ≠ 2 ∧
      (25400000 : Rat) / (d.dpi : Rat) ≤ d.pos.x - 0 ∧ ticking.fire.slowFrom = none := by decide +kernel

/-- A TEMPS body of a bar with one head at 40 degrees, and the frame that carries it. -/
def tempsBody (line : Nat) : List Byte :=
  leBytes 8 line ++ leBytes 2 640 ++ (List.replicate 23 (leBytes 2 0x8000)).flatten ++ leBytes 4 0 ++ leBytes 4 0

theorem witness_temps : ∃ x, (portAt 6 keyed).Frame 0 0x10 (sent (portAt 6 keyed) 0x10 (tempsBody 0)) x (tempsBody 0) ∧
    4 ≤ x.portState 0 ∧ x.tempsOk 0 (tempsBody 0) = true ∧ fld (numAt (tempsBody 0) 56 4) 24 8 = 0 ∧
      (x.bf 0).next < numAt (tempsBody 0) 0 8 + 17 ∧ x.role ≠ 2 := frame_spec (by decide +kernel) (by decide +kernel)
theorem witness_temps_bad : ∃ x, (portAt 3 keyed).Frame 0 0x10 (sent (portAt 3 keyed) 0x10 (tempsBody 0)) x (tempsBody 0) ∧
    x.portState 0 < 4 ∧ 0 + 17 ≤ ((x.setBf 0 { next := 17 }).bf 0).next := frame_spec (by decide +kernel) (by decide +kernel)
/-- Heads 0, 1 and 2 not derated, derated, and derated and stopped; 50 degrees and 55 degrees are the thresholds. -/
def warm : Dev := devOf [serving, (Reg.FIRE_BAR_DERATED 0, 6), (Reg.FIRE_BAR_STOPPED 0, 4), (Reg.SAFE_TEMP, 0x03700320)] []
theorem witness_heads : warm.tDerate = 800 ∧ warm.tStop = 880 ∧ warm.bit (Reg.FIRE_BAR_DERATED 0) 0 = false ∧
    warm.bit (Reg.FIRE_BAR_STOPPED 0) 0 = false ∧ warm.bit (Reg.FIRE_BAR_DERATED 0) 1 = true ∧
    warm.bit (Reg.FIRE_BAR_STOPPED 0) 1 = false ∧ warm.bit (Reg.FIRE_BAR_DERATED 0) 2 = true ∧
    warm.bit (Reg.FIRE_BAR_STOPPED 0) 2 = true ∧ warm.cfB Reg.FIRE_CTRL 2 = false := by decide +kernel
theorem witness_stale : let d := printing
    d.printingOn 0 = true ∧ d.cf Reg.FIRE_TEMP_STALE ≤ mapGet 0 (d.bf 0).age 0 ∧ bitOf (d.rated 0) 0 = true ∧
      d.bit (Reg.FIRE_BAR_STOPPED 0) 0 = false ∧ d.role ≠ 2 ∧ bitOf (d.rated 0) 1 = false := by decide +kernel
/-- A stopped head that is cool and reported, with manual resumption. -/
def cool : Dev := devOf [serving, (Reg.FIRE_BAR_STOPPED 0, 1), (Reg.FIRE_HEAD_TEMP 0, 0x8000000), (Reg.SAFE_TEMP, 0x03700320)]
  [(Reg.FIRE_CTRL, 4), (Reg.FIRE_TEMP_STALE, 1)]
theorem witness_resume : cool.answers ∧ cool.role ≠ 2 ∧ cool.cfB Reg.FIRE_CTRL 2 = true ∧ cool.bit (Reg.FIRE_BAR_STOPPED 0) 0 = true ∧
    bitOf (cool.rd (Reg.FIRE_HEAD_TEMP 0)) 27 = true ∧ sgn 16 (cool.rd (Reg.FIRE_HEAD_TEMP 0)) ≤ cool.tStop - 80 ∧
    mapGet 0 (cool.bf 0).age 0 < cool.cf Reg.FIRE_TEMP_STALE := by
  unfold Dev.answers; decide +kernel
/-- The job as it prints. -/
def jobP : Job := { job1 with phase := .printing, x0 := some 0, nextTick := 0, placed := true }
/-- Bar 0 printing its job, with two lines in the ring. -/
def feeding : Dev := printing.setPlane 7 0 { nextStrip := 1, lines := [(0, .data [1]), (1, .blank 2)] }
theorem witness_front : feeding.halted = false ∧ feeding.lineJob 0 0 = some (jobP, 0) ∧ feeding.lineJob 1 0 = none ∧
    feeding.itemDue 0 7 0 = false ∧ feeding.inService = true ∧ feeding.hasEngine 0 = true ∧ jobP.has 0 = true ∧
    (feeding.bf 0).next + 1024 > 0 ∧ feeding.awaits 0 7 = false ∧ mapGet none (feeding.br 0).blanks 0 = none ∧
    feeding.lostCause jobP 0 = none ∧ feeding.ringLine jobP 0 0 = some (.data [1]) ∧
    feeding.ringLine jobP 0 1 = some (.blank 2) ∧ feeding.ringLine jobP 0 2 = none ∧
    (feeding.lostCause { jobP with lostBars := [0] } 0).isSome = true := by decide +kernel
theorem witness_front_blank : let r := ({ blanks := [(0, some 5)] } : BarRast)
    mapGet none r.blanks 0 ≠ none ∧ (printing.setBr 0 r).br 0 = r := by decide +kernel
theorem witness_back : let d := printing.setBr 0 { mid := [⟨3, []⟩], front := 4 }
    (d.br 0).mid = [⟨3, []⟩] ∧ (d.lineJob 0 3).isSome = true ∧ (d.bf 0).next + 4 > 3 ∧ ¬3 < (d.bf 0).next ∧ d.awaits 0 8 = false ∧
      d.mayDrive 0 = true ∧ (d.wrF Reg.PAIR_STATUS 0 2 2).role = 2 ∧ (printing.br 0).mid = [] := by decide +kernel
theorem witness_duty : (List.replicate 4096 3 : List Nat).length = 4096 ∧ ∀ v ∈ (List.replicate 4096 3 : List Nat), v ≤ 3 :=
  ⟨List.length_replicate, fun _ h => by rw [List.eq_of_mem_replicate h]⟩
theorem witness_engines : let d := devOf (press ++ [(Reg.RE_STATUS 8, 0)]) bar0
    d.halted = false ∧ d.bit (Reg.RE_STATUS 0) 4 = false ∧ d.servedBy 0 = some 0 ∧ d.servedBy 8 = none ∧ d.re8Free = true ∧
      (d.wr (Reg.RE_STATUS 8) 0x10).re8Free = false ∧ printing.printingOn 0 = true := by decide +kernel

/-! ### Lace links and lanes -/

theorem witness_refused : (portAt 2 {}).portState 0 = 2 ∧ (portAt 7 {}).portState 0 = 7 ∧
    (((portAt 2 {}).setLs 0 {}).refill 0).ls 0 = ({} : LaceSt) ∧ 0 < 16 * frameSize (enframe 2 []) ∧ deframe [.control BLK_EOF 0] = none ∧
    deframe (enframe 5 (List.replicate 8 0)) = some (5, List.replicate 8 0) ∧ laceCrcOk (List.replicate 8 0) = false ∧
    ((portAt 2 {}).ls 0).bucket = 100000 := by decide +kernel
theorem witness_link_steps : let d := (portAt 1 {}).wrF (Reg.LACE_STATUS 0) 4 2 3
    d.barEn 0 = true ∧ d.portState 0 = 1 ∧ d.upLanes 0 ≠ [] ∧ ((portAt 3 { chal := true, authTries := 2 }).ls 0).chal = true ∧
      (portAt 3 {}).portState 0 = 3 ∧ (portAt 0 {}).barEn 0 = true ∧ (portAt 0 {}).portState 0 = 0 ∧ (portAt 6 {}).portState 0 = 6 := by
  decide +kernel
def echoBody : List Byte := leBytes 8 0 ++ List.replicate 8 0
theorem witness_echo : ∃ x, (portAt 2 { echoSent := some 0 }).Frame 0 0x81 (sent (portAt 2 { echoSent := some 0 }) 0x81 echoBody) x echoBody ∧
    (x.ls 0).echoSent = some 0 ∧ x.portState 0 = 2 ∧ numAt echoBody 0 8 = 0 % 2 ^ 64 := frame_spec (by decide +kernel) (by decide +kernel)
theorem witness_echo_bad : ∃ x, (portAt 2 {}).Frame 0 0x81 (sent (portAt 2 {}) 0x81 echoBody) x echoBody ∧
    (x.ls 0).echoSent = none := frame_spec (by decide +kernel) (by decide +kernel)
theorem witness_auth_bad : ∃ x, (portAt 3 { chal := true }).Frame 0 0x82 (sent (portAt 3 { chal := true }) 0x82 (List.replicate 64 0)) x
      (List.replicate 64 0) ∧ x.portState 0 = 3 ∧ (x.ls 0).chal = true ∧ numAt (List.replicate 64 0) 48 4 ≠ (x.wr Reg.SAFE_KEY_ID 1).rd Reg.SAFE_KEY_ID :=
  frame_spec (by decide +kernel) (by decide +kernel)
/-- An answer whose TN is the tag that the module computes. -/
def authBody (d : Dev) : List Byte :=
  List.replicate 32 0 ++ (aesCmac d.safe.ki (leBytes 1 0x4E ++ (d.ls 0).nm ++ List.replicate 16 0 ++ List.replicate 16 0 ++ leBytes 1 d.slot) ++
    List.replicate 16 0)
theorem witness_auth (d : Dev) (h : d.safe.ki.length = 16) :
    ((authBody d).drop 32).take 16 = aesCmac d.safe.ki (leBytes 1 0x4E ++ (d.ls 0).nm ++ (authBody d).take 16 ++
      ((authBody d).drop 16).take 16 ++ leBytes 1 d.slot) ∧ (authBody d).length = 64 := by
  have ht := aesCmac_length d.safe.ki (leBytes 1 0x4E ++ (d.ls 0).nm ++ List.replicate 16 0 ++ List.replicate 16 0 ++ leBytes 1 d.slot) h
  have e : (List.replicate 32 0 : List Byte) = List.replicate 16 0 ++ List.replicate 16 0 := by decide
  have h1 : (authBody d).take 16 = List.replicate 16 0 := by
    unfold authBody; rw [e, List.append_assoc]; exact List.take_left' (by simp)
  have h2 : ((authBody d).drop 16).take 16 = List.replicate 16 0 := by
    unfold authBody; rw [e, List.append_assoc, List.drop_left' (by simp)]; exact List.take_left' (by simp)
  refine ⟨?_, by unfold authBody; rw [List.length_append, List.length_append, ht]; rfl⟩
  rw [h1, h2]
  unfold authBody
  rw [List.drop_left' (by simp)]
  exact List.take_left' ht
def setupAckBody (lines : Nat) : List Byte := leBytes 4 1 ++ leBytes 2 lines ++ List.replicate 10 0
theorem witness_setup : ∃ x, (portAt 4 keyed).Frame 0 0x84 (sent (portAt 4 keyed) 0x84 (setupAckBody 256)) x (setupAckBody 256) ∧
    x.portState 0 = 4 ∧ 256 ≤ numAt (setupAckBody 256) 4 2 ∧ numAt (setupAckBody 255) 4 2 < 256 :=
  frame_spec (by decide +kernel) (by decide +kernel)
def hmemBody : List Byte := leBytes 1 3 ++ leBytes 1 0 ++ leBytes 2 0 ++ leBytes 2 8 ++ leBytes 2 0 ++ List.replicate 8 0
theorem witness_hmem : ∃ x, (portAt 5 { keyed with hmemReq := some (3, 0, 8) }).Frame 0 0x13
      (sent (portAt 5 { keyed with hmemReq := some (3, 0, 8) }) 0x13 hmemBody) x hmemBody ∧
    (x.ls 0).hmemReq = some (3, 0, 8) ∧ hmemBody.length = 8 + 8 := frame_spec (by decide +kernel) (by decide +kernel)
theorem witness_hmem_bad : ∃ x, (portAt 5 keyed).Frame 0 0x13 (sent (portAt 5 keyed) 0x13 hmemBody) x hmemBody ∧
    (x.ls 0).hmemReq = none := frame_spec (by decide +kernel) (by decide +kernel)
def fillBody (n : Nat) : List Byte := leBytes 8 0 ++ (List.replicate 24 (leBytes 2 n)).flatten
theorem witness_fill : ∃ x, (portAt 6 keyed).Frame 0 0x11 (sent (portAt 6 keyed) 0x11 (fillBody 300)) x (fillBody 300) ∧
    4 ≤ x.portState 0 ∧ (∀ h < 24, numAt (fillBody 300) (8 + 2 * h) 2 ≤ x.rd (Reg.LACE_BUF_LINES 0)) ∧
      x.rd (Reg.LACE_BUF_LINES 0) < numAt (fillBody 301) 8 2 := frame_spec (by decide +kernel) (by decide +kernel)
theorem witness_status_frame : ∃ x, (portAt 6 keyed).Frame 0 0x12 (sent (portAt 6 keyed) 0x12 (List.replicate 32 0)) x (List.replicate 32 0) ∧
    4 ≤ x.portState 0 := frame_spec (by decide +kernel) (by decide +kernel)
theorem witness_status_early : ∃ x, (portAt 3 keyed).Frame 0 0x12 (sent (portAt 3 keyed) 0x12 (List.replicate 32 0)) x (List.replicate 32 0) ∧
    x.portState 0 < 4 := frame_spec (by decide +kernel) (by decide +kernel)
theorem witness_sense : ∃ x, (portAt 6 { keyed with senseReq := some 0 }).Frame 0 0x14
      (sent (portAt 6 { keyed with senseReq := some 0 }) 0x14 (List.replicate 1032 0)) x (List.replicate 1032 0) ∧
    (x.ls 0).senseReq = some 0 ∧ byteAt (List.replicate 1032 0) 0 = 0 ∧ bitOf (x.present 0) 0 = true ∧ (x.ls 0).senseWait = none :=
  frame_spec (by decide +kernel) (by decide +kernel)
theorem witness_port_status : ∃ x, (portAt 6 keyed).Frame 0 0x30 (sent (portAt 6 keyed) 0x30 (List.replicate 48 0)) x (List.replicate 48 0) ∧
    x.portState 0 = 6 := frame_spec (by decide +kernel) (by decide +kernel)
theorem witness_inhibit : let d := portAt 7 {}
    d.answers ∧ d.quarantined 0 = true ∧ d.fieldInhibit 0 = false ∧ (portAt 6 {}).quarantined 0 = false ∧ (portAt 6 {}).laceUp 0 = true ∧
      (d.wrBit Reg.SAFE_STATUS 2 true).fieldInhibit 0 = true ∧ (devOf [held, (Reg.LACE_STATUS 0, 7)] []).inHold = true := by
  unfold Dev.answers; decide +kernel
theorem witness_lanes : let d := devOf [serving, (Reg.LANE_LN_STATUS 8, 8)] []
    d.laneUp 8 = true ∧ d.laneUp 9 = false ∧ d.answers ∧ d.inService = true ∧ d.inRecovery = false ∧ isBlockLane 8 = true ∧
      isBlockLane 35 = false ∧ (devOf [held] []).inHold = true ∧ fld 15 0 2 = 3 ∧ fld 15 2 3 = 3 := by
  unfold Dev.answers; decide +kernel
theorem witness_eye : let d := devOf [serving, (Reg.LANE_LN_STATUS 8, 8)] []
    d.bit Reg.LANE_EYE_STATUS 1 = false ∧ d.rdF Reg.LANE_EYE_CTRL 0 6 < 36 ∧ d.lane.scan = none ∧
      (({ d with lane := { scan := some (8, true) } } : Dev).lane.scan = some (8, true)) ∧
      (d.wrBit Reg.LANE_EYE_STATUS 1 true).bit Reg.LANE_EYE_STATUS 1 = true := by decide +kernel

/-! ### Cameras, loops, time and the network -/

/-- Every feature accepted, and camera 0 up and streaming on a grid of 10 um. -/
def feats : List (Nat × Nat) := serving :: (List.range 8).map (fun n => (Reg.SYS_FEAT_ACCEPT n, 0xFFFFFFFF))
def camera : Dev := devOf (feats ++ [(Reg.CXP_STATUS, 5)]) [(Reg.CXP_CAM_CFG 0, 1), (Reg.CXP_CAM_PITCH 0, 655360), (Reg.CXP_CAM_RATE_MAX 0, 1000)]
theorem witness_control : camera.answers ∧ camera.rd Reg.CXP_CTL_GO = 0 ∧ camera.camUp (camera.rdF Reg.CXP_CTL_SEL 0 1) = true ∧
    (camera.wr Reg.CXP_CTL_GO 1).rd Reg.CXP_CTL_GO = 1 ∧ 2 ≤ (camera.wr Reg.CXP_CTL_GO 2).rd Reg.CXP_CTL_GO ∧
    (devOf [serving] []).camUp 0 = false := by unfold Dev.answers; decide +kernel
theorem witness_camera : camera.camEn 0 = true ∧ camera.role ≠ 2 ∧ camera.streaming 0 = true ∧ camera.camUp 1 = false ∧ camera.camEn 1 = false := by
  decide +kernel
theorem witness_trigger : (camera.cs 0).gTop = none ∧ camera.lost = false ∧ (camera.cs 0).lastTrig = none ∧ camera.gridIndex 0 = 0 ∧
    (0 - 0) * camera.cf (Reg.CXP_CAM_RATE_MAX 0) < 400000000 ∧ camera.streaming 1 = false ∧
    (camera.cs 0).frame = none ∧ (camera.cs 1).queue.length ≤ (camera.cs 0).queue.length ∧
    (((camera.setCs 1 { queue := [⟨0, false, false, []⟩] }).cs 0).queue.length < ((camera.setCs 1 { queue := [⟨0, false, false, []⟩] }).cs 1).queue.length) := by
  decide +kernel
def readCam (opc : Nat) (ps : List (Nat × List Byte)) (x : CamSt) : Dev := (cmdOf opc ps (feats ++ [(Reg.DFL_CMP_OK, 1)]) []).setCs 0 x
theorem witness_frame_read : ∃ o x, (readCam 0x0220 [(16, [1]), ref 16] { slots := [(3, some (0, [1, 2]))] }).Starts 0 0x0220 o x ∧
    (x.cs (byteAt o.entry 8)).slots.find? (fun z => (z.2.map (fun y => y.1 % 0x100000000)) == some (numAt o.entry 12 4)) =
      some (3, some (0, [1, 2])) ∧ x.buffer o.entry ⟨[], [], none⟩ = .ok [(0x1000, 16)] ∧ bitOf (byteAt o.entry 16) 0 = true ∧
      x.rd Reg.DFL_CMP_OK ≠ 0 := starts_spec (by decide +kernel)
theorem witness_frame_gone : ∃ o x, (readCam 0x0220 [(12, [9]), ref 16] {}).Starts 0 0x0220 o x ∧
    (x.cs (byteAt o.entry 8)).slots.find? (fun z => (z.2.map (fun y => y.1 % 0x100000000)) == some (numAt o.entry 12 4)) = none ∧
      (x.wr Reg.DFL_CMP_OK 0).rd Reg.DFL_CMP_OK = 0 ∧ bitOf (byteAt o.entry 16) 0 = false := starts_spec (by decide +kernel)
theorem witness_stats : ∃ o x, (readCam 0x0221 [(16, leBytes 2 1024), ref 2880] { ring := [(0, List.replicate 2880 0)] }).Starts 0 0x0221 o x ∧
    byteAt o.entry 8 ≤ 1 ∧ numAt o.entry 16 2 = 1024 ∧ (x.cs 0).ring ≠ [] ∧ ¬(∀ r ∈ (x.cs 0).ring, numAt o.entry 12 4 < r.1) ∧
      x.buffer o.entry ⟨[], [], none⟩ = .ok [(0x1000, 2880)] ∧ (∀ r ∈ [(1, ([] : List Byte))], numAt o.entry 12 4 < r.1) := by
  exact starts_spec (by decide +kernel)
theorem witness_loops : let d := devOf feats [(Reg.LOOP_COL_CYCLE, 100), (Reg.LOOP_REG_CYCLE, 100)]
    d.inService = true ∧ d.role ≠ 2 ∧ d.feat 35 = true ∧ d.feat 36 = true ∧ usLocal 100 ≠ 0 ∧
      d.loop.colServed ≤ d.localNow / usLocal 100 * usLocal 100 ∧ d.loop.regServed ≤ d.localNow / usLocal 100 * usLocal 100 ∧
      d.cf Reg.LOOP_COL_CYCLE = 100 := by decide +kernel
def ramp0 : Ramp := { deltas := [], epss := [], steps := 2, dist := 8, k := 1, line := 5, job := 7, bank := 1, seq := 3 }
theorem witness_ramp : let d := (devOf feats []).setRamp 0 (some ramp0)
    mapGet none d.loop.ramps 0 = some ramp0 ∧ mapGet none d.loop.ramps 1 = none ∧ ramp0.seq ≠ 0 ∧ d.job.commits = [] ∧
      d.activeBank 0 1 0 = 0 ∧ (d.wr (Reg.RE_ACTIVE 0) 0xFFFFFFFF).activeBank 0 1 0 = 1 ∧ ramp0.k ≠ ramp0.steps := by decide +kernel
theorem witness_loop_ctrl : ∃ o x, (cmdOf 0x0370 [(8, [0, 1, 0xFF])] feats [(Reg.FIRE_BAR_EN, 1)]).Runs 0 0x0370 ⟨[], [], none⟩ o x ∧
    byteAt o.entry 10 = 0xFF ∧ x.enBars = [0] ∧ x.barEn 0 = true ∧ x.pendOn 0 = [] ∧ x.toneLoads 0 = false ∧ x.barEn 1 = false :=
  runs_spec (by decide +kernel)
theorem witness_correction : (-5 : Rat) < 0 ∧ ((0 : Int) ≤ 0) := by decide +kernel
theorem witness_snapshot : (devOf feats []).answers := by unfold Dev.answers; decide +kernel
theorem witness_pps : let d := devOf (feats ++ [(Reg.TIME_STATUS, 0x12)]) [(Reg.TIME_PPS_OUT, 0x400), (Reg.TIME_CFG, 2)]
    d.cfB Reg.TIME_PPS_OUT 10 = true ∧ d.bit Reg.TIME_STATUS 4 = true ∧ d.cfB Reg.TIME_PPS_OUT 11 = false ∧ d.time.ppsLast = none ∧
      d.fieldDriven = true ∧ d.role ≠ 2 ∧ d.cfF Reg.TIME_CFG 0 2 = 2 ∧ d.time.ppsHigh = false ∧
      ({ d with time := { d.time with ppsHigh := true } } : Dev).time.ppsHigh = true := by decide +kernel
theorem witness_servo : let d := devOf (feats ++ [(Reg.TIME_STATUS, 0x20)]) [(Reg.TIME_CFG, 1)]
    d.cfF Reg.TIME_CFG 0 2 = 1 ∧ d.feat 37 = true ∧ d.bit Reg.TIME_STATUS 5 = true ∧ (devOf feats []).bit Reg.TIME_STATUS 5 = false ∧
      (devOf feats [(Reg.TIME_CFG, 3)]).cfF Reg.TIME_CFG 0 2 = 3 := by decide +kernel
theorem witness_time_step : ∃ o x, (cmdOf 0x0330 [] feats [(Reg.TIME_CFG, 1)]).Starts 0 0x0330 o x ∧ x.cfF Reg.TIME_CFG 0 2 ≠ 0 :=
  starts_spec (by decide +kernel)
theorem witness_time_step_bad : ∃ o x, (cmdOf 0x0330 [] feats []).Starts 0 0x0330 o x ∧ x.cfF Reg.TIME_CFG 0 2 = 0 :=
  starts_spec (by decide +kernel)
theorem witness_rebase : (0 : Int) ≤ (devOf feats []).localAt (devOf feats []).tc + 5 ∧ (-2147483648 : Int) ≤ -2147483648 := by decide +kernel
theorem witness_trigger_unit : let d := devOf (feats ++ [(Reg.TIME_TRIG_STATUS 0, 1), (Reg.TIME_TRIG_PERIOD 0, 10), (Reg.TIME_TRIG_COUNT 0, 2)]) []
    d.trigState 0 = 1 ∧ d.trigTarget 0 ≤ d.localNow ∧ mapGet 0 d.time.fired 0 + 1 < d.rd (Reg.TIME_TRIG_COUNT 0) ∧
      d.rd (Reg.TIME_TRIG_PERIOD 0) ≠ 0 ∧ d.localNow < (d.wr (Reg.TIME_TRIG_SEC_LO 1) 1).trigTarget 1 ∧ d.trigState 1 ≠ 1 := by decide +kernel
theorem witness_ports : let d := devOf (feats ++ [(Reg.NET_PORT_STATUS 1, 1)]) [(Reg.NET_PORT_CFG 0, 1), (Reg.NET_PORT_CFG 1, 1), (Reg.NET_CFG, 2)]
    let h : PtpHead := ⟨true, 0, 0, 0, 0, 0⟩
    d.cfB (Reg.NET_PORT_CFG 0) 0 = true ∧ d.bit (Reg.NET_PORT_STATUS 0) 0 = false ∧ d.bit (Reg.NET_PORT_STATUS 1) 0 = true ∧
      (d.np 0).tsq = [] ∧ d.ptpOn 1 = true ∧ h.transportOk = true ∧ h.domain.toNat = d.cfF Reg.NET_CFG 8 8 ∧
      (PtpBody.pdelayReq ≠ .other) := by decide +kernel
theorem witness_ptp : let d := ((devOf (feats ++ [(Reg.NET_PORT_STATUS 0, 0x91)]) [(Reg.NET_CFG, 1)]).setNp 0
      { best := some (0, ⟨0, 0, 0, 0, 0, 0, 0, 0, false, false⟩), req := some (0, some 5), ms := some 7 })
    d.portPtp 0 = 9 ∧ (d.np 0).req = some (0, some 5) ∧ (d.np 0).ms = some 7 ∧ d.cfB Reg.NET_CFG 3 = false ∧
      ((d.np 0).best.map Prod.fst) = some (0 : BitVec 80).toNat ∧ d.portId 0 < 2 ^ 80 := by decide +kernel

/-! ### Memory and the pair -/

/-- Four channels in service, and ports that live. -/
def memory : Dev := devOf [serving, (Reg.MEMC_CH_STATUS 0, 1), (Reg.ARB_ALIVE, 0xFFFFFFFF), (Reg.PLACE_CH_OK, 0xF), (Reg.ARB_PORT_CFG 4, 0xB)]
  [(Reg.MEMC_PD_IDLE, 4)]
def asked (p : Nat) : Dev := memory.setChan 0 { pend := [(p, [⟨p, 64, none, none⟩])], table := [0x84] }
theorem witness_request : memory.halted = false ∧ memory.portAlive 4 = true ∧ ((memory.chan 0).queue 4).length < 8 ∧
    ¬(memory.portAlive 4 = false ∨ 8 ≤ ((memory.chan 0).queue 4).length) ∧ (memory.wrBit Reg.ARB_ALIVE 4 false).portAlive 4 = false := by
  decide +kernel
theorem witness_grant : (memory.nextPort 0).2 = none ∧ ((asked 4).nextPort 0).2 = some 4 ∧
    (((asked 4).nextPort 0).1.chan 0).queue 4 = [⟨4, 64, none, none⟩] ∧ (asked 4).slotOwner ((asked 4).chan 0) = some 4 ∧
    (asked 5).prioOwner ((asked 5).chan 0) = some 5 ∧ memory.prioOwner (memory.chan 0) = none := by decide +kernel
def reading : Dev := memory.setChan 0 { reads := [⟨4, 64, none, none⟩] }
theorem witness_burst : (memory.chan 0).reads = [] ∧ (reading.chan 0).reads = [⟨4, 64, none, none⟩] ∧
    ((reading.setChan 0 { reads := [] }).readWord 0 64 4 []).2.2 = true ∧
    ((reading.setChan 0 { reads := [] }).readWord 0 64 4 [(0, 1), (1, 1), (2, 1), (3, 1), (4, 1)]).2.2 = false ∧
    (memory.chanOk 0 = true ∧ memory.chanIdle 0 = true ∧ memory.bit (Reg.MEMC_CH_STATUS 0) 2 = false) ∧ memory.chanOk 1 = false := by
  decide +kernel
theorem witness_codeword : (List.replicate 64 (7 : Byte)).length = 64 := by decide
theorem witness_channel : memory.chanOk 0 = true ∧ memory.chanOk 1 = false ∧ (memory.chan 0).alertRun + 1 < 3 ∧
    3 ≤ ((memory.setChan 0 { alertRun := 2 }).chan 0).alertRun + 1 := by decide +kernel
theorem witness_rest : ¬(memory.cf Reg.MEMC_PD_IDLE = 0 ∨ memory.chanOk 0 = false ∨
      ∃ q ∈ (memory.chan 0).reads ++ ((memory.chan 0).pend.map Prod.snd).flatten, rankOf q.addr = 1) ∧
    memory.chanOk 1 = false ∧ (((memory.setChan 0 { srAsked := true }).chan 0).srAsked = true ∧
      (memory.setChan 0 { srAsked := true }).chanIdle 0 = true) ∧ (memory.wrBit Reg.MEMC_STATUS 4 true).bit Reg.MEMC_STATUS 4 = true ∧
    memory.bit Reg.MEMC_STATUS 4 = false := by decide +kernel
theorem witness_swap : let d := devOf [held] []
    d.answers ∧ d.inService = false ∧ d.bit Reg.ARB_STATUS 0 = false ∧ (d.wrBit Reg.ARB_STATUS 0 true).bit Reg.ARB_STATUS 0 = true ∧
      (devOf [serving] []).inService = true := by unfold Dev.answers; decide +kernel

/-- START on a committed module, outside pair operation or in it with a partner's registers. -/
def starting (rs cs : List (Nat × Nat)) : Dev :=
  cmdOf 0x0110 [] ([(Reg.SYS_STATUS, 0x231)] ++ (List.range 8).map (fun n => (Reg.SYS_FEAT_ACCEPT n, 0xFFFFFFFF)) ++ rs) cs
def paired : List (Nat × Nat) := [(Reg.PAIR_CFG, 1)]
theorem witness_start_alone : ∃ o x, (starting [] []).Runs 0 0x0110 ⟨[], [], none⟩ o x ∧ x.startRefusal = none ∧ x.pairOn = false ∧
    x.cfg.session = none ∧ x.cfgField = 3 ∧ x.selftestFail = false ∧ x.refFault = false ∧ sgn 16 (x.rdF Reg.HLTH_TEMP_BASE 0 16) ≤ 1200 :=
  runs_spec (by decide +kernel)
theorem witness_start_refused : ∃ o x, (starting [(Reg.SYS_STATUS, 0x201)] []).Runs 0 0x0110 ⟨[], [], none⟩ o x ∧
    x.startRefusal = some NOT_COMMITTED := runs_spec (by decide +kernel)
theorem witness_start_leads : ∃ o x, (starting [] paired).Runs 0 0x0110 ⟨[], [], none⟩ o x ∧ x.startRefusal = none ∧ x.pairOn = true ∧
    x.partnerAlive = false := runs_spec (by decide +kernel)
theorem witness_start_lives : ∃ o x, (starting [(Reg.PAIR_STATUS, 0x20)] paired).Runs 0 0x0110 ⟨[], [], none⟩ o x ∧ x.startRefusal = none ∧
    x.pairOn = true ∧ x.partnerAlive = true ∧ x.partnerRole = 0 ∧ (x.pair.partnerHold = false ∨ x.preferred = true) :=
  runs_spec (by decide +kernel)
theorem witness_start_waits : ∃ o x, ({ starting [(Reg.PAIR_STATUS, 0x20)] [(Reg.PAIR_CFG, 3)] with pair := { partnerHold := true } } : Dev).Runs
    0 0x0110 ⟨[], [], none⟩ o x ∧ x.startRefusal = none ∧ x.partnerRole = 0 ∧ ¬(x.pair.partnerHold = false ∨ x.preferred = true) :=
  runs_spec (by decide +kernel)
theorem witness_start_follows : ∃ o x, (starting [(Reg.PAIR_STATUS, 0x20), (Reg.PAIR_PARTNER, 1)] paired).Runs 0 0x0110 ⟨[], [], none⟩ o x ∧
    x.partnerRole ≠ 0 ∧ x.pair.kept = [] ∧ x.formed = false := runs_spec (by decide +kernel)
theorem witness_start_kept : ∃ o x, ({ starting [(Reg.PAIR_STATUS, 0x20), (Reg.PAIR_PARTNER, 1)] paired with
      pair := { kept := [⟨matchKey (entry 0x0110 []) 0, 0, 0, 0⟩] } } : Dev).Runs 0 0x0110 ⟨[], [], none⟩ o x ∧ x.partnerRole ≠ 0 ∧
    x.pair.kept.find? (fun f => f.key == matchKey o.entry (mapGet 0 x.pair.counts (countKey o.entry)) && f.status == 0) =
      some ⟨matchKey (entry 0x0110 []) 0, 0, 0, 0⟩ := runs_spec (by decide +kernel)

/-- PAIR_CTRL in a role, with a step state and a partner. -/
def ctrl (a st partner : Nat) : Dev := cmdOf 0x0350 [(8, leBytes 1 a)] (feats ++ [(Reg.PAIR_STATUS, st), (Reg.PAIR_PARTNER, partner)])
  [(Reg.PAIR_CFG, 1)]
theorem witness_pair_ctrl : (∃ o x, (ctrl 1 0 0).Starts 0 0x0350 o x ∧ x.role = 0) ∧
    (∃ o x, (ctrl 1 0x21 2).Starts 0 0x0350 o x ∧ byteAt o.entry 8 = 1 ∧ x.role = 1 ∧ x.partnerInStep = true) ∧
    (∃ o x, (ctrl 2 0x26 1).Starts 0 0x0350 o x ∧ byteAt o.entry 8 = 2 ∧ x.role = 2) ∧
    (∃ o x, (ctrl 3 0x22 1).Starts 0 0x0350 o x ∧ byteAt o.entry 8 = 3 ∧ x.role = 2 ∧ x.stepState = 0 ∧ x.preferred = true) ∧
    (∃ o x, (ctrl 4 1 0).Starts 0 0x0350 o x ∧ byteAt o.entry 8 = 4 ∧ x.role = 1 ∧ x.partnerInStep = false) :=
  ⟨starts_spec (by decide +kernel), starts_spec (by decide +kernel), starts_spec (by decide +kernel), starts_spec (by decide +kernel),
   starts_spec (by decide +kernel)⟩

/-- A frame of the Shank, and the modules that hear it. -/
def heardAs (kind flags : Nat) (body : List Byte) : List Blk := enframe 0x10 (shankFrameBytes kind flags 1 1 body)
def twin (role step : Nat) : Dev := devOf (feats ++ [(Reg.PAIR_STATUS, role + 4 * step + 0x40)]) [(Reg.PAIR_CFG, 1), (Reg.FIRE_BAR_EN, 1)]
/-- `hears` and `Shank` as tests. -/
def hearsB (d : Dev) (kind : Nat) (f : List Blk) : Bool :=
  d.pairOn && d.shankUp && decide (deframe f = some (0x10, bytesOf f)) && shankCrcOk (bytesOf f) && byteAt (bytesOf f) 0 == kind
theorem hears_spec {d : Dev} {kind : Nat} {f : List Blk} (h : hearsB d kind f = true) : d.hears kind f := by
  unfold hearsB at h
  simp only [Bool.and_eq_true, decide_eq_true_eq, beq_iff_eq] at h
  exact ⟨h.1.1.1.1, h.1.1.1.2, h.1.1.2, h.1.2, h.2⟩
def counted (d : Dev) (kind : Nat) (f : List Blk) : Dev :=
  let x := ((d.seeEpoch (epochOf f)).shankSeq (seqOf f)).1
  { x with pair := { x.pair with part := mapErase kind x.pair.part } }
theorem shank_spec {d : Dev} {kind : Nat} {f : List Blk} {P : Dev → List Byte → Prop} [∀ x y, Decidable (P x y)]
    (h : (hearsB d kind f && ((d.seeEpoch (epochOf f)).shankSeq (seqOf f)).2 && !bitOf (byteAt (bytesOf f) 1) 0 &&
      decide (P (counted d kind f) (mapGet [] ((d.seeEpoch (epochOf f)).shankSeq (seqOf f)).1.pair.part kind ++ bodyOf f))) = true) :
    ∃ x body, d.Shank kind f x body ∧ P x body := by
  simp only [Bool.and_eq_true, decide_eq_true_eq, Bool.not_eq_true'] at h
  exact ⟨_, _, ⟨hears_spec h.1.1.1, h.1.1.2, h.1.2, fun x e => by subst e; exact ⟨rfl, rfl⟩⟩, h.2⟩

def commitBody : List Byte := ([2, 0] ++ List.replicate 6 0 ++ leBytes 4 7 ++ List.replicate 20 0)
theorem witness_hello : ∃ x body, (twin 2 0).Shank 1 (heardAs 1 0 (List.replicate 48 0)) x body ∧ numAt body 24 8 = 0 ∧ x.role = 2 :=
  shank_spec (by decide +kernel)
theorem witness_heartbeat : (twin 2 0).hears 2 (heardAs 2 0 (List.replicate 64 0)) ∧ (twin 2 0).pairOn = true ∧ (twin 2 0).shankUp = true ∧
    State.reset.dev.pairOn = false ∧ deframe [.control BLK_EOF 0] = none ∧
    deframe (enframe 2 (List.replicate 8 0)) = some (2, List.replicate 8 0) ∧
    ({ twin 2 0 with pair := { hbLast := some 0 } } : Dev).pair.hbLast = some (numAt (bodyOf (heardAs 2 0 (List.replicate 64 0))) 8 8) :=
  ⟨hears_spec (by decide +kernel), by decide +kernel⟩
theorem witness_hear_commit : ∃ x body, (twin 2 0).Shank 3 (heardAs 3 0 commitBody) x body ∧ x.role = 2 ∧ (commitOf (body.take 32)).kind = 2 ∧
    (commitOf (body.take 32)).job ≠ 0 ∧ ∀ b ∈ x.commitBars (commitOf (body.take 32)), x.begun (commitOf (body.take 32)).job b ≤
      (commitOf (body.take 32)).line := shank_spec (by decide +kernel)
theorem witness_hear_decision : ∃ x body, (twin 2 0).Shank 4 (heardAs 4 0 (leBytes 8 5 ++ [0, 0, 1, 0, 0, 0, 0, 0])) x body ∧ x.role = 2 ∧
    byteAt body 8 < 8 ∧ 1 ≤ byteAt body 10 ∧ byteAt body 10 ≤ 3 ∧ (x.bf (byteAt body 8)).next ≤ numAt body 0 8 := shank_spec (by decide +kernel)
theorem witness_hear_loop : (∃ x body, (twin 2 0).Shank 5 (heardAs 5 0 (List.replicate 16 0)) x body ∧ x.role = 2) ∧
    (∃ x body, (twin 1 0).Shank 5 (heardAs 5 0 (List.replicate 16 0)) x body ∧ x.role ≠ 2 ∧ body ≠ []) :=
  ⟨by simpa using shank_spec (d := twin 2 0) (kind := 5) (P := fun x _ => x.role = 2) (by decide +kernel), shank_spec (by decide +kernel)⟩
theorem witness_hear_digests : ∃ x body, (twin 2 0).Shank 6 (heardAs 6 0 (List.replicate 80 0)) x body ∧ x.role = 2 ∧ byteAt body 8 < 8 ∧
    x.syncing (byteAt body 8) = false ∧ mapGet [] x.pair.own (byteAt body 8) = [] ∧ mapGet [] x.pair.theirs (byteAt body 8) = [] :=
  shank_spec (by decide +kernel)
theorem witness_hear_cmd : ∃ x body, (twin 2 0).Shank 7 (heardAs 7 0 (List.replicate 24 0)) x body ∧ x.role = 2 ∧
    ∀ w ∈ x.pair.waits, w.key ≠ numAt body 0 8 := shank_spec (by decide +kernel)
theorem witness_hear_job : ∃ x body, (twin 2 0).Shank 8 (heardAs 8 0 (leBytes 4 7 ++ List.replicate 12 0)) x body ∧ x.role = 2 ∧
    x.findJob (numAt body 0 4) = none := shank_spec (by decide +kernel)
theorem witness_hear_state : (twin 2 2).hears 9 (heardAs 9 1 (List.replicate 16 0)) ∧
    (((twin 2 2).seeEpoch (epochOf (heardAs 9 1 (List.replicate 16 0)))).shankSeq (seqOf (heardAs 9 1 (List.replicate 16 0)))).2 = true ∧
    (twin 2 2).role = 2 ∧ (twin 2 2).stepState = 2 ∧ bitOf (byteAt (bytesOf (heardAs 9 1 (List.replicate 16 0))) 1) 0 = true :=
  ⟨hears_spec (by decide +kernel), by decide +kernel⟩
theorem witness_hear_resign : ∃ x body, (twin 2 0).Shank 0xA (heardAs 0xA 0 (List.replicate 8 0)) x body ∧ x.role = 2 ∧ x.stepState ≠ 2 ∧
    body ≠ [] := shank_spec (by decide +kernel)
def apart : Mismatch := ⟨5, 0, true, none, true, false⟩
theorem witness_hear_diag : ∃ x body, ({ twin 1 0 with pair := { mismatch := some apart } } : Dev).Shank 0xB
    (heardAs 0xB 0 (List.replicate 9 0 ++ [1] ++ List.replicate 6 0)) x body ∧ x.role = 1 ∧ x.pair.mismatch = some apart ∧ apart.own = true ∧
    byteAt body 9 = 1 := shank_spec (by decide +kernel)
theorem witness_hear_request : ∃ x body, (twin 1 0).Shank 0xC (heardAs 0xC 0 (leBytes 8 2)) x body ∧ x.role = 1 ∧ byteAt body 0 = 2 ∧
    x.takeoverPending = false ∧ x.anyActive = false := shank_spec (by decide +kernel)
theorem witness_hear_released : ∃ x body, ({ twin 2 0 with pair := { master := 1 } } : Dev).Shank 0xD (heardAs 0xD 0 (List.replicate 8 0)) x body ∧
    x.role = 2 ∧ (x.takeoverPending = true ∨ x.pair.master ≠ 0) ∧ body ≠ [] := shank_spec (by decide +kernel)
theorem witness_pair_timers : let d := twin 2 0
    d.halted = false ∧ d.pairOn = true ∧ d.shankUp = true ∧ d.partnerAlive = false ∧ d.stepState ≠ 2 ∧ (twin 2 2).stepState = 2 ∧
      (d.wrBit Reg.PAIR_STATUS 5 true).partnerAlive = true ∧ (twin 0 0).role = 0 ∧ (twin 1 0).role = 1 ∧ d.pair.startWait = none ∧
      d.pair.mismatch = none ∧ ({ d with pair := { mismatch := some apart } } : Dev).pair.mismatch = some apart ∧
      d.pair.kept = [] ∧ (5 : Nat) < 2 ^ 32 := by decide +kernel

/-! ### Safety, power, health, the log and the firmware -/

/-- A proposed set in range with a key, and a module that is asked to take it. -/
def proposal : List Byte :=
  let b := leBytes 4 0x53504653 ++ [1] ++ List.replicate 7 0 ++ leBytes 4 1 ++ leBytes 16 5 ++ leBytes 4 1024 ++ leBytes 4 512 ++ leBytes 4 2048 ++
    leBytes 4 1000 ++ leBytes 2 800 ++ leBytes 2 880 ++ [50, 120, 1, 0] ++ leBytes 4 100000 ++ leBytes 4 1 ++ leBytes 2 100 ++ leBytes 2 24 ++
    List.replicate 56 0
  b ++ leBytes 4 (crc32c b)
def proposing (n crc inputs : Nat) : Dev := cmdOf 0x0340 [(12, leBytes 4 crc), ref n] ((Reg.SYS_STATUS, 0x201) :: feats.tail ++ [(Reg.SAFE_INPUTS, inputs)]) []
def offered : Dma := ⟨[], proposal, none⟩
theorem witness_propose : ∃ o x, (proposing 128 (crc32c proposal) 4).Starts 0 0x0340 o x ∧ x.buffer o.entry offered = .ok [(0x1000, 128)] ∧
    crc32c (dmaBytes offered 128) = numAt o.entry 12 4 ∧ crc32c ((dmaBytes offered 128).take 124) = numAt (dmaBytes offered 128) 124 4 ∧
    x.bit Reg.SAFE_INPUTS 2 = true ∧ setRanges (dmaBytes offered 128) = true ∧ x.keyedSet (dmaBytes offered 128) = some proposal :=
  starts_spec (by decide +kernel)
theorem witness_propose_bad : (∃ o x, (proposing 64 0 4).Starts 0 0x0340 o x ∧ x.buffer o.entry offered = .ok [(0x1000, 64)] ∧
      ¬crc32c (dmaBytes offered 128) = numAt o.entry 12 4) ∧
    (∃ o x, (proposing 128 (crc32c proposal) 0).Starts 0 0x0340 o x ∧ x.buffer o.entry offered = .ok [(0x1000, 128)] ∧
      x.bit Reg.SAFE_INPUTS 2 = false ∧ setRanges (proposal.set 4 2) = false) :=
  ⟨starts_spec (by decide +kernel), starts_spec (by decide +kernel)⟩
def guarded : Dev := devOf (feats ++ [(Reg.SAFE_STATUS, 0x103), (Reg.SAFE_SPD_SCALE, 16777216), (Reg.SAFE_SPEED_TRIP, 100)]) []
theorem witness_safety : guarded.halted = false ∧ guarded.bit Reg.SAFE_STATUS 3 = false ∧ guarded.bit Reg.SAFE_STATUS 6 = false ∧
    (guarded.bit Reg.SAFE_STATUS 0 = true ∧ guarded.bit Reg.SAFE_STATUS 8 = true) ∧ (devOf [serving] []).bit Reg.SAFE_STATUS 0 = false ∧
    (guarded.wrBit Reg.SAFE_STATUS 6 true).bit Reg.SAFE_STATUS 6 = true ∧ guarded.safe.slowFrom = none ∧ guarded.safe.copies = [] ∧
    ({ guarded with safe := { copies := [(0, [], 0)] } } : Dev).safe.copies = [(0, [], 0)] ∧ guarded.bit Reg.SAFE_BAR_INHIBIT 0 = false ∧
    mapGet 0 guarded.safe.calm 0 + 1 < 8 := by decide +kernel

/-- POWER_SET of a state. -/
def asking (t st : Nat) : Dev := cmdOf 0x0320 [(8, [BitVec.ofNat 8 t])] (feats ++ [(Reg.PWR_STATUS, st)]) []
theorem witness_power_set : (∃ o x, (asking 1 0).Starts 0 0x0320 o x ∧ byteAt o.entry 8 = 1 ∧ x.entering = false ∧ x.pState = 0) ∧
    (∃ o x, (asking 3 0).Starts 0 0x0320 o x ∧ byteAt o.entry 8 = 3 ∧ x.anyActive = false ∧ x.entering = false ∧ x.pState = 0) ∧
    (∃ o x, (asking 1 1).Starts 0 0x0320 o x ∧ byteAt o.entry 8 = x.pState ∧ x.entering = false) ∧
    (∃ o x, (asking 1 8).Starts 0 0x0320 o x ∧ byteAt o.entry 8 < 2 ∧ x.entering = true) :=
  ⟨starts_spec (by decide +kernel), starts_spec (by decide +kernel), starts_spec (by decide +kernel), starts_spec (by decide +kernel)⟩
/-- A module in a power state, which enters sleep in a phase or not. -/
def powered (st : Nat) : Dev := devOf (feats ++ [(Reg.PWR_STATUS, st), (Reg.HEEL_WAKE_MASK, 0x3F)]) [(Reg.POS_ENC_CFG 0, 1), (Reg.PWR_BUDGET, 100)]
theorem witness_entry : (powered 0).entering = false ∧ ((powered 0x18).entering = true ∧ (powered 0x18).phase = 1) ∧
    ((powered 0x28).phase = 2 ∧ ({ powered 0x28 with pwr := { agents := [1] } } : Dev).pwr.agents.head? = some 1) ∧
    (powered 0x28).pwr.agents.head? ≠ some 1 ∧ (powered 2).pState = 2 ∧ (powered 2).halted = false := by decide +kernel
def draining : Dev := ((powered 0x38).wr Reg.ARB_DRAINING 2).setChan 0 { pend := [(1, [⟨1, 0, none, none⟩])] }
theorem witness_drain : draining.entering = true ∧ draining.phase = 3 ∧ draining.portDraining 1 = true ∧
    (∀ r, r < 29 → r ≠ 1 → draining.portDraining r = false) ∧ ((List.range 4).map (fun c => ((draining.chan c).queue 1).length)).sum = 1 ∧
    ((List.range 4).map (fun c => (((draining.setChan 0 {}).chan c).queue 1).length)).sum = 0 ∧
    (∀ p, p < 29 → (powered 0x38).portDraining p = false) := by decide +kernel
theorem witness_wake : let d := powered 3
    (∃ c, c < 4 ∧ d.cfB (Reg.POS_ENC_CFG c) 0 = true) ∧ bitOf d.wakeMask 2 = true ∧ d.pwr.stuck = false ∧ d.pwr.failing = false ∧
      d.pState = 3 ∧ d.pwr.waking = none ∧ d.pwr.wakePin = false ∧ (powered 5).pState = 5 ∧ bitOf (powered 5).wakeMask 1 = true ∧
      ({ d with pwr := { waking := some (1, false, 3, 0) } } : Dev).pwr.waking ≠ none ∧ ((powered 0x28).entering = true ∧ (powered 0x28).pwr.target ≠ 2) ∧
      (0x58 : BitVec 7).toNat = 0x58 + d.rdF Reg.SYS_STRAPS 0 1 := by decide +kernel
theorem witness_window : let d : Dev := { powered 3 with pwr := { steps := (List.range 25).map (fun i => (i, 0)) } }
    d.pwr.steps ≠ [] ∧ (admitSteps (d.cf Reg.PWR_BUDGET) d.pwr.steps).2 ≠ [] ∧ (powered 3).pwr.steps = [] ∧
      (admitSteps 0xFFFF [(0, 0)]).2 = [] := by decide +kernel
theorem witness_unit : let d := devOf (feats ++ [(Reg.TIME_TRIG_STATUS 0, 1)]) []
    d.trigState 0 = 1 ∧ d.trigTarget 0 ≤ d.localNow ∧ d.bit (Reg.TIME_TRIG_CFG 0) 1 = false ∧ d.trigState 1 ≠ 1 ∧
      (d.wr (Reg.TIME_TRIG_CFG 0) 2).bit (Reg.TIME_TRIG_CFG 0) 1 = true ∧ d.rd (Reg.TIME_TRIG_PERIOD 0) = 0 := by decide +kernel
theorem witness_shelf_off : let d := devOf [held] []
    d.inHold = true ∧ d.entering = false ∧ d.pState < 3 ∧ d.pwr.stuck = false ∧ d.pwr.failing = false := by decide +kernel
theorem witness_health : let d := devOf (feats ++ [(Reg.NVM_POH, 24), (Reg.PLACE_CH_OK, 1)]) [(Reg.HLTH_CFG, 0x10)]
    d.rd Reg.NVM_POH % 24 = 0 ∧ ¬(∃ v rest, mapGet [] d.hlth.samples 0 = ((24, v) : Nat × Int) :: rest) ∧ d.anyActive = false ∧ d.feat 45 = true ∧
      d.bit Reg.PLACE_CH_OK 0 = true ∧ d.bit Reg.PLACE_CH_OK 1 = false ∧ (d.cfB Reg.HLTH_CFG 4 = true ∧ d.anyActive = false) ∧
      ((powered 5).pState = 5 ∧ (devOf [serving] []).feat 45 = false) ∧
      listMax (readings 3 [1300, 0, 0]) = 1300 := by
  refine ⟨by decide +kernel, ?_, by decide +kernel⟩
  have e : mapGet [] (devOf (feats ++ [(Reg.NVM_POH, 24), (Reg.PLACE_CH_OK, 1)]) [(Reg.HLTH_CFG, 0x10)]).hlth.samples 0 = [] := by decide +kernel
  rintro ⟨v, rest, h⟩
  rw [e] at h
  cases h
def calling (cal unit : Nat) : Dev := cmdOf 0x0360 [(8, leBytes 1 cal), (12, leBytes 4 unit)] (feats ++ [(Reg.CXP_STATUS, 5)]) [(Reg.CXP_CAM_CFG 0, 1)]
theorem witness_calibrate : (∃ o x, (calling 5 0).Starts 0 0x0360 o x ∧ byteAt o.entry 8 = 5 ∧ x.inHold = false) ∧
    (∃ o x, (calling 7 0).Starts 0 0x0360 o x ∧ 7 ≤ byteAt o.entry 8 ∧ (x.cs 0).cal.isSome = false ∧ x.calUnitOk 7 0 = true) ∧
    (∃ o x, (calling 1 3).Starts 0 0x0360 o x ∧ byteAt o.entry 8 < 7 ∧ x.calUnitOk 1 (numAt o.entry 12 4) = true) ∧
    (∃ o x, (calling 2 8).Starts 0 0x0360 o x ∧ x.calUnitOk (byteAt o.entry 8) (numAt o.entry 12 4) = false) :=
  ⟨starts_spec (by decide +kernel), starts_spec (by decide +kernel), starts_spec (by decide +kernel), starts_spec (by decide +kernel)⟩
theorem witness_calibration : let d := devOf feats [(Reg.HLTH_CFG, 1)]
    d.calUnitOk 1 0 = true ∧ d.calAuto 1 = true ∧ d.calAuto 2 = false ∧ d.calWaits 2 0 = false := by decide +kernel
/-- LOG_READ of one record, plain and compressed. -/
def logged (cfg : Nat) : Dev := { cmdOf 0x0301 [(16, leBytes 4 1), ref 64] (feats ++ [(Reg.DFL_CMP_OK, 1)]) [(Reg.HLTH_CFG, cfg)] with
  log := { ring := [⟨1, 0, .safeState, 0, []⟩] } }
theorem witness_log : ∃ o x, (logged 0).Starts 0 0x0301 o x ∧ x.buffer o.entry ⟨[], [], none⟩ = .ok [(0x1000, 64)] ∧
    x.cfB Reg.HLTH_CFG 5 = false ∧ x.logFrom o = [⟨1, 0, .safeState, 0, []⟩] := starts_spec (by decide +kernel)
theorem witness_log_packed : ∃ o x, (logged 0x20).Starts 0 0x0301 o x ∧ x.buffer o.entry ⟨[], [], none⟩ = .ok [(0x1000, 64)] ∧
    (x.cfB Reg.HLTH_CFG 5 = true ∧ x.rd Reg.DFL_CMP_OK ≠ 0 ∧ x.inRecovery = false) ∧
    fitRecs 1 64 (x.logFrom o) = [⟨1, 0, .safeState, 0, []⟩] ∧ fitRecs 1 8 (x.logFrom o) = [] := starts_spec (by decide +kernel)
theorem witness_health_read : ∃ o x, (cmdOf 0x0302 [ref 64] feats []).Starts 0 0x0302 o x ∧ x.buffer o.entry ⟨[], [], none⟩ = .ok [(0x1000, 64)] ∧
    dataErr ⟨[], [], none⟩ = none ∧ x.pwr.failing = false := starts_spec (by decide +kernel)
/-- A firmware command for an image while image 0 runs. -/
def flash (opc k off boot : Nat) : Dev := cmdOf opc [(8, leBytes 1 k), (12, leBytes 4 off), ref 64] ((Reg.SYS_STATUS, 0x201) :: feats.tail ++ [(Reg.NVM_BOOT, boot)]) []
theorem witness_write_image : (∃ o x, (flash 0x0310 0 0 0).Starts 0 0x0310 o x ∧ x.imageRuns (byteAt o.entry 8) = true) ∧
    (∃ o x, (flash 0x0310 1 4096 0).Starts 0 0x0310 o x ∧ x.imageRuns (byteAt o.entry 8) = false ∧ (x.img 1).open_ = false ∧ numAt o.entry 12 4 ≠ 0) ∧
    (∃ o x, (flash 0x0310 1 0 0).Starts 0 0x0310 o x ∧ x.imageRuns (byteAt o.entry 8) = false ∧ numAt o.entry 12 4 = 0 ∧
      x.buffer o.entry ⟨[], [], none⟩ = .ok [(0x1000, 64)]) :=
  ⟨starts_spec (by decide +kernel), starts_spec (by decide +kernel), starts_spec (by decide +kernel)⟩
def image (opc k boot : Nat) : Dev := cmdOf opc [(8, leBytes 1 k)] ((Reg.SYS_STATUS, 0x201) :: feats.tail ++ [(Reg.NVM_BOOT, boot)]) []
theorem witness_verify_image : (∃ o x, (image 0x0311 0 0).Starts 0 0x0311 o x ∧ x.imageRuns (byteAt o.entry 8) = true) ∧
    (∃ o x, (image 0x0311 1 0).Starts 0 0x0311 o x ∧ x.imageRuns (byteAt o.entry 8) = false) ∧
    (∃ o x, ({ image 0x0311 1 0 with hlth := { imgs := [(1, { factory := true })] } } : Dev).Starts 0 0x0311 o x ∧ x.imgOk (byteAt o.entry 8) = true) :=
  ⟨starts_spec (by decide +kernel), starts_spec (by decide +kernel), starts_spec (by decide +kernel)⟩
theorem witness_select_image : (∃ o x, (image 0x0312 0 0).Starts 0 0x0312 o x ∧ x.imageRuns (byteAt o.entry 8) = true) ∧
    (∃ o x, (image 0x0312 1 0x20).Starts 0 0x0312 o x ∧ x.imageRuns (byteAt o.entry 8) = false ∧
      x.rdF Reg.NVM_BOOT (2 + 2 * byteAt o.entry 8) 2 = 2) ∧
    (∃ o x, (image 0x0312 1 0).Starts 0 0x0312 o x ∧ x.imageRuns (byteAt o.entry 8) = false ∧
      x.rdF Reg.NVM_BOOT (2 + 2 * byteAt o.entry 8) 2 ≠ 2) :=
  ⟨starts_spec (by decide +kernel), starts_spec (by decide +kernel), starts_spec (by decide +kernel)⟩

/-! ### Completion of the module's own sequences -/

theorem witness_complete_commit : ∃ o x, ({ cmdOf 0x0103 [] [held, (Reg.SYS_FEAT_ACCEPT 0, 0x1000001), (Reg.PLACE_CH_OK, 0xF)] [] with
    cfg := { force := resetImage, session := some good } } : Dev).Starts 0 0x0103 o x ∧ x.cfg.session = some good ∧
    numAt o.entry 8 4 = x.rd Reg.SYS_CFG_RUN_COUNT ∧ numAt o.entry 12 4 = x.rd Reg.SYS_CFG_RUN_CRC ∧
    ({ x with cfg := { x.cfg with force := good } } : Dev).imageCheck = none ∧ bitOf (byteAt o.entry 16) 0 = false :=
  starts_spec (by decide +kernel)
theorem witness_complete_admit : ∃ o x, ((cmdOf 0x0120 [(8, leBytes 4 7), ref 96] press bar0).takeHealth 1).Runs 0 0x0120 ⟨[], record1, none⟩ o x ∧
    let r := dmaBytes ⟨[], record1, none⟩ 96
    let j := jobOf r false
    let k := x.asKnown
    (k.job.jobs.length < 64 ∧ j.rep = false ∧ k.cf Reg.PLACE_RATE_FLOOR ≤ (k.ceilings j).2 ∧ (∀ b ∈ j.barList, k.barCan b = true) ∧
      (j.barList.filter (fun b => !k.hasEngine b)).length ≤ b2n k.re8Free ∧ j.barList.length ≤ k.dflLanes.length) :=
  runs_spec (by decide +kernel)
theorem witness_complete_post : ∃ o x,
    (withJob { job1 with phase := .scheduled } (cmdOf 0x0130 [(8, commitBytes phase1)] press bar0)).Runs 0 0x0130 ⟨[], [], none⟩ o x ∧
    x.role ≠ 2 ∧ (commitFieldsOk (commitOf ((o.entry.drop 8).take 32)) true = true ∧ x.pairOn = false ∧
      x.commitJobOk (commitOf ((o.entry.drop 8).take 32)) = true ∧
      (∀ b ∈ x.commitBars (commitOf ((o.entry.drop 8).take 32)), x.begun 7 b = 0 ∨ x.begun 7 b - 1 + 64 ≤ 50) ∧
      x.commitHeld (commitOf ((o.entry.drop 8).take 32)) true = false ∧ x.commitArgOk (commitOf ((o.entry.drop 8).take 32)) = true ∧
      ∀ b ∈ x.commitBars (commitOf ((o.entry.drop 8).take 32)), (x.pendOn b).length < 256) := runs_spec (by decide +kernel)
theorem witness_complete_links : let d := portAt 2 { downLogged := true }
    d.portState 0 = 2 ∧ (d.ls 0).downLogged = true ∧ (∀ b < 8, (d.ls b).flooded = false) ∧ (d.ls 0).echoes.length < 15 ∧
      (∀ h, mapGet [] (d.ls 0).hmem h = []) ∧ (d.ls 0).senseReq = none ∧ (d.ls 0).hmemReq = none := by
  refine ⟨by decide +kernel, by decide +kernel, by decide +kernel, by decide +kernel, fun h => ?_, by decide +kernel⟩
  have e : ((portAt 2 { downLogged := true }).ls 0).hmem = [] := by decide +kernel
  rw [e]; rfl
theorem witness_complete_eye : let d := devOf [serving, (Reg.LANE_LN_STATUS 8, 8)] []
    let x : Dev := { d with lane := { scan := some (8, true) } }
    x.lane.scan = some (8, true) ∧ x.lane.scanDown = false ∧ x.laneUp 8 = true ∧ x.lane.hostNext = none ∧ x.lane.queue = [] := by decide +kernel
def waitingOut : Out := { q := 0, entry := entry 0x0110 [], sqHead := 0, post := true, mkey := some (5, 6) }
theorem witness_complete_wait : ({ twin 1 0 with pair := { startWait := some waitingOut } } : Dev).pair.startWait = some waitingOut ∧
    waitingOut.mkey = some (5, 6) ∧ apart.inStep = true ∧ apart.other = none ∧ (twin 1 0).role = 1 := by decide +kernel

/-- A command of a formed pair that starts on the ACTIVE, matched. -/
def matched : Dev := cmdOf 0x0111 [] (feats ++ [(Reg.PAIR_STATUS, 0x71)]) [(Reg.PAIR_CFG, 1)]
def matchedOut (d : Dev) : Out × Dev :=
  match d.startFront 0 with
  | some (o, x) =>
    let n := mapGet 0 x.pair.counts (countKey o.entry) + 1
    let key := matchKey o.entry n
    let dg := x.matchDigest o.entry ⟨[], [], none⟩
    ({ o with mkey := some (key, dg) },
      ({ x with pair := { x.pair with counts := mapSet 0 x.pair.counts (countKey o.entry) n } } : Dev).shank 7 (cmdBody key dg 0xFFFF 0))
  | none => (waitingOut, d)
theorem witness_matched : ∃ o x, matched.Runs 0 0x0111 ⟨[], [], none⟩ o x ∧ x.anyActive = false ∧ byteAt o.entry 8 = 0 := by
  have h : ∃ p, matched.startFront 0 = some p ∧ (p.2.pairOn && p.2.formed) = true ∧ p.2.role = 1 := by
    cases e : matched.startFront 0 with
    | none => exact absurd e (by decide +kernel)
    | some p =>
      have : (matched.startFront 0).all (fun p => (p.2.pairOn && p.2.formed) && p.2.role == 1) = true := by decide +kernel
      rw [e] at this
      simp only [Option.all_some, Bool.and_eq_true, beq_iff_eq] at this
      exact ⟨p, rfl, by simp [this.1.1, this.1.2], this.2⟩
  obtain ⟨⟨o, x⟩, h1, h2, h3⟩ := h
  refine ⟨(matchedOut matched).1, (matchedOut matched).2, .inr ⟨by decide +kernel, by decide +kernel, ⟨o, x, h1, h2, by
    rw [h3]; decide, fun n key dg d2 e1 e2 e3 e4 => ?_⟩, by decide +kernel⟩, by decide +kernel, by decide +kernel⟩
  have h3' : x.role = 1 := h3
  subst e1 e2 e3 e4
  unfold matchedOut
  rw [h1]
  simp [h3']

end Sys2Proof.Tests
end

section
/-!
PROOFS. A host write to a BAR0 register by its access code (R8, R10, R11, R81, R90).
-/

namespace Sys2Proof.Machine

/-! ## From the command to the write by address -/

/-- DOZE is left by a write to PWR_STATUS alone (R470), so a module in RECOVERY stays in it. -/
@[simp] theorem Dev.inRecovery_dozeExit (d : Dev) : d.dozeExit.inRecovery = d.inRecovery := by
  unfold Dev.dozeExit
  split
  · simp only [Dev.inRecovery, d.rdF_wrF_ne 0 3 d.pwr.prev (show Reg.SYS_STATUS ≠ Reg.PWR_STATUS by decide)]
  · rfl

/-- A host write below the end of BAR0, to a module that answers, is a BAR0 write on the module out of DOZE. -/
theorem exec_registerWrite_bar0 (s : State) {a : Nat} (v : Word) (h : s.dev.answers) (ha : a < 0x1000000) :
    exec (.registerWrite a v) s = .next { s with dev := s.dev.dozeExit.bar0Write a v.toNat } := by
  have hw : s.dev.dozeExit.opRegWrite a v.toNat = s.dev.dozeExit.bar0Write a v.toNat := if_pos ha
  rw [← hw]
  exact s.withDev_of_runs _ h.1

/-! ## A BAR0 write by the access code of the row -/

section
variable {d : Dev} {a : Nat} {r : RegRow} (v : Nat) (hd : d.inRecovery = false)
include hd

theorem Dev.bar0Write_of_no_row (hr : rowAt a = none) : d.bar0Write a v = d.writeIgnored a v := by
  simp [Dev.bar0Write, hd, hr]

theorem Dev.bar0Write_of_readOnly (hr : rowAt a = some r) (hacc : r.acc = .ro ∨ r.acc = .sro) :
    d.bar0Write a v = d.writeIgnored a v := by
  rcases hacc with hacc | hacc <;> simp [Dev.bar0Write, hd, hr, hacc]

theorem Dev.bar0Write_of_writeOnly (hr : rowAt a = some r) (hacc : r.acc = .wo) : d.bar0Write a v = d := by
  simp [Dev.bar0Write, hd, hr, hacc]

theorem Dev.bar0Write_of_rwh (hr : rowAt a = some r) (hacc : r.acc = .rwh) : d.bar0Write a v = d.rwhWrite a v := by
  simp [Dev.bar0Write, hd, hr, hacc]

/-- A write to an RW register goes by the row and the instance of it, `i` and `j`, that the address names. -/
theorem Dev.bar0Write_of_rw (hr : rowAt a = some r) (hacc : r.acc = .rw) : ∃ i j, d.bar0Write a v = d.rwWrite r i j a v := by
  simp only [Dev.bar0Write, hd, hr, hacc, Bool.false_and, Bool.false_eq_true, if_false]
  exact ⟨_, _, rfl⟩

end

/-! ## RWH registers -/

/-- Without a session, or out of HOLD, a write to an RWH register is ignored (R10, R81). -/
theorem Dev.rwhWrite_ignored {d : Dev} (a v : Nat) (h : d.cfg.session = none ∨ d.inHold = false) :
    d.rwhWrite a v = d.writeIgnored a v := by
  unfold Dev.rwhWrite
  cases hs : d.cfg.session with
  | none => rfl
  | some img => simp [h.resolve_left (by simp [hs])]

/-- In a session in HOLD the four bytes written enter the staging image (R81). -/
theorem Dev.rwhWrite_staged {d : Dev} {img : Image} (a v : Nat) (hs : d.cfg.session = some img) (hh : d.inHold = true) :
    d.rwhWrite a v = d.stage img 0 a (leBytes 4 v) := by
  simp [Dev.rwhWrite, hs, hh]

/-! ## Plain RW registers -/

/-- The bases of the RW rows whose write has a rule of its own, told by the row alone. -/
def ruledRw : List Nat :=
  [Reg.SYS_FEAT_ACCEPT 0, Reg.HOSTQ_Q_CTRL 0, Reg.HOSTQ_MSIX_TABLE 0, Reg.POS_CMP_E_T_LO 0 0, Reg.POS_CMP_E_T_HI 0 0,
   Reg.POS_CMP_E_CTRL 0 0, Reg.POS_CMP_E_ADVANCE 0 0, Reg.LANE_EYE_CTRL, Reg.LANE_LN_TEST 0, Reg.ARB_SHADOW 0]

theorem not_mem_ruledRw_of_mem_plainRw : ∀ b ∈ plainRw, b ∉ ruledRw := by decide

/-- The other RW registers of HOSTQ set up a queue pair (R94). -/
theorem base_of_hostq_plain : ∀ r ∈ rowsOfBlock 1, r.base ∈ plainRw → r.base = Reg.HOSTQ_Q_AGG 0 := by decide

/-- The RW registers of TIME belong to the trigger units (R388). -/
theorem no_time_row_plain : ∀ r ∈ rowsOfBlock 5, r.base ∉ plainRw := by decide

theorem mem_rowsOfBlock_of_rowAt {a : Nat} {r : RegRow} (h : rowAt a = some r) : r ∈ rowsOfBlock (a / 0x10000) :=
  List.mem_of_find?_eq_some h

/-- A row outside `ruledRw`, HOSTQ and TIME is written plainly; so is the aggregation register of a queue pair. -/
theorem Dev.rwWrite_of_not_ruled (d : Dev) {r : RegRow} (i j : Nat) {a : Nat} (v : Nat) (hn : r.base ∉ ruledRw)
    (hb : r.base = Reg.HOSTQ_Q_AGG 0 ∨ (a / 0x10000 ≠ 1 ∧ a / 0x10000 ≠ 5)) : d.rwWrite r i j a v = d.plainWrite r a v := by
  simp only [ruledRw, List.mem_cons, List.not_mem_nil, or_false, not_or] at hn
  rcases hb with hq | ⟨h1, h5⟩
  · rw [hq] at hn
    simp [Dev.rwWrite, hn, hq]
  · simp [Dev.rwWrite, hn, h1, h5]

/-- A register of `plainRw` takes the bits that a host write sets and keeps the others (R8, R11). -/
theorem Dev.rwWrite_of_plainRw (d : Dev) {a : Nat} {r : RegRow} (i j v : Nat) (hr : rowAt a = some r) (hp : r.base ∈ plainRw) :
    d.rwWrite r i j a v = d.plainWrite r a v := by
  have hm := mem_rowsOfBlock_of_rowAt hr
  refine d.rwWrite_of_not_ruled i j v (not_mem_ruledRw_of_mem_plainRw _ hp) ?_
  by_cases h1 : a / 0x10000 = 1
  · exact .inl (base_of_hostq_plain r (h1 ▸ hm) hp)
  · exact .inr ⟨h1, fun h5 => no_time_row_plain r (h5 ▸ hm) hp⟩

/-! ## The obligation -/

/-- Settles O15: the command is a BAR0 write on the module out of DOZE, and each clause is the equation of that write for its
access code. -/
theorem registerWritesFollowTheAccessCode : Obligations.RegisterWritesFollowTheAccessCode := by
  unfold Obligations.RegisterWritesFollowTheAccessCode
  intro s a v h ha w
  have hw : w.inRecovery = false := s.dev.inRecovery_dozeExit.trans h.2
  have effect : ∀ {d : Dev}, w.bar0Write a v.toNat = d → exec (.registerWrite a v) s = .next { s with dev := d } :=
    fun e => e ▸ exec_registerWrite_bar0 s v h ha
  refine ⟨fun hr => ?_, fun r hr hacc => ?_, fun r hr hacc => ?_, fun r hr hacc hno => ?_, fun r img hr hacc hs hh => ?_,
    fun r hr hacc hp => ?_⟩
  · exact effect (Dev.bar0Write_of_no_row _ hw hr)
  · exact effect (Dev.bar0Write_of_readOnly _ hw hr hacc)
  · exact effect (Dev.bar0Write_of_writeOnly _ hw hr hacc)
  · exact effect ((Dev.bar0Write_of_rwh _ hw hr hacc).trans (Dev.rwhWrite_ignored _ _ hno))
  · exact effect ((Dev.bar0Write_of_rwh _ hw hr hacc).trans (Dev.rwhWrite_staged _ _ hs hh))
  · obtain ⟨i, j, e⟩ := Dev.bar0Write_of_rw v.toNat hw hr hacc
    exact ⟨effect (e.trans (w.rwWrite_of_plainRw i j _ hr hp)), fun b hb => w.rd_wr_ne _ hb⟩

end Sys2Proof.Machine
end

section
/-!
PROOFS. The byte layout of a commit point record gives the record back (R29).
-/

namespace Sys2Proof.Machine

/-! ## Reading the front of a layout -/

/-- A byte is the number of one byte; past the end both read 0. -/
theorem byteAt_eq_numAt (bs : List Byte) (o : Nat) : byteAt bs o = numAt bs o 1 := by
  have h : (bs.drop o).head?.getD 0 = bs.getD o 0 := by simp
  unfold byteAt numAt
  rw [← h]
  cases bs.drop o <;> simp [leNat]

/-- The field at the front of a layout reads the value put there, when the value fits. -/
theorem numAt_front {n v : Nat} (r : List Byte) (h : v < 256 ^ n) : numAt (leBytes n v ++ r) 0 n = v :=
  (numAt_field [] r 0 n v rfl).trans (Nat.mod_eq_of_lt h)

/-- An offset behind the field at the front is an offset in the rest of the layout. -/
theorem numAt_behind {m o : Nat} (v : Nat) (r : List Byte) (n : Nat) (h : m ≤ o) :
    numAt (leBytes m v ++ r) o n = numAt r (o - m) n := by
  simp [numAt, List.drop_append, List.drop_of_length_le, h]

/-! ## The record -/

/-- The layout of R29, one field behind the other. -/
theorem commitBytes_eq (c : CommitRec) : commitBytes c =
    leBytes 1 c.kind ++ (leBytes 1 c.bar ++ (leBytes 1 c.origin ++ (leBytes 1 c.flags ++ (leBytes 4 c.seq ++ (leBytes 4 c.job ++
      (leBytes 4 c.epoch ++ (leBytes 8 c.line ++ (leBytes 8 c.arg ++ [])))))))) := by
  simp [commitBytes, List.append_assoc]

theorem commitBytes_length (c : CommitRec) : (commitBytes c).length = 32 := by simp [commitBytes]

/-- Settles O21: the reader's offset of each field is the length of the fields before it, so each field reads the value put there. -/
theorem commitRecordRoundTrips : Obligations.CommitRecordRoundTrips := by
  unfold Obligations.CommitRecordRoundTrips
  intro c hkind hbar horigin hflags hseq hjob hepoch hline harg
  refine ⟨?_, commitBytes_length c⟩
  rw [commitBytes_eq]
  simp only [Nat.reducePow] at hseq hjob hepoch hline harg
  simp [-List.append_nil, commitOf, byteAt_eq_numAt, numAt_behind, numAt_front, hkind, hbar, horigin, hflags, hseq, hjob, hepoch,
    hline, harg]

end Sys2Proof.Machine
end

section
/-!
PROOFS. The event log: appending, flushing, and reading whole records that fit (R27, R123, R126, R498-R501).
-/

namespace Sys2Proof.Machine

/-! ## 64-bit registers -/

/-- A 64-bit quantity that was written reads back, cut to 64 bits. -/
theorem Dev.rd64_wr64_same (d : Dev) (a v : Nat) : (d.wr64 a v).rd64 a = v % 2 ^ 64 := by
  have lo : (d.wr64 a v).rd a = v % 2 ^ 32 := by
    unfold Dev.wr64
    rw [Dev.rd_wr_ne _ _ (by omega), Dev.rd_wr_same]
  have hi : (d.wr64 a v).rd (a + 4) = v / 2 ^ 32 % 2 ^ 32 := Dev.rd_wr_same _ _ _
  unfold Dev.rd64
  rw [lo, hi]
  omega

theorem Dev.rd64_congr {d d' : Dev} {a : Nat} (lo : d'.rd a = d.rd a) (hi : d'.rd (a + 4) = d.rd (a + 4)) :
    d'.rd64 a = d.rd64 a := by
  unfold Dev.rd64
  rw [lo, hi]

/-! ## Appending (R27, R498, R500) -/

theorem pad8_length_mod (bs : List Byte) : (pad8 bs).length % 8 = 0 := by
  simp only [pad8, List.length_append, List.length_replicate]
  omega

theorem Dev.countFault_log (d : Dev) (ev : Ev) : (d.countFault ev).log = d.log := by
  unfold Dev.countFault
  split
  · exact d.wrF_log _ _ _ _
  · rfl

/-- The count of outstanding faults is in HLTH_STATUS (R499). -/
theorem Dev.rd_countFault_ne (d : Dev) (ev : Ev) {a : Nat} (h : a ≠ Reg.HLTH_STATUS) : (d.countFault ev).rd a = d.rd a := by
  unfold Dev.countFault
  split
  · exact d.rd_wrF_ne _ _ _ h
  · rfl

/-- The record that an append forms (R27, R498). -/
def Dev.newRec (d : Dev) (origin : Nat) (ev : Ev) (payload : List Byte) : LogRec :=
  ⟨d.rd64 Reg.NVM_LOG_NEXT_LO, d.tc, ev, origin, pad8 payload⟩

/-- The module once an append has assigned the sequence number and counted a fault, before the record is stored. -/
def Dev.numbered (d : Dev) (ev : Ev) : Dev :=
  (d.wr64 Reg.NVM_LOG_NEXT_LO (d.rd64 Reg.NVM_LOG_NEXT_LO + 1)).countFault ev

theorem Dev.numbered_log (d : Dev) (ev : Ev) : (d.numbered ev).log = d.log := by
  simp [Dev.numbered, Dev.countFault_log]

/-- The registers of the next sequence number read the next one. -/
theorem Dev.numbered_next (d : Dev) (ev : Ev) (h : d.rd64 Reg.NVM_LOG_NEXT_LO + 1 < 2 ^ 64) :
    (d.numbered ev).rd64 Reg.NVM_LOG_NEXT_LO = d.rd64 Reg.NVM_LOG_NEXT_LO + 1 := by
  unfold Dev.numbered
  rw [Dev.rd64_congr (Dev.rd_countFault_ne _ _ (by decide)) (Dev.rd_countFault_ne _ _ (by decide)), Dev.rd64_wr64_same,
    Nat.mod_eq_of_lt h]

theorem Dev.numbered_drop (d : Dev) (ev : Ev) : (d.numbered ev).rd Reg.HLTH_LOG_DROP = d.rd Reg.HLTH_LOG_DROP := by
  unfold Dev.numbered
  rw [Dev.rd_countFault_ne _ _ (by decide), Dev.rd_wr64_ne _ _ (by decide) (by decide)]

section
variable (d : Dev) (origin : Nat) (ev : Ev) (payload : List Byte)

/-- The staging buffer has room for the record that an append forms (R500). -/
def Dev.stagingFits : Prop := (d.log.staging.map recBytes).sum + recBytes (d.newRec origin ev payload) ≤ 0x100000

/-- The module once the record stands behind the others in the staging buffer (R500). -/
def Dev.stored : Dev :=
  { d.numbered ev with log := { d.log with staging := d.log.staging ++ [d.newRec origin ev payload] } }

/-- An append stores its record behind the others when there is room, and the first record of an empty log is then the oldest; else it
counts a drop (R500). -/
theorem Dev.append_cases :
    (d.stagingFits origin ev payload ∧
      (d.append origin ev payload = d.stored origin ev payload ∨
        d.append origin ev payload =
          (d.stored origin ev payload).wr64 Reg.NVM_LOG_OLDEST_LO (d.rd64 Reg.NVM_LOG_NEXT_LO))) ∨
    (¬d.stagingFits origin ev payload ∧ d.append origin ev payload = (d.numbered ev).bump Reg.HLTH_LOG_DROP) := by
  have hlog := d.numbered_log ev
  unfold Dev.numbered at hlog
  unfold Dev.append Dev.stagingFits Dev.stored
  simp only [hlog]
  split
  case isTrue h =>
    refine .inl ⟨h, ?_⟩
    split
    · exact .inr rfl
    · exact .inl rfl
  case isFalse h => exact .inr ⟨h, rfl⟩

theorem Dev.append_next (h : d.rd64 Reg.NVM_LOG_NEXT_LO + 1 < 2 ^ 64) :
    (d.append origin ev payload).rd64 Reg.NVM_LOG_NEXT_LO = d.rd64 Reg.NVM_LOG_NEXT_LO + 1 := by
  rw [← d.numbered_next ev h]
  rcases d.append_cases origin ev payload with ⟨-, e | e⟩ | ⟨-, e⟩
  · exact e ▸ Dev.rd64_congr rfl rfl
  · exact e ▸ Dev.rd64_congr (Dev.rd_wr64_ne _ _ (by decide) (by decide)) (Dev.rd_wr64_ne _ _ (by decide) (by decide))
  · exact e ▸ Dev.rd64_congr (Dev.rd_bump_ne _ (by decide)) (Dev.rd_bump_ne _ (by decide))

theorem Dev.append_staging_of_fits (h : d.stagingFits origin ev payload) :
    (d.append origin ev payload).log.staging = d.log.staging ++ [d.newRec origin ev payload] := by
  rcases d.append_cases origin ev payload with ⟨-, e | e⟩ | ⟨full, -⟩
  · rw [e]
    rfl
  · rw [e, Dev.wr64_log]
    rfl
  · exact absurd h full

theorem Dev.append_drop_of_not_fits (h : ¬d.stagingFits origin ev payload) :
    (d.append origin ev payload).log.staging = d.log.staging ∧
      (d.append origin ev payload).rd Reg.HLTH_LOG_DROP = min (d.rd Reg.HLTH_LOG_DROP + 1) 0xFFFFFFFF := by
  rcases d.append_cases origin ev payload with ⟨fits, -⟩ | ⟨-, e⟩
  · exact absurd fits h
  · rw [e, Dev.bump_log, Dev.numbered_log, Dev.rd_bump_same, Dev.numbered_drop]
    exact ⟨rfl, rfl⟩

/-- An append leaves the configuration and the jobs alone. -/
theorem Dev.append_cfg_job : (d.append origin ev payload).cfg = d.cfg ∧ (d.append origin ev payload).job = d.job := by
  obtain ⟨⟨m, l, t, h, k, e⟩, -⟩ := d.append_touches origin ev payload
  rw [e]
  exact ⟨rfl, rfl⟩

end

/-! ## Whole records that fit (R501) -/

theorem fitRecs_bytes_le (n room : Nat) (rs : List LogRec) : ((fitRecs n room rs).map recBytes).sum ≤ room := by
  fun_induction fitRecs n room rs with
  | case1 | case2 | case4 => simp
  | case3 n room r rs hfit ih =>
    simp only [List.map_cons, List.sum_cons]
    omega

theorem fitRecs_length_le (n room : Nat) (rs : List LogRec) : (fitRecs n room rs).length ≤ n := by
  fun_induction fitRecs n room rs with
  | case1 | case2 | case4 => simp
  | case3 n room r rs hfit ih => simpa using ih

theorem fitRecs_prefix (n room : Nat) (rs : List LogRec) : fitRecs n room rs <+: rs := by
  fun_induction fitRecs n room rs with
  | case1 | case2 | case4 => exact List.nil_prefix
  | case3 n room r rs hfit ih => exact List.cons_prefix_cons.2 ⟨rfl, ih⟩

/-- What follows the records taken is left for the limit or for the room. -/
theorem fitRecs_maximal (n room : Nat) (rs : List LogRec) (y : LogRec) (ys : List LogRec) (h : rs = fitRecs n room rs ++ y :: ys) :
    (fitRecs n room rs).length = n ∨ room < ((fitRecs n room rs).map recBytes).sum + recBytes y := by
  fun_induction fitRecs n room rs with
  | case1 => exact .inl rfl
  | case2 => simp at h
  | case3 n room r rs hfit ih =>
    have rest := ih (List.cons.inj h).2
    simp only [List.length_cons, List.map_cons, List.sum_cons]
    omega
  | case4 n room r rs hfull =>
    obtain ⟨rfl, -⟩ := List.cons.inj h
    right
    simpa using hfull

/-! ## Reading the log and the health report (R123, R126, R501) -/

/-- A transfer to a buffer that resolves, with no failing request, writes what fits and goes on with its length. -/
theorem Dev.dmaOut_of_ok {d : Dev} {o : Out} {dma : Dma} {els : List (Nat × Nat)} (hbuf : d.buffer o.entry dma = .ok els)
    (herr : dataErr dma = none) (bytes : Nat → List Byte) (k : Dev → Nat → Dev) :
    d.dmaOut o dma bytes k =
      k (d.scatter els ((bytes (bufTotal els)).take (bufTotal els))) ((bytes (bufTotal els)).take (bufTotal els)).length := by
  simp [Dev.dmaOut, Dev.dmaPut, hbuf, herr]

/-- LOG_READ compresses: HLTH_CFG.LOG_COMPRESS, a compression lane that works, and the module out of RECOVERY. -/
def Dev.packsLog (d : Dev) : Prop := d.cfB Reg.HLTH_CFG 5 = true ∧ d.rd Reg.DFL_CMP_OK ≠ 0 ∧ d.inRecovery = false

theorem Dev.packsLog_iff (d : Dev) :
    (d.cfB Reg.HLTH_CFG 5 && d.rd Reg.DFL_CMP_OK != 0 && !d.inRecovery) = true ↔ d.packsLog := by
  simp [Dev.packsLog, and_assoc]

/-- The records that LOG_READ takes for a buffer of a size: those it selects, whole, as many as fit and were asked. -/
def Dev.logTaken (d : Dev) (o : Out) (room : Nat) : List LogRec :=
  fitRecs (min (numAt o.entry 16 4) (d.logFrom o).length) room (d.logFrom o)

section
variable {d : Dev} {o : Out} {dma : Dma} {els : List (Nat × Nat)} (hbuf : d.buffer o.entry dma = .ok els) (herr : dataErr dma = none)
include hbuf herr

/-- Without compression, or with nothing to compress, the records are written as they stand. -/
theorem Dev.logBody_of_plain (h : d.packsLog → d.logTaken o (bufTotal els) = []) :
    let bs := ((d.logTaken o (bufTotal els)).flatMap recordBytes).take (bufTotal els)
    Dev.logBody dma d o = (d.scatter els bs).logDone o (d.logTaken o bs.length) := by
  unfold Dev.logBody
  dsimp only
  split
  case isTrue packed =>
    have none_taken := h (d.packsLog_iff.1 packed)
    unfold Dev.logTaken at none_taken
    simp only [hbuf, none_taken, List.head?_nil]
    exact Dev.dmaOut_of_ok hbuf herr _ _
  case isFalse => exact Dev.dmaOut_of_ok hbuf herr _ _

/-- With compression the records go to a compression lane (R126, R173). -/
theorem Dev.logBody_of_packed (packed : d.packsLog) {a z : LogRec} {rest : List LogRec}
    (taken : d.logTaken o (bufTotal els) = a :: rest) (last : (a :: rest).getLast? = some z) :
    Dev.logBody dma d o = d.addStream
      { use := 4, input := (a :: rest).flatMap recordBytes, verify := d.cfB Reg.DFL_CMP_CTRL 3,
        out := some { o with note := logResult (max (numAt o.entry 8 8) d.log.firstSeq) (a :: rest) },
        item := z.seq + 1, bar := a.seq, els := els } := by
  unfold Dev.logTaken at taken
  unfold Dev.logBody
  dsimp only
  rw [if_pos (d.packsLog_iff.2 packed)]
  simp only [hbuf, taken, last, List.head?_cons, herr]

theorem Dev.healthBody_of_ok :
    Dev.healthBody dma d o = (d.scatter els (d.healthBytes.take (bufTotal els))).complete o OK
      (d.healthBytes.take (bufTotal els)).length [] :=
  Dev.dmaOut_of_ok hbuf herr _ _

end

/-! ## The obligation -/

/-- Settles O55: the append by its two cases, the rows by their bodies, and the records that fit by induction along the log. -/
theorem theLogKeepsItsRecords : Obligations.TheLogKeepsItsRecords := by
  unfold Obligations.TheLogKeepsItsRecords
  refine ⟨fun d origin ev payload hnext => ?append, ⟨fun s => ?flush, fun s q dma o d els hs hbuf herr => ?read,
    fun s q dma o d els hs hbuf herr => ?health⟩, fun n room rs => ?fit⟩
  case append =>
    obtain ⟨hcfg, hjob⟩ := d.append_cfg_job origin ev payload
    exact ⟨d.append_next origin ev payload hnext, d.append_ring origin ev payload, pad8_length_mod payload,
      d.append_staging_of_fits origin ev payload, fun full => d.append_drop_of_not_fits origin ev payload (Nat.not_le.2 full),
      congrArg _ (d.append_host origin ev payload), d.append_tx origin ev payload, hcfg, hjob⟩
  case flush =>
    have effect : exec .logFlush s = .next { s with dev := if s.dev.pwr.failing then s.dev else s.dev.flushLog } := rfl
    constructor <;> intro h <;> simp [Does, effect, h]
  case read =>
    exact ⟨fun plain => Does.of_runCmd hs rfl (Dev.logBody_of_plain hbuf herr fun packed => absurd packed plain),
      fun _ nothing => Does.of_runCmd hs rfl (Dev.logBody_of_plain hbuf herr fun _ => nothing),
      fun _ _ _ packed taken last => Does.of_runCmd hs rfl (Dev.logBody_of_packed hbuf herr packed taken last)⟩
  case health => exact Does.of_runCmd hs rfl (Dev.healthBody_of_ok hbuf herr)
  case fit =>
    obtain ⟨ys, hys⟩ := fitRecs_prefix n room rs
    exact ⟨fitRecs_bytes_le n room rs, fitRecs_length_le n room rs, ⟨ys, hys.symm⟩, fitRecs_maximal n room rs⟩

end Sys2Proof.Machine
end

section
/-!
PROOFS. A module of which only the heel domain works: the rows that act on it, and those that leave it as it was (R43, R74, R468).
-/

namespace Sys2Proof.Machine

/-- A row of the heel domain, of mains or of presence does what its operation gives, in every power state. -/
theorem Does.of_always {c : Instr} {s : State} {d d' : Dev} (e : exec c s = s.always d) (q : d = d') : Does c s d' := q ▸ e

/-- Every row but those of the heel domain, of mains and of presence acts only on a module that runs. -/
theorem exec_eq_withDev_of_not_wakesHalted (c : Instr) (s : State) (h : wakesHalted c = false) :
    ∃ d, exec c s = s.withDev d := by
  cases c
  case powerOn | perst | strapChanged | powerFailWarning | powerFailReturn | presentSettled | forcedRemoval |
      misalignedInsertion | ejectOpen | ejectClose | triggerFire | wake | powerSequencerWindow | shelfWake | shelfPowerOff |
      pohIncrement | logFlush => cases h
  case rasterLine bar part => cases part <;> exact ⟨_, rfl⟩
  all_goals exact ⟨_, rfl⟩

/-- Settles O5: such a row does nothing on a halted module. -/
theorem haltedModuleIsInert : Obligations.HaltedModuleIsInert := by
  unfold Obligations.HaltedModuleIsInert
  intro c s halted outside
  obtain ⟨d, e⟩ := exec_eq_withDev_of_not_wakesHalted c s outside
  exact e.trans (s.withDev_of_halted d halted)

end Sys2Proof.Machine
end

section
/-!
PROOFS. What the operations of a reset, a start-up and an end of the outputs leave alone: fields of registers, and the parts of the module
on which they do not act. One lemma per operation, to be read from the last step back to the first (R53, R70-R74, R447).
-/

namespace Sys2Proof.Machine

/-! ## The relation -/

/-- A field of a register: its address, its lowest bit and its width. -/
abbrev Field := Nat × Nat × Nat

/-- No field of the list lies in a register of the block. -/
abbrev Apart (F : List Field) (b : Nat) : Prop := ∀ f ∈ F, f.1 / 0x10000 ≠ b

/-- The parts of the module on which the steps of a start-up do not act: the time counter, the host link, the jobs, the configuration in
force and the session, the log in MRAM and the firmware images. -/
def Dev.lasting (d : Dev) : Nat × HostSt × JobSt × Image × Option Image × List LogRec × NMap ImgSt :=
  (d.tc, d.host, d.job, d.cfg.force, d.cfg.session, d.log.ring, d.hlth.imgs)

theorem Dev.of_lasting_eq {d d' : Dev} (h : d'.lasting = d.lasting) :
    d'.tc = d.tc ∧ d'.host = d.host ∧ d'.job = d.job ∧ d'.cfg.force = d.cfg.force ∧ d'.cfg.session = d.cfg.session ∧
      d'.log.ring = d.log.ring ∧ d'.hlth.imgs = d.hlth.imgs := by
  simpa [Dev.lasting] using h

/-- From `d` to `d'` the fields of a list and the lasting parts of the module are as they were. -/
structure Dev.Spares (F : List Field) (d d' : Dev) : Prop where
  lasting : d'.lasting = d.lasting
  fields : ∀ f ∈ F, d'.rdF f.1 f.2.1 f.2.2 = d.rdF f.1 f.2.1 f.2.2

namespace Dev

/-! ## Interrupts leave the log in MRAM alone -/

theorem vector_ring (d : Dev) (v : Nat) : (d.vector v).log.ring = d.log.ring := by
  unfold vector
  split
  · exact congrArg LogSt.ring (d.wrBit_log _ _ _)
  · rfl

theorem learn_ring (d : Dev) (ev : Ev) (seq : Nat) : (d.learn ev seq).log.ring = d.log.ring := by
  unfold learn takeHealth
  split <;> rfl

theorem event_ring (d : Dev) (origin : Nat) (ev : Ev) (p : List Byte) : (d.event origin ev p).log.ring = d.log.ring := by
  unfold event
  dsimp only
  repeat' split
  all_goals simp only [learn_ring, vector_ring, append_ring]

namespace Spares

variable {F : List Field} {d x : Dev}

theorem refl (F : List Field) (d : Dev) : Spares F d d := ⟨rfl, fun _ _ => rfl⟩

theorem trans {y : Dev} (h : Spares F d x) (g : Spares F x y) : Spares F d y :=
  ⟨g.lasting.trans h.lasting, fun f hf => (g.fields f hf).trans (h.fields f hf)⟩

/-- The registers decide what their fields read. -/
theorem of_rd (lasting : x.lasting = d.lasting) (rd : ∀ f ∈ F, x.rd f.1 = d.rd f.1) : Spares F d x :=
  ⟨lasting, fun f hf => congrArg (fld · _ _) (rd f hf)⟩

theorem of_touches {S : Nat → Prop} (h : Touches S d x) (off : ∀ f ∈ F, ¬S f.1) (host : x.host = d.host)
    (ring : x.log.ring = d.log.ring) : Spares F d x := by
  refine .of_rd ?_ fun f hf => h.2 _ (off f hf)
  obtain ⟨⟨m, l, t, y, k, rfl⟩, -⟩ := h
  simp only [Dev.lasting] at host ring ⊢
  rw [host, ring]

/-- A whole register of the list reads as before. -/
theorem rd {a : Nat} (h : Spares F d x) (ha : (a, 0, 32) ∈ F) : x.rd a = d.rd a := by
  have whole : ∀ y : Dev, y.rdF a 0 32 = y.rd a := fun y => by simpa [Dev.rdF, fld] using y.rd_lt a
  rw [← whole x, ← whole d]
  exact h.fields _ ha

/-! ## Cases and folds -/

theorem ite {y : Dev} {c : Prop} [Decidable c] (hx : Spares F d x) (hy : Spares F d y) : Spares F d (if c then x else y) := by
  split
  · exact hx
  · exact hy

theorem foldl {α : Type} {f : Dev → α → Dev} {l : List α} (step : ∀ (y : Dev), ∀ a ∈ l, Spares F y (f y a)) (h : Spares F d x) :
    Spares F d (l.foldl f x) := by
  induction l generalizing x with
  | nil => exact h
  | cons a l ih => exact ih (fun y b hb => step y b (List.mem_cons_of_mem a hb)) (h.trans (step x a (List.mem_cons_self ..)))

/-! ## Registers -/

theorem wr {a v : Nat} (off : ∀ f ∈ F, f.1 ≠ a) (h : Spares F d x) : Spares F d (x.wr a v) :=
  h.trans (.of_rd rfl fun f hf => x.rd_wr_ne v (off f hf))

theorem wrF {a lo n v : Nat} (off : ∀ f ∈ F, f.1 ≠ a) (h : Spares F d x) : Spares F d (x.wrF a lo n v) := h.wr off

theorem wrBit {a i : Nat} {b : Bool} (off : ∀ f ∈ F, f.1 ≠ a) (h : Spares F d x) : Spares F d (x.wrBit a i b) := h.wr off

theorem bump {a : Nat} (off : ∀ f ∈ F, f.1 ≠ a) (h : Spares F d x) : Spares F d (x.bump a) := h.wr off

/-- A field is written beside those of the list. -/
theorem wrF_beside {a lo n v : Nat} (fits : lo + n ≤ 32) (off : ∀ f ∈ F, f.1 = a → f.2.1 + f.2.2 ≤ lo ∨ lo + n ≤ f.2.1)
    (h : Spares F d x) : Spares F d (x.wrF a lo n v) := by
  refine h.trans ⟨rfl, fun f hf => ?_⟩
  by_cases e : f.1 = a
  · rw [e]
    exact x.rdF_wrF_other a lo n v fits (off f hf e)
  · exact x.rdF_wrF_ne lo n v e

/-- A register of a block in which no field of the list lies. -/
theorem off_of_block {a b : Nat} (apart : Apart F b) (block : a / 0x10000 = b) : ∀ f ∈ F, f.1 ≠ a :=
  fun f hf e => apart f hf (e ▸ block)

theorem wr64 {a v : Nat} (off : ∀ f ∈ F, f.1 ≠ a) (off4 : ∀ f ∈ F, f.1 ≠ a + 4) (h : Spares F d x) : Spares F d (x.wr64 a v) :=
  wr off4 (wr off h)

theorem wrWords {a : Nat} {ws : List Nat} (n : Nat) (len : ws.length = n) (off : ∀ f ∈ F, f.1 < a ∨ a + 4 * n ≤ f.1) (h : Spares F d x) :
    Spares F d (x.wrWords a ws) :=
  h.trans (.of_rd rfl fun f hf => x.rd_wrWords_outside a ws _ fun i hi e => by have := off f hf; omega)

/-! ## What no register shows -/

theorem send {t : Tx} (h : Spares F d x) : Spares F d (x.send t) := h.trans (.of_rd rfl fun _ _ => rfl)

theorem setPwr {y : PwrSt} (h : Spares F d x) : Spares F d { x with pwr := y } := h.trans (.of_rd rfl fun _ _ => rfl)

theorem setTime {y : TimeSt} (h : Spares F d x) : Spares F d { x with time := y } := h.trans (.of_rd rfl fun _ _ => rfl)

theorem setSafe {y : SafeSt} (h : Spares F d x) : Spares F d { x with safe := y } := h.trans (.of_rd rfl fun _ _ => rfl)

theorem setPair {y : PairSt} (h : Spares F d x) : Spares F d { x with pair := y } := h.trans (.of_rd rfl fun _ _ => rfl)

theorem setMem {y : MemSt} (h : Spares F d x) : Spares F d { x with mem := y } := h.trans (.of_rd rfl fun _ _ => rfl)

theorem setCam {y : NMap CamSt} (h : Spares F d x) : Spares F d { x with cam := y } := h.trans (.of_rd rfl fun _ _ => rfl)

theorem setEmu {e : Nat} {y : EmuSt} (h : Spares F d x) : Spares F d (x.setEmu e y) := h.trans (.of_rd rfl fun _ _ => rfl)

theorem takeHealth {seq : Nat} (h : Spares F d x) : Spares F d (x.takeHealth seq) := h.trans (.of_rd rfl fun _ _ => rfl)

theorem setLocated {y : Option (Nat × List Nat × Image)} (h : Spares F d x) :
    Spares F d { x with cfg := { x.cfg with located := y } } := h.trans (.of_rd rfl fun _ _ => rfl)

theorem append {origin : Nat} {ev : Ev} {p : List Byte} (off : ∀ f ∈ F, ¬logReg f.1) (h : Spares F d x) :
    Spares F d (x.append origin ev p) :=
  h.trans (.of_touches (x.append_touches origin ev p) off (x.append_host ..) (x.append_ring ..))

theorem event {origin : Nat} {ev : Ev} {p : List Byte} (off : ∀ f ∈ F, ¬(logReg f.1 ∨ pbaReg f.1)) (h : Spares F d x) :
    Spares F d (x.event origin ev p) :=
  h.trans (.of_touches (x.event_touches origin ev p) off (x.event_host ..) (x.event_ring ..))

/-! ## Outputs (R51, R53, R236, R240, R258, R392) -/

theorem wakeRelease (h : Spares F d x) : Spares F d x.wakeRelease := by
  unfold Dev.wakeRelease
  exact .ite (.send (.setPwr h)) h

theorem clkReq {low : Bool} (h : Spares F d x) : Spares F d (x.clkReq low) := by
  unfold Dev.clkReq
  exact .ite h (.send (.setPwr h))

theorem srcPin {k : Nat} {on : Bool} (h : Spares F d x) : Spares F d (x.srcPin k on) := by
  unfold Dev.srcPin
  exact .ite (.send h) (.send h)

theorem sources {on : Bool} (h : Spares F d x) : Spares F d (x.sources on) := .srcPin (.srcPin (.srcPin h))

theorem ppsDrive (h : Spares F d x) : Spares F d x.ppsDrive := by
  unfold Dev.ppsDrive
  exact .ite (.send h) (.send (.setTime h))

section
variable (pos : Apart F 7)
include pos

theorem cmpDrive (h : Spares F d x) : Spares F d x.cmpDrive := by
  refine .foldl (fun y k hk => ?_) h
  have off : ∀ f ∈ F, f.1 ≠ Reg.POS_CMP_STATUS k :=
    off_of_block pos (by have := List.mem_range.1 hk; unfold Reg.POS_CMP_STATUS; omega)
  exact .ite (.ite (.send (.wrBit off (.refl F y))) (.wrBit off (.refl F y))) (.send (.wrBit off (.refl F y)))

theorem emuDrive (h : Spares F d x) : Spares F d x.emuDrive := by
  refine .foldl (fun y e he => ?_) h
  have off : ∀ f ∈ F, f.1 ≠ Reg.POS_EMU_STATUS e :=
    off_of_block pos (by have := List.mem_range.1 he; unfold Reg.POS_EMU_STATUS; omega)
  exact .ite (.ite (.send (.wrBit off (.refl F y))) (.wrBit off (.refl F y))) (.send (.wrBit off (.refl F y)))

theorem ssiDrive (h : Spares F d x) : Spares F d x.ssiDrive := by
  refine .foldl (fun y c hc => ?_) h
  have off : ∀ f ∈ F, f.1 ≠ Reg.POS_SSI_STATUS c :=
    off_of_block pos (by have := List.mem_range.1 hc; unfold Reg.POS_SSI_STATUS; omega)
  exact .send (.wrBit off (.wrBit off (.refl F y)))

theorem outputs (h : Spares F d x) : Spares F d x.outputs :=
  .send (.ppsDrive (.ssiDrive pos (.emuDrive pos (.cmpDrive pos h))))

theorem holdOutputs (h : Spares F d x) : Spares F d x.holdOutputs := .sources (.outputs pos h)

theorem release (pair : Apart F 0x26) (h : Spares F d x) : Spares F d x.release := by
  unfold Dev.release
  exact .ite (.outputs pos (.send (.wrBit (off_of_block pair rfl) h))) h

end

end Spares

end Dev

end Sys2Proof.Machine
end

section
/-!
PROOFS. Full and warm resets: what a reset keeps, the start-up in which nothing fails, and the sources of resets (R65, R69-R73, R373,
R458).
-/

namespace Sys2Proof.Machine

/-! ## What a reset keeps of the registers (R70) -/

theorem mapGet_foldl_mapSet_of_not_mem {α : Type} [DecidableEq α] (dflt : α) {k : Nat} (l m : NMap α) (h : ∀ e ∈ l, k ≠ e.1) :
    mapGet dflt (l.foldl (fun m e => mapSet dflt m e.1 e.2) m) k = mapGet dflt m k := by
  induction l generalizing m with
  | nil => rfl
  | cons e l ih =>
    rw [List.foldl_cons, ih _ fun x hx => h x (List.mem_cons_of_mem e hx), mapGet_mapSet_ne _ _ _ (h e (List.mem_cons_self ..))]

/-- Entries of rising keys that are set one after the other in a map that lists none of a key read there as they stand. -/
theorem mapGet_foldl_mapSet {α : Type} [DecidableEq α] (dflt : α) {k : Nat} (l m : NMap α)
    (rising : l.Pairwise (fun a b => a.1 < b.1)) (hm : mapGet dflt m k = dflt) :
    mapGet dflt (l.foldl (fun m e => mapSet dflt m e.1 e.2) m) k = mapGet dflt l k := by
  induction l generalizing m with
  | nil => exact hm
  | cons e l ih =>
    obtain ⟨below, rising⟩ := List.pairwise_cons.1 rising
    rw [List.foldl_cons]
    by_cases h : k = e.1
    · rw [mapGet_foldl_mapSet_of_not_mem _ _ _ fun x hx => h ▸ Nat.ne_of_lt (below x hx), h, mapGet_mapSet_same]
      simp [mapGet]
    · rw [ih _ rising (by rw [mapGet_mapSet_ne _ _ _ h, hm])]
      simp [mapGet, h]

/-- A register that a reset of a scope keeps. -/
def keptBy (full : Bool) (a : Nat) : Bool := inRows nvmRegs a || (!full && inRows warmRegs a)

theorem Dev.mapGet_resetRegsOf {d : Dev} {full : Bool} {a : Nat} (wf : mapWf 0 d.regs = true) (kept : keptBy full a = true) :
    mapGet 0 (d.resetRegsOf full) a = mapGet 0 d.regs a := by
  obtain ⟨rising, -⟩ := (mapWf_iff 0 d.regs).1 wf
  have blank : mapGet 0 ((resetRegs : NMap Word).filter (fun e => !keptBy full e.1)) a = 0 := by
    refine mapGet_of_not_mem _ _ fun e he h => ?_
    simp [h, kept] at he
  exact (mapGet_foldl_mapSet 0 _ _ (rising.filter _) blank).trans (mapGet_filter 0 _ _ kept)

theorem Dev.rd_wiped {d : Dev} {full : Bool} {a : Nat} (wf : mapWf 0 d.regs = true) (kept : keptBy full a = true) :
    (d.wiped full).rd a = d.rd a := congrArg BitVec.toNat (d.mapGet_resetRegsOf wf kept)

/-! ## The steps of a start-up (R73, R74) -/

/-- What a start-up shows of the reset from the start, what it reads of the NVM, what a warm reset keeps, and the feature lock. -/
def bootFields : List Field :=
  [(Reg.SYS_LAST_RESET, 0, 32), (Reg.SYS_STRAPS, 0, 32), (Reg.NVM_BOOT, 0, 1), (Reg.HOSTQ_FLR_COUNT, 0, 32), (Reg.SYS_STATUS, 9, 1)]

theorem bootFields_off_log : ∀ f ∈ bootFields, ¬logReg f.1 := by
  unfold logReg
  decide

theorem bootFields_off_event : ∀ f ∈ bootFields, ¬(logReg f.1 ∨ pbaReg f.1) := by
  unfold logReg pbaReg
  decide

namespace Dev

namespace Spares

variable {d x : Dev}

theorem toHoldover {newMaster : Bool} (h : Spares bootFields d x) : Spares bootFields d (x.toHoldover newMaster) := by
  have showAge : ∀ {y : Dev}, Spares bootFields d y → Spares bootFields d y.showAge := fun hy => by
    unfold Dev.showAge
    exact .ite (.wr (by decide) (.wr (by decide) hy)) hy
  unfold Dev.toHoldover
  exact .ite (.event bootFields_off_event (showAge (.setTime (.wrF (by decide) (.wrF (by decide) h))))) (.ite (.setTime h) h)

/-! ### The safety partition (R444, R447, R457) -/

theorem shank {kind : Nat} {body : List Byte} (h : Spares bootFields d x) : Spares bootFields d (x.shank kind body) := by
  obtain ⟨t, p, e⟩ := x.shank_frame kind body
  exact h.trans (e ▸ .of_rd rfl fun _ _ => rfl)

theorem emuAlign (h : Spares bootFields d x) : Spares bootFields d x.emuAlign := by
  refine .foldl (fun y e he => ?_) h
  have := List.mem_range.1 he
  exact .wrBit (off_of_block (b := 7) (by decide) (by unfold Reg.POS_EMU_STATUS; omega))
    (.wr (off_of_block (b := 7) (by decide) (by unfold Reg.POS_EMU_OWED; omega)) (.setEmu (.refl _ y)))

theorem setRole {role step cause : Nat} (h : Spares bootFields d x) : Spares bootFields d (x.setRole role step cause) := by
  have aligned : Spares bootFields d (if role = 2 then x.camsAway.emuAlign else x) := .ite (.emuAlign (.wrF (by decide) (.setCam h))) h
  unfold Dev.setRole
  exact .wr64 (by decide) (by decide) (.setPair (.wrF (by decide) (.wrF (by decide) (.wrF (by decide) aligned))))

theorem resign {cause step : Nat} (h : Spares bootFields d x) : Spares bootFields d (x.resign cause step) := by
  unfold Dev.resign
  exact .ite (.event bootFields_off_event (.setRole (.wrF (by decide) (.shank (.release (by decide) (by decide) h))))) h

theorem setPermit {on : Bool} (h : Spares bootFields d x) : Spares bootFields d (x.setPermit on) := by
  unfold Dev.setPermit
  exact .ite h (.setSafe (.send (.send (.wrF (by decide) h))))

theorem safeEnter {bit : Nat} (h : Spares bootFields d x) : Spares bootFields d (x.safeEnter bit) := by
  have fault : Spares bootFields d (x.wrBit Reg.SAFE_FAULT bit true) := .wrBit (by decide) h
  unfold Dev.safeEnter
  exact .ite fault (.resign (.setSafe (.append bootFields_off_log (.bump (by decide) (.wrBit (by decide) (.wrF (by decide)
    (.setPermit fault)))))))

theorem showSet {seq : Nat} {bs : List Byte} (h : Spares bootFields d x) : Spares bootFields d (x.showSet seq bs) :=
  .setSafe (.wrBit (by decide) (.wrBit (by decide) (.wrWords 9 rfl (by decide) (.wr (by decide) (.wr (by decide) (.wr (by decide) h))))))

theorem partitionReset {full : Bool} (h : Spares bootFields d x) : Spares bootFields d (x.partitionReset full) := by
  unfold Dev.partitionReset
  extract_lets s d0 d1 d2 best
  have cleared : Spares bootFields d d1 :=
    .wrWords 3 rfl (by decide) (.wr (by decide) (.wr (by decide) (.wr (by decide) (.wr (by decide) (.setSafe h)))))
  have counted : Spares bootFields d d2 := .wr (by decide) (.ite (.wrWords 4 rfl (by decide) cleared) cleared)
  cases best with
  | some y => exact .showSet counted
  | none => exact .safeEnter (.showSet counted)

/-! ### Pins, memory and engines (R73, R208, R400) -/

theorem keepPins {old : Dev} {full : Bool} (h : Spares bootFields d x) : Spares bootFields d (x.keepPins old full) :=
  .foldl (fun y k hk => .wrF (off_of_block (b := 7) (by decide)
    (by have := List.mem_range.1 hk; unfold Reg.POS_ENC_STATUS; omega)) (.refl _ y)) (.ite h (.wrF (by decide) h))

theorem carryFaults {old : Dev} {full : Bool} (h : Spares bootFields d x) : Spares bootFields d (x.carryFaults old full) := by
  unfold Dev.carryFaults
  extract_lets d1
  have memory : Spares bootFields d d1 := by
    refine .foldl (fun y c hc => ?_) h
    have := List.mem_range.1 hc
    refine .foldl (fun z r _ => .ite (.event bootFields_off_event (.refl _ z)) (.refl _ z)) ?_
    exact .wrF (off_of_block (b := 9) (by decide) (by unfold Reg.MEMC_CH_REFRESH; omega)) (.wrBit (by decide) (.wrBit (by decide)
      (.wr (off_of_block (b := 9) (by decide) (by unfold Reg.MEMC_CH_STATUS; omega)) (.refl _ y))))
  refine .ite memory (.foldl (fun y n hn => ?_) memory)
  have := List.mem_range.1 hn
  have engine : Spares bootFields y (y.wr (Reg.RE_STATUS n) 0x1F) := .wr (fun f hf e => by
    have low : f.1 < 0x100000 ∨ 0x290000 ≤ f.1 := (by decide : ∀ f ∈ bootFields, f.1 < 0x100000 ∨ 0x290000 ≤ f.1) f hf
    unfold Reg.RE_STATUS at e
    omega) (.refl _ y)
  exact .ite (.ite (.wrF (by decide) engine) engine) (.refl _ y)

theorem stepDram (h : Spares bootFields d x) : Spares bootFields d (x.stepDram 0) := by
  have listed : Spares bootFields d { x with mem := { x.mem with sysList := bitsOf 4 (x.rd Reg.PLACE_CH_OK) } } := .setMem h
  exact .ite (.wrF_beside (by decide) (by decide) listed) listed

end Spares

/-! ### HOLD (R73, R85) -/

/-- The fields of `bootFields`, and STATE. -/
def holdFields : List Field := (Reg.SYS_STATUS, 0, 4) :: bootFields

theorem holdFields_off_log : ∀ f ∈ holdFields, ¬logReg f.1 := by
  unfold logReg
  decide

theorem Spares.stepHold (d : Dev) : Spares holdFields (d.wrF Reg.SYS_STATUS 0 4 1) d.stepHold := by
  have copies : Spares holdFields (d.wrF Reg.SYS_STATUS 0 4 1) (((d.wrF Reg.SYS_STATUS 0 4 1).wrF Reg.SYS_STATUS 4 3
      (b2n (d.cfg.copyA.isValid || d.cfg.copyB.isValid))).wrF Reg.SYS_STATUS 7 2 (b2n d.cfg.copyA.isBad + 2 * b2n d.cfg.copyB.isBad)) :=
    .wrF_beside (by decide) (by decide) (.wrF_beside (by decide) (by decide) (.refl _ _))
  have badCopy : ∀ {x : Dev} {c : Bool} {k : Nat}, Spares holdFields (d.wrF Reg.SYS_STATUS 0 4 1) x →
      Spares holdFields (d.wrF Reg.SYS_STATUS 0 4 1) (if c then x.append 0 .cfgCopyBad (vals [k]) else x) :=
    fun h => .ite (.append holdFields_off_log h) h
  exact .holdOutputs (by decide) (.setLocated (.takeHealth (badCopy (badCopy copies))))

theorem inHold_stepHold (d : Dev) : d.stepHold.inHold = true := by
  have state := (Spares.stepHold d).fields _ (List.mem_cons_self ..)
  simp [inHold, state, d.rdF_wrF_same Reg.SYS_STATUS 0 4 1 (by decide)]

/-- Step 8 writes STATE beside the fields of `bootFields`. -/
theorem Spares.boot_stepHold (d : Dev) : Spares bootFields d d.stepHold :=
  have held := Spares.stepHold d
  Spares.trans (.wrF_beside (by decide) (by decide) (.refl _ d)) ⟨held.lasting, fun f hf => held.fields f (List.mem_cons_of_mem _ hf)⟩

/-- Steps 6 to 8 with a verified image and self-tests that pass end in HOLD (R73, R503). -/
theorem stepsUp_none {d : Dev} (image : d.imgOk (d.rdF Reg.NVM_BOOT 0 1) = true) :
    Spares bootFields d (d.stepsUp none) ∧ (d.stepsUp none).inHold = true := by
  have run : ∃ e, Spares bootFields d e ∧ d.stepsUp none = e.stepHold := by
    unfold stepsUp
    extract_lets sel run
    by_cases failed : d.bit Reg.SYS_STATUS 11 = true
    · exact ⟨d, .refl _ d, if_pos failed⟩
    · rw [if_neg failed, if_pos image]
      exact ⟨_, .wrF (by decide) (.wr (by decide) (.wrF_beside (by decide) (by decide) (.refl _ d))), rfl⟩
  obtain ⟨e, before, eq⟩ := run
  exact eq ▸ ⟨before.trans (Spares.boot_stepHold e), e.inHold_stepHold⟩

/-! ## A reset and the start-up that follows (R70-R73) -/

/-- The module of which a reset wipes the planes: in a warm reset the servo goes into holdover (R71, R382). -/
def resetSource (d : Dev) (full : Bool) : Dev := (if full then d else d.toHoldover false).wakeRelease

/-- The module that starts up: the straps latched, the cause shown, the feature set unlocked (R47, R70, R73). -/
def startsUp (w : Dev) (cause : Nat) (up : StartUp) : Dev :=
  let pins : Dev := { w with pwr := { w.pwr with straps := up.straps.toNat } }
  let d1 := (pins.wr Reg.SYS_STRAPS up.straps.toNat).wr Reg.SYS_LAST_RESET cause
  (((d1.wrF Reg.TIME_STATUS 5 1 0).wrF Reg.TIME_STATUS 8 3 1).wrBit Reg.CLK_STATUS 0 (bitOf up.straps.toNat 5)).wr Reg.SYS_STATUS 0

theorem restart_of_good (d : Dev) (full : Bool) (cause : Nat) {up : StartUp} (good : goodStart up) :
    d.restart full cause up =
      ((((((((((d.resetSource full).wiped full).startsUp cause up).wrBit Reg.HLTH_STATUS 8 false).partitionReset full).clkReq
        true).keepPins d full).carryFaults d full).stepDram 0).stepsUp none) := by
  obtain ⟨pll, bad, tests, also⟩ := good
  unfold restart resetSource startsUp
  simp only [pll, bad, tests, also, Bool.or_false]
  rfl

/-- What the start of a start-up shows: the cause and the straps, of the NVM and the link what the reset has kept, and no lock. -/
theorem startsUp_shows (w : Dev) {cause : Nat} (up : StartUp) (h : cause < 8) :
    let e := w.startsUp cause up
    e.lasting = w.lasting ∧ e.rd Reg.SYS_LAST_RESET = cause ∧ e.rd Reg.SYS_STRAPS = up.straps.toNat ∧
      e.rdF Reg.NVM_BOOT 0 1 = w.rdF Reg.NVM_BOOT 0 1 ∧ e.rd Reg.HOSTQ_FLR_COUNT = w.rd Reg.HOSTQ_FLR_COUNT ∧
      e.featLocked = false := by
  let pins : Dev := { w with pwr := { w.pwr with straps := up.straps.toNat } }
  let d1 := (pins.wr Reg.SYS_STRAPS up.straps.toNat).wr Reg.SYS_LAST_RESET cause
  have kept : Spares [(Reg.NVM_BOOT, 0, 1), (Reg.HOSTQ_FLR_COUNT, 0, 32)] w (w.startsUp cause up) :=
    .wr (by decide) (.wrBit (by decide) (.wrF (by decide) (.wrF (by decide) (.wr (by decide) (.wr (by decide) (.setPwr (.refl _ w)))))))
  have shown : Spares [(Reg.SYS_LAST_RESET, 0, 32), (Reg.SYS_STRAPS, 0, 32)] d1 (w.startsUp cause up) :=
    .wr (by decide) (.wrBit (by decide) (.wrF (by decide) (.wrF (by decide) (.refl _ d1))))
  have cause_eq : d1.rd Reg.SYS_LAST_RESET = cause := (Dev.rd_wr_same _ _ _).trans (Nat.mod_eq_of_lt (by omega))
  have straps_eq : d1.rd Reg.SYS_STRAPS = up.straps.toNat :=
    (Dev.rd_wr_ne _ _ (by decide)).trans ((Dev.rd_wr_same _ _ _).trans (Nat.mod_eq_of_lt (by omega)))
  have status : (w.startsUp cause up).rd Reg.SYS_STATUS = 0 := Dev.rd_wr_same _ _ _
  exact ⟨kept.lasting, (shown.rd (by decide)).trans cause_eq, (shown.rd (by decide)).trans straps_eq,
    kept.fields (Reg.NVM_BOOT, 0, 1) (by decide), kept.rd (by decide), by simp [featLocked, bit, status, bitOf, fld]⟩

theorem imgOk_congr {d d' : Dev} (h : d'.hlth.imgs = d.hlth.imgs) (k : Nat) : d'.imgOk k = d.imgOk k := by
  simp only [imgOk, img, h]

theorem featLocked_eq_of_spares {d d' : Dev} (h : Spares bootFields d d') : d'.featLocked = d.featLocked :=
  congrArg (· == 1) (h.fields (Reg.SYS_STATUS, 9, 1) (by decide))

/-- A reset and a start-up in which nothing fails end in HOLD as after a reset, with what the reset has kept. -/
theorem restart_fresh (d : Dev) (full : Bool) {cause : Nat} {up : StartUp} (good : goodStart up) (h : cause < 8)
    (image : (d.resetSource full).imageGood) :
    let w := (d.resetSource full).wiped full
    let d' := d.restart full cause up
    d'.FreshHold cause up ∧ d'.lasting = w.lasting ∧ d'.rd Reg.HOSTQ_FLR_COUNT = w.rd Reg.HOSTQ_FLR_COUNT := by
  intro w d'
  obtain ⟨wf, verified⟩ := image
  obtain ⟨lasting, why, straps, boot, flr, unlocked⟩ := w.startsUp_shows up h
  let e := w.startsUp cause up
  let b := (((((e.wrBit Reg.HLTH_STATUS 8 false).partitionReset full).clkReq true).keepPins d full).carryFaults d full).stepDram 0
  have toImage : Spares bootFields e b :=
    .stepDram (.carryFaults (.keepPins (.clkReq (.partitionReset (.wrBit (by decide) (.refl _ e))))))
  have runs : b.imgOk (b.rdF Reg.NVM_BOOT 0 1) = true := by
    obtain ⟨-, -, -, -, -, -, imgs⟩ := of_lasting_eq (toImage.lasting.trans lasting)
    have selected : w.rdF Reg.NVM_BOOT 0 1 = (d.resetSource full).rdF Reg.NVM_BOOT 0 1 :=
      congrArg (fld · 0 1) (rd_wiped wf (by cases full <;> decide))
    have kept : w.hlth.imgs = (d.resetSource full).hlth.imgs := by cases full <;> rfl
    rw [imgOk_congr (imgs.trans kept), toImage.fields (Reg.NVM_BOOT, 0, 1) (by decide), boot, selected]
    exact verified
  obtain ⟨last, held⟩ := stepsUp_none runs
  have eq : d' = b.stepsUp none := d.restart_of_good full cause good
  have all : Spares bootFields e d' := eq ▸ toImage.trans last
  obtain ⟨-, host, job, force, session, -, -⟩ := of_lasting_eq (all.lasting.trans lasting)
  exact ⟨{ hold := eq ▸ held
           why := (all.rd (by decide)).trans why
           straps := (all.rd (by decide)).trans straps
           jobs := job
           queues := ⟨congrArg HostSt.qs host, congrArg HostSt.outs host⟩
           session := session
           rwh := congrArg Image.regs force
           unlocked := (featLocked_eq_of_spares all).trans unlocked },
    all.lasting.trans lasting, (all.rd (by decide)).trans flr⟩

/-! ## The sources of resets (R65, R70, R71, R458) -/

/-- A full reset starts up with the time counter at 0 (R373). -/
theorem fullRestart_fresh (d : Dev) {cause : Nat} {up : StartUp} (good : goodStart up) (h : cause < 8)
    (image : d.unpower.j2Quiet.wakeRelease.imageGood) :
    (d.fullRestart cause up).FreshHold cause up ∧ (d.fullRestart cause up).tc = 0 := by
  obtain ⟨fresh, lasting, -⟩ := d.unpower.j2Quiet.restart_fresh true good h image
  exact ⟨fresh, (of_lasting_eq lasting).1⟩

/-- A warm reset keeps the time counter, the count of host link resets, the log in MRAM and what the host holds (R71). -/
theorem warmRestart_fresh (d : Dev) {cause : Nat} {up : StartUp} (good : goodStart up) (h : cause < 8)
    (image : ((((d.enterHold true id).flushLog.unpower).toHoldover false).wakeRelease).imageGood) :
    let w := (d.enterHold true id).flushLog.unpower
    let d' := d.warmRestart cause up
    d'.FreshHold cause up ∧ d'.tc = w.tc ∧ d'.rd Reg.HOSTQ_FLR_COUNT = w.rd Reg.HOSTQ_FLR_COUNT ∧ d'.log.ring = w.log.ring ∧
      d'.host.hostMem = w.host.hostMem := by
  intro w d'
  obtain ⟨fresh, lasting, flr⟩ := w.restart_fresh false good h image
  have source : Spares bootFields w (w.resetSource false) := .wakeRelease (.toHoldover (.refl _ w))
  obtain ⟨tc, host, -, -, -, ring, -⟩ := of_lasting_eq lasting
  obtain ⟨tc', host', -, -, -, ring', -⟩ := of_lasting_eq source.lasting
  have hostMem : d'.host.hostMem = (w.resetSource false).host.hostMem := (congrArg HostSt.hostMem host).trans rfl
  exact ⟨fresh, tc.trans tc', (flr.trans (rd_wiped image.1 (by decide))).trans (source.rd (by decide)), ring.trans ring',
    hostMem.trans (congrArg HostSt.hostMem host')⟩

end Dev

/-- PRESENT settled after a forced removal is a full reset, after which J2 and ROLE are enabled (R63, R65). -/
theorem Dev.j2On_fresh {d : Dev} {cause : Nat} {up : StartUp} (h : d.FreshHold cause up ∧ d.tc = 0) :
    d.j2On.FreshHold cause up ∧ d.j2On.tc = 0 ∧ d.j2On.pwr.j2 = true := by
  obtain ⟨⟨hold, why, straps, jobs, queues, session, rwh, unlocked⟩, tc⟩ := h
  unfold Dev.j2On
  dsimp only
  split <;> exact ⟨⟨hold, why, straps, jobs, queues, session, rwh, unlocked⟩, tc, rfl⟩

/-- After another fault, or more than ten minutes after the last request, the partition asks for its reset (R458). -/
theorem Dev.opSafetyReset_of_asks {d : Dev} (up : StartUp) (safe : d.bit Reg.SAFE_STATUS 3 = true) (first : d.safe.asked = false)
    (late : ∀ b t, d.safe.lastReset = some (b, t) → b ≠ d.safe.safeBit ∨ t + 240000000000 < d.tc) :
    d.opSafetyReset up =
      ({ d with safe := { d.safe with asked := true, lastReset := some (d.safe.safeBit, d.tc) } } : Dev).warmRestart 6 up := by
  refine (if_neg (by simp [safe, first])).trans (if_neg ?_)
  cases last : d.safe.lastReset with
  | none => simp
  | some x =>
    have := late x.1 x.2 last
    simp only [Bool.and_eq_true, beq_iff_eq, decide_eq_true_eq, not_and, Nat.not_le]
    exact fun same => this.resolve_left (not_not_intro same)

/-! ## The obligation -/

/-- Settles O12: each row is a full or a warm reset of its own cause. -/
theorem resetsStartUpIntoHold : Obligations.ResetsStartUpIntoHold := by
  unfold Obligations.ResetsStartUpIntoHold
  refine ⟨fun s up good => ⟨fun image => ?powerOn, fun image failing => ?mainsBack, fun runs image fault => ?clock,
    fun image ejected mains => ?eject, fun image removed closed mains => ?present⟩,
    fun s up good => ⟨fun image mains on => ?perst, fun runs image => ?register, fun runs image safe first late => ?safety⟩⟩
  case powerOn => exact ⟨_, rfl, Dev.fullRestart_fresh _ good (by decide) image⟩
  case mainsBack => exact ⟨_, Does.of_always rfl (if_pos failing), Dev.fullRestart_fresh _ good (by decide) image⟩
  case clock => exact ⟨_, Does.of_withDev runs rfl (if_pos fault), Dev.fullRestart_fresh _ good (by decide) image⟩
  case eject =>
    have opens : s.dev.opEjectClose up = _ := (if_neg (by simp [ejected])).trans (if_neg (by simp [mains]))
    exact ⟨_, Does.of_always rfl opens, Dev.fullRestart_fresh _ good (by decide) image⟩
  case present =>
    have settles : s.dev.opPresent up = _ := (if_neg (by simp [mains, closed])).trans (if_pos removed)
    exact ⟨_, Does.of_always rfl settles, Dev.j2On_fresh (Dev.fullRestart_fresh _ good (by decide) image)⟩
  case perst =>
    exact ⟨_, Does.of_always rfl (if_neg (by simp [mains, on])), Dev.warmRestart_fresh _ good (by decide) image⟩
  case register => exact ⟨_, Does.of_withDev runs rfl rfl, Dev.warmRestart_fresh _ good (by decide) image⟩
  case safety =>
    exact ⟨_, Does.of_withDev runs rfl (s.dev.opSafetyReset_of_asks up safe first late),
      Dev.warmRestart_fresh _ good (by decide) image⟩

end Sys2Proof.Machine
end

section
/-!
PROOFS. The end of the J2 transmitters (R43, R64, R66): whatever the owners of the lanes do when their lanes stop, the block of power and
presence stays as it was. One lemma per operation, to be read from the last step back to the first.
-/

namespace Sys2Proof.Machine

/-- The block of power and presence is `p`. -/
def Dev.HasPwr (p : PwrSt) (d : Dev) : Prop := d.pwr = p

namespace Dev.HasPwr

variable {p : PwrSt} {d : Dev}

/-! ## Cases and folds -/

theorem ite {x : Dev} {c : Prop} [Decidable c] (hd : HasPwr p d) (hx : HasPwr p x) : HasPwr p (if c then d else x) := by
  split
  · exact hd
  · exact hx

theorem foldl {α : Type} {f : Dev → α → Dev} {l : List α} (step : ∀ (x : Dev) (a : α), HasPwr p x → HasPwr p (f x a))
    (h : HasPwr p d) : HasPwr p (l.foldl f d) := by
  induction l generalizing d with
  | nil => exact h
  | cons a l ih => exact ih (step d a h)

/-! ## Registers and what is sent -/

theorem wr {a v : Nat} (h : HasPwr p d) : HasPwr p (d.wr a v) := (d.wr_pwr a v).trans h

theorem wrF {a lo n v : Nat} (h : HasPwr p d) : HasPwr p (d.wrF a lo n v) := (d.wrF_pwr a lo n v).trans h

theorem wrBit {a i : Nat} {b : Bool} (h : HasPwr p d) : HasPwr p (d.wrBit a i b) := (d.wrBit_pwr a i b).trans h

theorem wr64 {a v : Nat} (h : HasPwr p d) : HasPwr p (d.wr64 a v) := (d.wr64_pwr a v).trans h

theorem wrS {a : Nat} {v : Int} (h : HasPwr p d) : HasPwr p (d.wrS a v) := (d.wrS_pwr a v).trans h

theorem wrWords {a : Nat} {ws : List Nat} (h : HasPwr p d) : HasPwr p (d.wrWords a ws) := (d.wrWords_pwr a ws).trans h

theorem bump {a : Nat} (h : HasPwr p d) : HasPwr p (d.bump a) := (d.bump_pwr a).trans h

theorem publish {a : Nat} (h : HasPwr p d) : HasPwr p (d.publish a) := (d.publish_pwr a).trans h

theorem send {t : Tx} (h : HasPwr p d) : HasPwr p (d.send t) := h

/-! ## What no register shows -/

theorem setJob {y : JobSt} (h : HasPwr p d) : HasPwr p { d with job := y } := h

theorem modJob {id : Nat} {f : Job → Job} (h : HasPwr p d) : HasPwr p (d.modJob id f) := h

theorem setRast {y : RastSt} (h : HasPwr p d) : HasPwr p { d with rast := y } := h

theorem setLace {y : NMap LaceSt} (h : HasPwr p d) : HasPwr p { d with lace := y } := h

theorem setPair {y : PairSt} (h : HasPwr p d) : HasPwr p { d with pair := y } := h

theorem setPos {y : PosSt} (h : HasPwr p d) : HasPwr p { d with pos := y } := h

theorem setCam {y : NMap CamSt} (h : HasPwr p d) : HasPwr p { d with cam := y } := h

theorem setVisUse {y : List (Nat × Nat × Nat)} (h : HasPwr p d) : HasPwr p { d with visUse := y } := h

theorem setLoop {y : LoopSt} (h : HasPwr p d) : HasPwr p { d with loop := y } := h

theorem setTime {y : TimeSt} (h : HasPwr p d) : HasPwr p { d with time := y } := h

theorem setNet {y : NMap NetPort} (h : HasPwr p d) : HasPwr p { d with net := y } := h

theorem setLane {y : LaneBlk} (h : HasPwr p d) : HasPwr p { d with lane := y } := h

theorem setFreeCtr {n : Nat} (h : HasPwr p d) : HasPwr p { d with freeCtr := n } := h

/-! ## The log, completion and the partner -/

theorem append {origin : Nat} {ev : Ev} {bs : List Byte} (h : HasPwr p d) : HasPwr p (d.append origin ev bs) := by
  obtain ⟨⟨_, _, _, _, _, e⟩, -⟩ := d.append_touches origin ev bs
  exact e ▸ h

theorem event {origin : Nat} {ev : Ev} {bs : List Byte} (h : HasPwr p d) : HasPwr p (d.event origin ev bs) := by
  obtain ⟨⟨_, _, _, _, _, e⟩, -⟩ := d.event_touches origin ev bs
  exact e ▸ h

theorem complete {o : Out} {status result : Nat} {data : List Byte} (h : HasPwr p d) : HasPwr p (d.complete o status result data) := by
  obtain ⟨⟨_, _, _, _, _, _, e⟩, -⟩ := d.complete_completes o status result data
  exact e ▸ h

theorem completeWhere {q : Out → Bool} {status : Nat} {result : Out → Nat} (h : HasPwr p d) :
    HasPwr p (d.completeWhere q status result) := by
  unfold Dev.completeWhere
  exact .foldl (fun _ _ => .complete) h

theorem shank {kind : Nat} {body : List Byte} (h : HasPwr p d) : HasPwr p (d.shank kind body) := by
  obtain ⟨_, _, e⟩ := d.shank_frame kind body
  exact e ▸ h

/-! ## Roles and outputs -/

theorem outputs (h : HasPwr p d) : HasPwr p d.outputs := by
  have cmp : ∀ {x : Dev}, HasPwr p x → HasPwr p x.cmpDrive :=
    .foldl fun _ _ hx => .ite (.ite (.send (.wrBit hx)) (.wrBit hx)) (.send (.wrBit hx))
  have emu : ∀ {x : Dev}, HasPwr p x → HasPwr p x.emuDrive :=
    .foldl fun _ _ hx => .ite (.ite (.send (.wrBit hx)) (.wrBit hx)) (.send (.wrBit hx))
  have ssi : ∀ {x : Dev}, HasPwr p x → HasPwr p x.ssiDrive := .foldl fun _ _ hx => .send (.wrBit (.wrBit hx))
  have pps : ∀ {x : Dev}, HasPwr p x → HasPwr p x.ppsDrive := fun {x} hx => by
    unfold Dev.ppsDrive
    exact .ite (.send hx) (.send (.setTime hx))
  exact .send (pps (ssi (emu (cmp h))))

theorem release (h : HasPwr p d) : HasPwr p d.release := by
  unfold Dev.release
  exact .ite (.outputs (.send (.wrBit h))) h

theorem setRole {role step cause : Nat} (h : HasPwr p d) : HasPwr p (d.setRole role step cause) := by
  have align : ∀ {x : Dev}, HasPwr p x → HasPwr p x.emuAlign := .foldl fun _ _ hx => .wrBit (.wrS (.setPos hx))
  have away : HasPwr p d.camsAway := .wrF (.setCam h)
  unfold Dev.setRole
  exact .wr64 (.setPair (.wrF (.wrF (.wrF (.ite (align away) h)))))

theorem resign {cause step : Nat} (h : HasPwr p d) : HasPwr p (d.resign cause step) := by
  unfold Dev.resign
  exact .ite (.event (.setRole (.wrF (.shank (.release h))))) h

theorem outOfStep {cause : Nat} (h : HasPwr p d) : HasPwr p (d.outOfStep cause) := by
  have resync : ∀ {x : Dev}, HasPwr p x → HasPwr p x.startResync := fun hx => .shank (.wr64 (.wrF (.setPair hx)))
  have left {ev bs} : HasPwr p ((((d.wrF Reg.PAIR_STATUS 2 2 1).wrF Reg.PAIR_LAST_CAUSE 4 4 cause).wrBit Reg.PAIR_STATUS 10
    false).event 2 ev bs) := .event (.wrBit (.wrF (.wrF h)))
  unfold Dev.outOfStep
  exact .ite (.ite (resync left) left) h

theorem printFault {b line : Nat} (h : HasPwr p d) : HasPwr p (d.printFault b line) := by
  unfold Dev.printFault
  exact .ite (.resign (.setPair h)) (.ite (.outOfStep (.setPair h)) (.setPair h))

theorem decision {line b head dkind cause count : Nat} (h : HasPwr p d) : HasPwr p (d.decision line b head dkind cause count) := by
  unfold Dev.decision
  exact .ite (.shank h) h

/-! ## Lace ports (R286, R294, R295) -/

theorem barLost {b : Nat} {report : Bool} (h : HasPwr p d) : HasPwr p (d.barLost b report) := by
  unfold Dev.barLost
  exact .ite (.event (.setJob h)) (.setJob h)

theorem portLost {b : Nat} (h : HasPwr p d) : HasPwr p (d.portLost b) := by
  have lost : HasPwr p ((d.endSession b).setPortState b 0) := .wrF (.setRast (.setLace h))
  unfold Dev.portLost
  exact .ite (.printFault (.decision (.barLost lost))) (.decision (.barLost lost))

theorem resendKept {b lane : Nat} (h : HasPwr p d) : HasPwr p (d.resendKept b lane) := by
  unfold Dev.resendKept
  exact .foldl (fun _ _ hx => .bump (.setRast (.send (.setLace hx)))) (.setRast h)

theorem laceLaneDown {b k : Nat} (h : HasPwr p d) : HasPwr p (d.laceLaneDown b k) := by
  unfold Dev.laceLaneDown
  split
  · extract_lets used d1 d2 d3
    have down : HasPwr p d1 := .setJob (.wrBit (.wrBit h))
    have told : HasPwr p d2 := .event down
    exact .ite (.ite told (.ite (.portLost told) (.resendKept told))) (.ite (.ite down (.decision (.barLost down))) down)
  · exact h

/-! ## Cameras (R335, R350, R352, R369, R496) -/

theorem takeLine {c : Nat} (h : HasPwr p d) : HasPwr p (d.takeLine c) := by
  unfold Dev.takeLine
  extract_lets x
  split
  · extract_lets st cont prev flags arch d1
    have used : HasPwr p d1 := .setVisUse (.ite (.setFreeCtr h) h)
    split
    · exact .wr (.setCam used)
    · exact .wr (.setCam used)
  · exact h

theorem drainLines {c n : Nat} (h : HasPwr p d) : HasPwr p (Dev.drainLines c n d) := by
  induction n generalizing d with
  | zero => exact h
  | succ n ih => exact ih (.takeLine h)

theorem showRates (h : HasPwr p d) : HasPwr p d.showRates := by
  unfold Dev.showRates
  exact .wr (.wr (.foldl (fun _ _ hx => .wr (.wr (.wr hx))) h))

theorem enqueueCommit {c : CommitRec} (h : HasPwr p d) : HasPwr p (d.enqueueCommit c) := by
  unfold Dev.enqueueCommit
  extract_lets y src d1 d2
  have queued : HasPwr p d1 := .setJob h
  exact .ite (.showRates (.modJob (.modJob queued))) (.ite (.wrBit queued) queued)

theorem admitCommit {c : CommitRec} (h : HasPwr p d) : HasPwr p (d.admitCommit c).1 := by
  unfold Dev.admitCommit
  extract_lets c' crcBar d1
  have queued : HasPwr p d1 := .enqueueCommit h
  exact .ite (.shank queued) queued

theorem postOwn {c : CommitRec} (h : HasPwr p d) : HasPwr p (d.postOwn c).1 := by
  unfold Dev.postOwn
  split
  · dsimp only
    exact .append h
  · exact .admitCommit h

theorem awlMap {b h : Nat} {rs : List Nat} (hd : HasPwr p d) : HasPwr p (d.awlMap b h rs) := by
  unfold Dev.awlMap
  extract_lets k old cnts new sts deferred loop d1 m d2 changed
  have putOff : HasPwr p deferred := .event hd
  have noted : HasPwr p d1 := .setLoop hd
  refine .ite putOff (.ite noted ?_)
  split
  · exact putOff
  · extract_lets r
    have posted : HasPwr p r.1 := .postOwn (.setRast (.setRast (.ite (.shank noted) noted)))
    exact .ite (.event posted) putOff

theorem awlDone {r : Region} {a : RegAcc} {usable : Bool} (h : HasPwr p d) : HasPwr p (d.awlDone r a usable) := by
  have shown {rs} : HasPwr p (d.showAwl r.bar r.head rs) := .publish (.wrF (.wrF (.wrWords (.wrBit h))))
  unfold Dev.awlDone
  exact .ite (.awlMap shown) shown

theorem loopFirstFrame {c job : Nat} {pos : Option Rat} (h : HasPwr p d) : HasPwr p (d.loopFirstFrame c job pos) := by
  unfold Dev.loopFirstFrame
  split
  · exact h
  · extract_lets d1 line s s' src loop' d2 d3 d4
    have settled : HasPwr p d3 := .foldl (fun _ _ hx => .wr64 hx) (.setLoop (.wrBit h))
    exact .event (.ite (.wrBit settled) settled)

theorem camCalFrame {c : Nat} {f : FrameSt} {good : Bool} (h : HasPwr p d) : HasPwr p (d.camCalFrame c f good) := by
  have done : ∀ {x : Dev} {cal unit fig : Nat}, HasPwr p x → HasPwr p (x.calDone cal unit fig) := fun hx =>
    .completeWhere (.publish (.wrF (.wrF (.event (.wr (.wrBit hx))))))
  have ends : ∀ {x : CamCal}, HasPwr p (d.camCalEnd c x) := fun {x} => done (.setFreeCtr (.wrF (.wrBit (.setCam h))))
  unfold Dev.camCalFrame
  extract_lets s
  split
  · exact h
  · exact .ite (.ite ends (.setCam h)) h

theorem closeFrame {c : Nat} {linkLost : Bool} (h : HasPwr p d) : HasPwr p (d.closeFrame c linkLost) := by
  have drained : HasPwr p (Dev.drainLines c (d.cs c).queue.length d) := .drainLines h
  have bumpIf : ∀ {x : Dev} {b : Bool} {a : Nat}, HasPwr p x → HasPwr p (x.bumpIf b a) := fun hx => .ite (.bump hx) hx
  unfold Dev.closeFrame
  extract_lets e x trigs
  split
  · exact drained
  · extract_lets gLast f skipped fl usable flags st job posTime bins ents crc head ring slots x1 d1 d2 d3 d4 d5 d6
    have recorded : HasPwr p d2 := .event (.setCam (.ite (.setFreeCtr drained) drained))
    have counted : HasPwr p d4 := .wr (bumpIf (bumpIf (.wr64 (bumpIf (.bump recorded)))))
    have resumed : HasPwr p d5 := .ite (.loopFirstFrame counted) counted
    refine .camCalFrame (.foldl (fun y i hy => ?_) resumed)
    dsimp only
    split
    · exact .ite (.awlDone hy) hy
    · exact hy

theorem camDown {c : Nat} (h : HasPwr p d) : HasPwr p (d.camDown c) := by
  have stopped : HasPwr p (d.stopAcq c true) := .setCam (.wrBit (.closeFrame h))
  exact .event (.wrBit (.ite stopped h))

/-! ## Lanes (R43, R312) -/

theorem opNetDown {n : Nat} (h : HasPwr p d) : HasPwr p (d.opNetDown n) := by
  have down {x} : HasPwr p ((d.wrBit (Reg.NET_PORT_STATUS n) 0 false).setNp n x) := .wrF (.setNet (.wrBit h))
  unfold Dev.opNetDown
  exact .ite (.event (.ite (.wrF down) down)) h

theorem ownerDown {l : Nat} (h : HasPwr p d) : HasPwr p (d.ownerDown l) := by
  unfold Dev.ownerDown
  extract_lets had d1 c
  exact .ite h (.ite (.laceLaneDown h) (.ite (.ite (.event (.wrBit h)) (.wrBit h)) (.ite (.ite (.camDown h) h) (.opNetDown h))))

theorem laneStop {l : Nat} (h : HasPwr p d) : HasPwr p (d.laneStop l) := by
  unfold Dev.laneStop
  extract_lets d1 hit d2
  have stopped : HasPwr p d1 := .wrF (.wrF (.wrBit (.wrBit h)))
  exact .ite (.ownerDown (.ite (.setLane stopped) stopped)) h

end Dev.HasPwr

/-- The J2 transmitters are idle once they have gone quiet (R64). -/
theorem Dev.j2Quiet_j2 (d : Dev) : d.j2Quiet.pwr.j2 = false := by
  have quiet : HasPwr { d.pwr with j2 := false } d.j2Quiet := .foldl (fun _ _ h => .laneStop h) rfl
  exact congrArg PwrSt.j2 quiet

end Sys2Proof.Machine
end

section
/-!
PROOFS. What acts on the module from outside: mains, the ejector and the PRESENT pins, straps, the reference, and the restart of a plane
(R24, R43, R47, R63-R66, R69, R95, R114, R371, R382).
-/

namespace Sys2Proof.Machine

namespace Dev

/-! ## The end of the log, the outputs and the lanes (R43, R53, R64) -/

theorem flushLog_staging (d : Dev) : d.flushLog.log.staging = [] := by
  unfold flushLog
  split
  case isTrue empty => exact List.isEmpty_iff.1 empty
  case isFalse =>
    dsimp only
    split
    · rw [wr64_log]
    · rfl

/-- The commands of the two FIRE_PERMIT outputs (R447). -/
def permitFields : List Field := [(Reg.SAFE_STATUS, 0, 1), (Reg.SAFE_STATUS, 1, 1)]

theorem permitsOff_of_spares {d d' : Dev} (h : Spares permitFields d d') (off : d.permitsOff) : d'.permitsOff :=
  ⟨(congrArg (· == 1) (h.fields (Reg.SAFE_STATUS, 0, 1) (by decide))).trans off.1,
    (congrArg (· == 1) (h.fields (Reg.SAFE_STATUS, 1, 1) (by decide))).trans off.2⟩

theorem permitsOff_setPermit (d : Dev) : (d.setPermit false).permitsOff := by
  unfold setPermit
  split
  case isTrue off => simpa [permitsOff] using off
  case isFalse =>
    have both : (d.wrF Reg.SAFE_STATUS 0 2 0).rdF Reg.SAFE_STATUS 0 2 = 0 := d.rdF_wrF_same Reg.SAFE_STATUS 0 2 0 (by decide)
    have each : ∀ w, fld w 0 2 = 0 → bitOf w 0 = false ∧ bitOf w 1 = false := fun w h => by
      simp only [fld, bitOf, beq_eq_false_iff_ne] at h ⊢
      omega
    exact each _ both

/-- No output that takes its unpowered state commands a fire permit on (R53). -/
theorem permitsOff_unpower (d : Dev) : d.unpower.permitsOff := by
  refine permitsOff_of_spares ?_ d.permitsOff_setPermit
  have block : ∀ {a : Nat}, a / 0x10000 = 7 → ∀ f ∈ permitFields, f.1 ≠ a := Spares.off_of_block (by decide)
  refine .clkReq (.sources (.send (.send (.setTime (.foldl (fun x e he => ?_) (.foldl (fun x k hk => ?_)
    (.release (by decide) (by decide) (.refl _ _))))))))
  · have := List.mem_range.1 he
    exact .send (.send (.wrF (block (by unfold Reg.POS_SSI_STATUS; omega)) (.wrBit (block (by unfold Reg.POS_EMU_STATUS; omega))
      (.refl _ x))))
  · have := List.mem_range.1 hk
    exact .send (.wrBit (block (by unfold Reg.POS_CMP_STATUS; omega)) (.refl _ x))

theorem wakeRelease_j2 (d : Dev) : d.wakeRelease.pwr.j2 = d.pwr.j2 := by
  unfold wakeRelease
  split <;> rfl

theorem append_pwr (d : Dev) (origin : Nat) (ev : Ev) (p : List Byte) : (d.append origin ev p).pwr = d.pwr := HasPwr.append rfl

theorem j2On_regs (d : Dev) : d.j2On.regs = d.regs := by
  unfold j2On
  dsimp only
  split <;> rfl

theorem j2On_j2 (d : Dev) : d.j2On.pwr.j2 = true := by
  unfold j2On
  dsimp only
  split <;> rfl

/-! ## Straps (R47) -/

/-- The latched straps stay below STRAP_CHANGED. -/
theorem straps_append_wrBit (d : Dev) (changed : Bool) (origin : Nat) (ev : Ev) (p : List Byte) :
    ((d.wrBit Reg.SYS_STRAPS 7 changed).append origin ev p).rdF Reg.SYS_STRAPS 0 7 = d.rdF Reg.SYS_STRAPS 0 7 :=
  (congrArg (fld · 0 7) ((append_touches _ _ _ _).2 _ (by unfold logReg; decide))).trans
    (d.rdF_wrF_other Reg.SYS_STRAPS 7 1 _ (by decide) (by decide))

/-! ## The reference (R69) -/

/-- What a reference fault shows: REF_FAULT and HOLDOVER with the deviation, counted. -/
def refFaultShown (d : Dev) (deviation : Int) : Dev :=
  (((d.wrBit Reg.CLK_STATUS 3 true).wrBit Reg.CLK_STATUS 4 true).wrS Reg.CLK_ROOT_DEV deviation).bump Reg.CLK_FAULT_COUNT

theorem refFaultShown_reads (d : Dev) (deviation : Int) :
    (d.refFaultShown deviation).refFault = true ∧ (d.refFaultShown deviation).rdS Reg.CLK_ROOT_DEV = sgn 32 (uns 32 deviation) ∧
      (d.refFaultShown deviation).rd Reg.CLK_FAULT_COUNT = min (d.rd Reg.CLK_FAULT_COUNT + 1) 0xFFFFFFFF := by
  have status : Spares [(Reg.CLK_STATUS, 3, 1)] (d.wrBit Reg.CLK_STATUS 3 true) (d.refFaultShown deviation) :=
    .bump (by decide) (.wr (by decide) (.wrF_beside (by decide) (by decide) (.refl _ _)))
  have root : (d.refFaultShown deviation).rd Reg.CLK_ROOT_DEV = uns 32 deviation := by
    unfold refFaultShown wrS
    rw [rd_bump_ne _ (by decide), rd_wr_same]
    unfold uns
    omega
  refine ⟨?_, congrArg (sgn 32) root, ?_⟩
  · exact (congrArg (· == 1) (status.fields (Reg.CLK_STATUS, 3, 1) (by decide))).trans (d.bit_wrBit_same Reg.CLK_STATUS 3 true (by decide))
  · unfold refFaultShown wrS
    rw [rd_bump_same, rd_wr_ne _ _ (by decide), rd_wrBit_ne _ _ _ (by decide), rd_wrBit_ne _ _ _ (by decide)]

end Dev

/-! ## The obligation -/

/-- Settles O13: each row is its operation in the case named, and what it shows is read by the lemmas above. -/
theorem pinsPowerAndPlanesActOnTheModule : Obligations.PinsPowerAndPlanesActOnTheModule := by
  unfold Obligations.PinsPowerAndPlanesActOnTheModule
  have no : ∀ {b : Bool}, b = false → ¬b = true := fun h => (Bool.not_eq_true _).mpr h
  refine ⟨fun s mains => ?powerFail, fun s mains closed => ?ejectOpen, fun s mains => ⟨fun closed present => ?removal, ?misaligned,
    fun up closed present quiet => ?settled⟩, fun s straps mains => ?straps, fun s dev runs => ⟨fun shared => ?fault, fun own => ?ownRoot⟩,
    fun s runs => ⟨?control, ?data, fun still => ?management⟩⟩
  case powerFail =>
    exact ⟨Does.of_always rfl (if_neg (no mains)), by simp [Dev.halted], Dev.flushLog_staging _, Dev.permitsOff_unpower _,
      (Dev.wakeRelease_j2 _).trans (Dev.j2Quiet_j2 _)⟩
  case ejectOpen =>
    exact ⟨Does.of_always rfl ((if_neg (no closed)).trans (if_neg (no mains))), Dev.j2Quiet_j2 _, rfl⟩
  case removal =>
    exact ⟨Does.of_always rfl (if_neg (by simp [closed, present, mains])), congrArg PwrSt.removed (Dev.append_pwr _ _ _ _)⟩
  case misaligned =>
    exact ⟨Does.of_always rfl (if_neg (no mains)), (congrArg PwrSt.j2 (Dev.append_pwr _ _ _ _)).trans (Dev.j2Quiet_j2 _)⟩
  case settled =>
    have row : s.dev.opPresent up = s.dev.j2On :=
      (if_neg (by simp [mains, closed])).trans ((if_neg (no present)).trans (if_neg (no quiet)))
    exact ⟨_, Does.of_always rfl row, s.dev.j2On_j2, s.dev.j2On_regs⟩
  case straps =>
    refine ⟨Does.of_always rfl (if_neg (no mains)), Dev.straps_append_wrBit _ _ _ _ _, Dev.append_host _ _ _ _, ?_, ?_, Dev.append_tx _ _ _ _⟩
    · exact (Dev.append_cfg_job _ _ _ _).1
    · exact (Dev.append_cfg_job _ _ _ _).2
  case fault => exact ⟨Does.of_withDev runs rfl (if_neg (no shared)), s.dev.refFaultShown_reads dev⟩
  case ownRoot => exact Does.of_withDev runs rfl (if_pos own)
  case control => exact Does.of_withDev runs rfl rfl
  case data => exact Does.of_withDev runs rfl rfl
  case management =>
    refine Does.of_withDev runs rfl ?_
    simp [Dev.opPlaneRestart, still]

end Sys2Proof.Machine
end

section
/-!
PROOFS. Channel counts and indexes: quadrature steps and errors, disagreeing wires, a count that nothing follows, and the index against
the anchor (R56, R208, R210, R226-R229).
-/

namespace Sys2Proof.Machine

/-! ## Quadrature states (R208) -/

/-- The module once the quadrature state of channel k is `n`, at which no index has been latched yet (R208, R226). -/
def Dev.quadTo (d : Dev) (k n : Nat) : Dev :=
  (d.wrF (Reg.POS_ENC_STATUS k) 6 2 n).setEnc k { (d.wrF (Reg.POS_ENC_STATUS k) 6 2 n).encSt k with taken := false }

/-- The count of an encoder channel lies apart from its status. -/
theorem Dev.count_quadTo (d : Dev) (k : Fin 4) (n : Nat) : (d.quadTo k n).count k = d.count k := by
  have rd_eq : ∀ a, a ≠ Reg.POS_ENC_STATUS k → (d.quadTo k n).rd a = d.rd a := fun a ha => d.rd_wrF_ne 6 2 n ha
  have reg : countReg k = Reg.POS_ENC_COUNT_LO k := if_pos k.isLt
  unfold Dev.count Dev.rdS64
  rw [reg, Dev.rd64_congr (rd_eq _ _) (rd_eq _ _)] <;> simp only [Reg.POS_ENC_COUNT_LO, Reg.POS_ENC_STATUS] <;> omega

theorem Dev.opQuadCount_of_enabled (d : Dev) (k : Fin 4) (up : Bool) (on : d.chanEn k = true) :
    let c : Int := if up != d.cfB (Reg.POS_ENC_CFG k) 4 then d.count k + 1 else d.count k - 1
    d.opQuadCount k up =
      ((d.quadTo k (if up then d.rdF (Reg.POS_ENC_STATUS k) 6 2 + 1 else d.rdF (Reg.POS_ENC_STATUS k) 6 2 + 3)).countTo k c).trackWindow
        k (d.count k) c := by
  rw [← d.count_quadTo k (if up then d.rdF (Reg.POS_ENC_STATUS k) 6 2 + 1 else d.rdF (Reg.POS_ENC_STATUS k) 6 2 + 3)]
  exact if_pos on

theorem Dev.opQuadCount_of_disabled (d : Dev) (k : Nat) (up : Bool) (off : d.chanEn k = false) :
    d.opQuadCount k up =
      d.quadTo k (if up then d.rdF (Reg.POS_ENC_STATUS k) 6 2 + 1 else d.rdF (Reg.POS_ENC_STATUS k) 6 2 + 3) :=
  if_neg (Bool.not_eq_true _ ▸ off)

/-! ## Numbers -/

/-- A number that fits 64 bits is its two's complement. -/
theorem sgn_uns_64 {i : Int} (lo : -9223372036854775808 ≤ i) (hi : i < 9223372036854775808) : sgn 64 (uns 64 i) = i := by
  unfold sgn uns
  simp only [Nat.reducePow, Nat.reduceSub]
  split <;> omega

theorem Dev.rdS64_wrS64_same (d : Dev) (a : Nat) {v : Int} (lo : -9223372036854775808 ≤ v) (hi : v < 9223372036854775808) :
    (d.wrS64 a v).rdS64 a = v := by
  have cut : uns 64 v % 2 ^ 64 = uns 64 v := by unfold uns; omega
  unfold Dev.rdS64 Dev.wrS64
  rw [d.rd64_wr64_same, cut, sgn_uns_64 lo hi]

/-! ## A count that nothing follows (R232, R238) -/

/-- A fold of which no step acts on the start leaves it. -/
theorem foldl_eq_self {α β : Type} {f : β → α → β} {b : β} : ∀ {l : List α}, (∀ a ∈ l, f b a = b) → l.foldl f b = b
  | [], _ => rfl
  | a :: l, h => by
    rw [List.foldl_cons, h a (List.mem_cons_self ..)]
    exact foldl_eq_self fun x hx => h x (List.mem_cons_of_mem a hx)

theorem Dev.cmpCross_of_none_enabled (d : Dev) (ch : Nat) (p c : Int) (none : ∀ k : Fin 8, d.cmpEn k = false) :
    d.cmpCross ch p c = d :=
  foldl_eq_self fun k hk => by simp [none ⟨k, List.mem_range.1 hk⟩]

theorem Dev.emuDelta_of_none_enabled (d : Dev) (ch : Nat) (delta : Int) (none : ∀ e : Fin 2, d.emuEn e = false) :
    d.emuDelta ch delta = d :=
  foldl_eq_self fun e he => by simp [none ⟨e, List.mem_range.1 he⟩]

theorem Dev.countTo_of_unwatched {d : Dev} (ch : Nat) (c : Int) (noCmp : ∀ k : Fin 8, d.cmpEn k = false)
    (noEmu : ∀ e : Fin 2, d.emuEn e = false) : d.countTo ch c = d.wrS64 (countReg ch) c := by
  unfold Dev.countTo
  dsimp only
  rw [Dev.cmpCross_of_none_enabled (d.wrS64 (countReg ch) c) ch _ c noCmp,
    Dev.emuDelta_of_none_enabled (d.wrS64 (countReg ch) c) ch _ noEmu]

/-! ## Indexes (R226-R229) -/

/-- An index of channel k is taken: the channel, its index and its wire are good, and this visit of the qualifying quadrature state has
latched none (R226). -/
def Dev.indexGood (d : Dev) (k : Nat) : Prop :=
  d.chanEn k = true ∧ d.cfB (Reg.POS_ENC_CFG k) 9 = true ∧ d.bit (Reg.POS_ENC_STATUS k) 3 = false ∧
    d.rdF (Reg.POS_ENC_STATUS k) 6 2 = d.cfF (Reg.POS_ENC_CFG k) 7 2 ∧ (d.encSt k).taken = false

theorem Dev.indexGood_iff (d : Dev) (k : Nat) :
    (d.chanEn k && d.cfB (Reg.POS_ENC_CFG k) 9 && !d.bit (Reg.POS_ENC_STATUS k) 3 &&
      d.rdF (Reg.POS_ENC_STATUS k) 6 2 == d.cfF (Reg.POS_ENC_CFG k) 7 2 && !(d.encSt k).taken) = true ↔ d.indexGood k := by
  simp [Dev.indexGood, and_assoc]

theorem Dev.opIndex_of_not_good {d : Dev} {k : Nat} (h : ¬d.indexGood k) : d.opIndex k = d :=
  if_neg fun e => h ((d.indexGood_iff k).1 e)

/-- The module once the index of the present visit has been taken (R226). -/
def Dev.indexTaken (d : Dev) (k : Nat) : Dev := d.setEnc k { d.encSt k with taken := true }

/-- The count at the index and its drift are latched (R228). -/
def Dev.latchIndex (d : Dev) (k : Nat) (c drift : Int) : Dev :=
  (d.wrS64 (Reg.POS_ENC_IDX_LATCH_LO k) c).wrS (Reg.POS_ENC_IDX_DRIFT k) drift

/-- The window in which an index is accepted: the one the count is in, or that of the expected count (R229). -/
def acceptedWindow (e : Int) : Option (Int × Bool × Bool) → Int × Bool × Bool
  | some (e', below, _) => (e', below, true)
  | none => (e, true, true)

/-- An index that is taken: an armed re-zero first (R230), then the anchor (R227), then the expected counts (R228, R229). -/
theorem Dev.opIndex_of_good {d : Dev} {k : Nat} (good : d.indexGood k) :
    let c := d.count k
    let e := nearest (d.encSt k).anchor (d.cf (Reg.POS_ENC_IDX_INTERVAL k)) c
    let tol : Int := (d.cf (Reg.POS_ENC_IDX_TOL k) : Int)
    let d1 := d.indexTaken k
    d.opIndex k =
      if d1.bit (Reg.POS_ENC_STATUS k) 5 then d1.rezero k
      else if d1.bit (Reg.POS_ENC_STATUS k) 4 = false then
        ((d1.wrBit (Reg.POS_ENC_STATUS k) 4 true).setEnc k
          { d1.encSt k with anchor := c, window := some (c, true, true) }).latchIndex k c 0
      else if d.cf (Reg.POS_ENC_IDX_INTERVAL k) = 0 then d1.latchIndex k c 0
      else if c - e ≤ tol ∧ e - c ≤ tol then
        (d1.setEnc k { d1.encSt k with window := some (acceptedWindow e (d.encSt k).window) }).latchIndex k c (c - e)
      else
        ((d1.wr (Reg.POS_ENC_IDX_UNEXP k) (uns 32 c)).bump (Reg.POS_ENC_IDX_BAD_COUNT k)).event 1 .idxUnexpected
          (ivals [(k : Int), c, c - e]) := by
  unfold Dev.opIndex
  dsimp only [Dev.indexTaken, Dev.latchIndex]
  rw [if_pos ((d.indexGood_iff k).2 good)]
  congr 8
  cases (d.encSt k).window <;> rfl

/-- An index within the tolerance of an expected count is latched with its drift, and its window counts as met (R228, R229). -/
theorem Dev.opIndex_of_expected {d : Dev} {k : Nat} {w : Int × Bool × Bool} (good : d.indexGood k)
    (armed : (d.indexTaken k).bit (Reg.POS_ENC_STATUS k) 5 = false)
    (anchored : (d.indexTaken k).bit (Reg.POS_ENC_STATUS k) 4 = true) (interval : d.cf (Reg.POS_ENC_IDX_INTERVAL k) ≠ 0) :
    let c := d.count k
    let e := nearest (d.encSt k).anchor (d.cf (Reg.POS_ENC_IDX_INTERVAL k)) c
    let tol : Int := (d.cf (Reg.POS_ENC_IDX_TOL k) : Int)
    c - e ≤ tol → e - c ≤ tol → acceptedWindow e (d.encSt k).window = w →
    d.opIndex k = ((d.indexTaken k).setEnc k { (d.indexTaken k).encSt k with window := some w }).latchIndex k c (c - e) := by
  intro c e tol lo hi hw
  rw [← hw, Dev.opIndex_of_good good, if_neg (by simp [armed]), if_neg (by simp [anchored]), if_neg interval, if_pos ⟨lo, hi⟩]

theorem Dev.opIdxMissed_of_none {d : Dev} {k : Nat} (h : (d.encSt k).missed = []) : d.opIdxMissed k = d := by
  simp [Dev.opIdxMissed, h]

theorem Dev.opIdxMissed_of_some {d : Dev} {k : Nat} {e : Int} {rest : List Int} (h : (d.encSt k).missed = e :: rest) :
    d.opIdxMissed k = ((d.setEnc k { d.encSt k with missed := rest }).bump (Reg.POS_ENC_IDX_MISS_COUNT k)).event 1 .idxMissed
      (ivals [(k : Int), e]) := by
  simp [Dev.opIdxMissed, h]

/-! ## Wires (R56, R210) -/

section
variable (d : Dev) (k : Nat) {pair : Nat} (h : pair ≠ 3)
include h

theorem Dev.opWire_of_disabled (off : d.chanEn k = false) : d.opWire k pair = d.wrBit (Reg.POS_ENC_STATUS k) (1 + pair) true :=
  (if_neg h).trans (if_pos off)

/-- Of an enabled channel, wire-disagree on Z is reported and on A or B faults it (R210). -/
theorem Dev.opWire_of_enabled (on : d.chanEn k = true) :
    d.opWire k pair = if pair = 2 then (d.wrBit (Reg.POS_ENC_STATUS k) (1 + pair) true).event 1 .idxWire (vals [k])
      else (d.wrBit (Reg.POS_ENC_STATUS k) (1 + pair) true).encFault k (1 + pair) :=
  (if_neg h).trans (if_neg (by simp [on]))

end

/-! ## The obligation -/

/-- Settles O26: the rows by their equations, the unwatched count by its one write. -/
theorem countsAndIndexesAreTaken : Obligations.CountsAndIndexesAreTaken := by
  unfold Obligations.CountsAndIndexesAreTaken
  have no : ∀ {b : Bool}, b = false → ¬b = true := Bool.eq_false_iff.1
  have yes : ∀ {b : Bool}, b = true → ¬b = false := (Bool.not_eq_false _).mpr
  refine ⟨fun s k runs => ?channel, fun d ch c lo hi noCmp noEmu => ?unwatched, fun s k runs => ?index⟩
  case channel =>
    refine ⟨fun up => ⟨fun on => .of_withDev runs rfl (s.dev.opQuadCount_of_enabled k up on),
        fun off => .of_withDev runs rfl (s.dev.opQuadCount_of_disabled k up off)⟩,
      ⟨fun on => .of_withDev runs rfl (if_pos on), fun off => .of_withDev runs rfl (if_neg (no off))⟩,
      fun pair hp => ?_, .of_withDev runs rfl rfl, .of_withDev runs rfl rfl⟩
    have wire : (pair : Nat) ≠ 3 := Nat.ne_of_lt hp
    exact ⟨fun on => .of_withDev runs rfl (s.dev.opWire_of_enabled k wire on), fun off => .of_withDev runs rfl (s.dev.opWire_of_disabled k wire off),
      .of_withDev runs rfl (if_neg fun e => wire (congrArg Fin.val e))⟩
  case unwatched =>
    rw [Dev.countTo_of_unwatched ch c noCmp noEmu]
    exact ⟨d.rdS64_wrS64_same _ lo hi, fun a ha ha4 => d.rd_wr64_ne _ ha ha4, rfl, rfl⟩
  case index =>
    have taken := fun g => Dev.opIndex_of_good (d := s.dev) (k := k) g
    refine ⟨fun g a => .of_withDev runs rfl ((taken g).trans (if_pos a)),
      fun g a n => .of_withDev runs rfl ((taken g).trans ((if_neg (no a)).trans (if_pos n))),
      fun g a n i => .of_withDev runs rfl ((taken g).trans ((if_neg (no a)).trans ((if_neg (yes n)).trans (if_pos i)))),
      fun g a n i lo hi w => .of_withDev runs rfl (Dev.opIndex_of_expected g a n i lo hi (congrArg _ w)),
      fun e b x g a n i lo hi w => .of_withDev runs rfl (Dev.opIndex_of_expected g a n i lo hi (congrArg _ w)), fun g a n i out => ?_,
      fun g => .of_withDev runs rfl (Dev.opIndex_of_not_good g), fun m => .of_withDev runs rfl (Dev.opIdxMissed_of_none m),
      fun m rest h => .of_withDev runs rfl (Dev.opIdxMissed_of_some h)⟩
    exact .of_withDev runs rfl ((taken g).trans ((if_neg (no a)).trans ((if_neg (yes n)).trans ((if_neg i).trans (if_neg (by omega))))))

end Sys2Proof.Machine
end

section
/-!
PROOFS. What an admitted record changes, and what it, a lane that stops and a configuration that takes force leave alone: the time counter,
the configuration and its copies, the strips, the firing state, DRAM, the safety partition, power and health. One lemma per operation, to be
read from the last step back to the first (R34, R83, R312).
-/

namespace Sys2Proof.Machine

/-! ## An admitted record (R34, R38, R141) -/

/-- From `d` to `x` nothing but registers has changed. -/
def Dev.OnlyRegs (d x : Dev) : Prop := ∃ m, x = { d with regs := m }

theorem Dev.OnlyRegs.wr {d x : Dev} {a v : Nat} (h : d.OnlyRegs x) : d.OnlyRegs (x.wr a v) := by
  obtain ⟨m, rfl⟩ := h
  exact ⟨_, rfl⟩

/-- What is shown of the rates lies in registers. -/
theorem Dev.showRates_onlyRegs (d : Dev) : d.OnlyRegs d.showRates :=
  .wr (.wr (List.foldlRecOn (motive := d.OnlyRegs) _ _ ⟨d.regs, rfl⟩ fun _ h _ _ => .wr (.wr (.wr h))))

/-- A record that is admitted stands behind the pending ones with its bars, and uses up its sequence number; besides, only registers and the
jobs may change. -/
theorem Dev.enqueueCommit_frame (d : Dev) (c : CommitRec) : ∃ m js, d.enqueueCommit c = { d with regs := m, job := { d.job with
    jobs := js, commits := d.job.commits ++ [{ cp := c, bars := d.commitBars c }], commitSeq := c.seq } } := by
  unfold Dev.enqueueCommit
  extract_lets p _ queued named
  split
  · obtain ⟨m, e⟩ := (named.modJob c.arg fun j => if j.phase = .admitted then { j with phase := .scheduled } else j).showRates_onlyRegs
    exact ⟨m, _, e⟩
  · split
    · exact ⟨_, d.job.jobs, rfl⟩
    · exact ⟨d.regs, d.job.jobs, rfl⟩

/-- The same, with the copy to the STANDBY. -/
theorem Dev.admitCommit_frame (d : Dev) (c : CommitRec) : ∃ m js t y, (d.admitCommit c).1 = { d with
    regs := m, tx := t, pair := y, job := { d.job with
      jobs := js, commits := d.job.commits ++ [{ cp := d.fillCommit c, bars := d.commitBars (d.fillCommit c) }],
      commitSeq := (d.fillCommit c).seq } } := by
  obtain ⟨m, js, e⟩ := d.enqueueCommit_frame (d.fillCommit c)
  unfold Dev.admitCommit
  dsimp only
  split
  · obtain ⟨t, y, sent⟩ := (d.enqueueCommit (d.fillCommit c)).shank_frame 3 (commitBytes (d.fillCommit c) ++
      leBytes 4 (d.commitCrc (d.fillCommit c) ((d.commitBars (d.fillCommit c)).headD 0)) ++ leBytes 4 0)
    exact ⟨m, js, t, y, sent.trans (e ▸ rfl)⟩
  · exact ⟨m, js, d.tx, d.pair, e⟩

/-! ## The inner parts -/

/-- The parts of the module on which neither lanes, cameras and ports nor roles and commit points act. -/
def Dev.inner (d : Dev) : Nat × CfgSt × StripSt × FireSt × MemSt × SafeSt × PwrSt × HealthSt :=
  (d.tc, d.cfg, d.strip, d.fire, d.mem, d.safe, d.pwr, d.hlth)

/-- From `d` to `x` the inner parts of the module are as they were. -/
def Dev.KeepsInner (d x : Dev) : Prop := x.inner = d.inner

theorem Dev.KeepsInner.cfg {d x : Dev} (h : Dev.KeepsInner d x) : x.cfg = d.cfg := (Prod.ext_iff.1 (Prod.ext_iff.1 h).2).1

namespace Dev.KeepsInner

variable {d x : Dev}

/-! ## Cases and folds -/

theorem ite {y : Dev} {c : Prop} [Decidable c] (hx : KeepsInner d x) (hy : KeepsInner d y) : KeepsInner d (if c then x else y) := by
  split
  · exact hx
  · exact hy

theorem foldl {α : Type} {f : Dev → α → Dev} {l : List α} (step : ∀ {y a}, KeepsInner d y → KeepsInner d (f y a))
    (h : KeepsInner d x) : KeepsInner d (l.foldl f x) :=
  l.foldlRecOn f h fun _ hy _ _ => step hy

/-! ## Registers, and the parts that may change -/

theorem wr {a v : Nat} (h : KeepsInner d x) : KeepsInner d (x.wr a v) := h

theorem wrF {a lo n v : Nat} (h : KeepsInner d x) : KeepsInner d (x.wrF a lo n v) := .wr h

theorem wrBit {a i : Nat} {b : Bool} (h : KeepsInner d x) : KeepsInner d (x.wrBit a i b) := .wr h

theorem wrS {a : Nat} {v : Int} (h : KeepsInner d x) : KeepsInner d (x.wrS a v) := .wr h

theorem wr64 {a v : Nat} (h : KeepsInner d x) : KeepsInner d (x.wr64 a v) := .wr (.wr h)

theorem bump {a : Nat} (h : KeepsInner d x) : KeepsInner d (x.bump a) := .wr h

theorem publish {a : Nat} (h : KeepsInner d x) : KeepsInner d (x.publish a) := .wrBit (.wrF h)

theorem wrWords {a : Nat} {ws : List Nat} (h : KeepsInner d x) : KeepsInner d (x.wrWords a ws) := h

theorem send {t : Tx} (h : KeepsInner d x) : KeepsInner d (x.send t) := h

theorem setJob {y : JobSt} (h : KeepsInner d x) : KeepsInner d { x with job := y } := h

theorem setRast {y : RastSt} (h : KeepsInner d x) : KeepsInner d { x with rast := y } := h

theorem setLace {y : NMap LaceSt} (h : KeepsInner d x) : KeepsInner d { x with lace := y } := h

theorem setPair {y : PairSt} (h : KeepsInner d x) : KeepsInner d { x with pair := y } := h

theorem setPos {y : PosSt} (h : KeepsInner d x) : KeepsInner d { x with pos := y } := h

theorem setCam {y : NMap CamSt} (h : KeepsInner d x) : KeepsInner d { x with cam := y } := h

theorem setVisUse {y : List (Nat × Nat × Nat)} (h : KeepsInner d x) : KeepsInner d { x with visUse := y } := h

theorem setLoop {y : LoopSt} (h : KeepsInner d x) : KeepsInner d { x with loop := y } := h

theorem setTime {y : TimeSt} (h : KeepsInner d x) : KeepsInner d { x with time := y } := h

theorem setNet {y : NMap NetPort} (h : KeepsInner d x) : KeepsInner d { x with net := y } := h

theorem setLane {y : LaneBlk} (h : KeepsInner d x) : KeepsInner d { x with lane := y } := h

theorem setFreeCtr {n : Nat} (h : KeepsInner d x) : KeepsInner d { x with freeCtr := n } := h

/-! ## The log, completion and the partner -/

theorem append {origin : Nat} {ev : Ev} {p : List Byte} (h : KeepsInner d x) : KeepsInner d (x.append origin ev p) := by
  obtain ⟨⟨_, _, _, _, _, e⟩, -⟩ := x.append_touches origin ev p
  exact e ▸ h

theorem event {origin : Nat} {ev : Ev} {p : List Byte} (h : KeepsInner d x) : KeepsInner d (x.event origin ev p) := by
  obtain ⟨⟨_, _, _, _, _, e⟩, -⟩ := x.event_touches origin ev p
  exact e ▸ h

theorem completeWhere {p : Out → Bool} {status : Nat} {result : Out → Nat} (h : KeepsInner d x) :
    KeepsInner d (x.completeWhere p status result) := by
  refine .foldl (fun {y o} hy => ?_) h
  obtain ⟨⟨_, _, _, _, _, _, e⟩, -⟩ := y.complete_completes o status (result o) []
  exact e ▸ hy

theorem shank {kind : Nat} {body : List Byte} (h : KeepsInner d x) : KeepsInner d (x.shank kind body) := by
  obtain ⟨_, _, e⟩ := x.shank_frame kind body
  exact e ▸ h

/-! ## Outputs and roles (R51, R416, R431) -/

theorem outputs (h : KeepsInner d x) : KeepsInner d x.outputs := by
  have pps : ∀ {y : Dev}, KeepsInner d y → KeepsInner d y.ppsDrive := fun {y} hy => by
    unfold Dev.ppsDrive
    exact .ite (.send hy) (.send (.setTime hy))
  have driven : ∀ {y : Dev} {c c' : Prop} [Decidable c] [Decidable c'] {a i : Nat} {v : Bool} {t t' : Tx}, KeepsInner d y →
      KeepsInner d (if c then (if c' then (y.wrBit a i v).send t else y.wrBit a i v) else (y.wrBit a i v).send t') := fun hy =>
    .ite (.ite (.send (.wrBit hy)) (.wrBit hy)) (.send (.wrBit hy))
  have cmp : ∀ {y : Dev}, KeepsInner d y → KeepsInner d y.cmpDrive := .foldl driven
  have emu : ∀ {y : Dev}, KeepsInner d y → KeepsInner d y.emuDrive := .foldl driven
  have ssi : ∀ {y : Dev}, KeepsInner d y → KeepsInner d y.ssiDrive := .foldl fun hy => .send (.wrBit (.wrBit hy))
  exact .send (pps (ssi (emu (cmp h))))

theorem release (h : KeepsInner d x) : KeepsInner d x.release := by
  unfold Dev.release
  exact .ite (.outputs (.send (.wrBit h))) h

theorem setRole {role step cause : Nat} (h : KeepsInner d x) : KeepsInner d (x.setRole role step cause) := by
  unfold Dev.setRole
  exact .wr64 (.setPair (.wrF (.wrF (.wrF (.ite (.foldl (fun hy => .wrBit (.wrS (.setPos hy))) (.wrF (.setCam h))) h)))))

theorem resign {cause step : Nat} (h : KeepsInner d x) : KeepsInner d (x.resign cause step) := by
  unfold Dev.resign
  exact .ite (.event (.setRole (.wrF (.shank (.release h))))) h

theorem outOfStep {cause : Nat} (h : KeepsInner d x) : KeepsInner d (x.outOfStep cause) := by
  have left {ev bs} : KeepsInner d ((((x.wrF Reg.PAIR_STATUS 2 2 1).wrF Reg.PAIR_LAST_CAUSE 4 4 cause).wrBit Reg.PAIR_STATUS 10
    false).event 2 ev bs) := .event (.wrBit (.wrF (.wrF h)))
  unfold Dev.outOfStep
  exact .ite (.ite (.shank (.wr64 (.wrF (.setPair left)))) left) h

/-! ## Ports and lanes of the Lace link (R286, R294, R312) -/

theorem decision {line b head dkind cause count : Nat} (h : KeepsInner d x) :
    KeepsInner d (x.decision line b head dkind cause count) := by
  unfold Dev.decision
  exact .ite (.shank h) h

theorem barLost {b : Nat} {report : Bool} (h : KeepsInner d x) : KeepsInner d (x.barLost b report) := by
  unfold Dev.barLost
  exact .ite (.event (.setJob h)) (.setJob h)

theorem printFault {b line : Nat} (h : KeepsInner d x) : KeepsInner d (x.printFault b line) := by
  unfold Dev.printFault
  exact .ite (.resign (.setPair h)) (.ite (.outOfStep (.setPair h)) (.setPair h))

theorem portLost {b : Nat} (h : KeepsInner d x) : KeepsInner d (x.portLost b) := by
  have told {line} : KeepsInner d ((((x.endSession b).setPortState b 0).barLost b true).decision line b 0xFF 9 8 0) :=
    .decision (.barLost (.wrF (.setRast (.setLace h))))
  unfold Dev.portLost
  exact .ite (.printFault told) told

theorem laceLaneDown {b k : Nat} (h : KeepsInner d x) : KeepsInner d (x.laceLaneDown b k) := by
  unfold Dev.laceLaneDown
  extract_lets used down told lost
  have hdown : KeepsInner d down := .setJob (.wrBit (.wrBit h))
  have htold : KeepsInner d told := .event hdown
  have resent : KeepsInner d (told.resendKept b k) := .foldl (fun hy => .bump (.setRast (.send (.setLace hy)))) (.setRast htold)
  exact .ite (.ite (.ite htold (.ite (.portLost htold) resent)) (.ite (.ite hdown (.decision (.barLost hdown))) hdown)) h

/-! ## Admitted records (R34, R38) -/

theorem admitCommit {c : CommitRec} (h : KeepsInner d x) : KeepsInner d (x.admitCommit c).1 := by
  obtain ⟨_, _, _, _, e⟩ := x.admitCommit_frame c
  exact e ▸ h

theorem postOwn {c : CommitRec} (h : KeepsInner d x) : KeepsInner d (x.postOwn c).1 := by
  unfold Dev.postOwn
  split
  · dsimp only
    exact .append h
  · exact .admitCommit h

/-! ## Cameras (R335, R350, R369, R496) -/

theorem takeLine {c : Nat} (h : KeepsInner d x) : KeepsInner d (x.takeLine c) := by
  unfold Dev.takeLine
  extract_lets s
  split
  · extract_lets st cont prev flags arch y
    have used : KeepsInner d y := .setVisUse (.ite (.setFreeCtr h) h)
    split
    · exact .wr (.setCam used)
    · exact .wr (.setCam used)
  · exact h

theorem drainLines {c n : Nat} (h : KeepsInner d x) : KeepsInner d (Dev.drainLines c n x) := by
  induction n generalizing x with
  | zero => exact h
  | succ n ih => exact ih (.takeLine h)

theorem awlDone {r : Region} {a : RegAcc} {usable : Bool} (h : KeepsInner d x) : KeepsInner d (x.awlDone r a usable) := by
  have mapped : ∀ {y : Dev} {b h : Nat} {rs : List Nat}, KeepsInner d y → KeepsInner d (y.awlMap b h rs) := fun {y b h rs} hy => by
    unfold Dev.awlMap
    extract_lets k old cnts new sts deferred loop noted m told changed
    have putOff : KeepsInner d deferred := .event hy
    have hnoted : KeepsInner d noted := .setLoop hy
    refine .ite putOff (.ite hnoted ?_)
    split
    · exact putOff
    · exact .ite (.event (.postOwn (.setRast (.setRast (.ite (.shank hnoted) hnoted))))) putOff
  have shown {rs} : KeepsInner d (x.showAwl r.bar r.head rs) := .publish (.wrF (.wrF (.wrWords (.wrBit h))))
  unfold Dev.awlDone
  exact .ite (mapped shown) shown

theorem loopFirstFrame {c job : Nat} {pos : Option Rat} (h : KeepsInner d x) : KeepsInner d (x.loopFirstFrame c job pos) := by
  unfold Dev.loopFirstFrame
  split
  · exact h
  · extract_lets y line s s' src loop' z settled w
    have hs : KeepsInner d settled := .foldl (fun hy => .wr64 hy) (.setLoop (.wrBit h))
    exact .event (.ite (.wrBit hs) hs)

theorem camCalFrame {c : Nat} {f : FrameSt} {good : Bool} (h : KeepsInner d x) : KeepsInner d (x.camCalFrame c f good) := by
  have done : ∀ {y : Dev} {cal unit fig : Nat}, KeepsInner d y → KeepsInner d (y.calDone cal unit fig) := fun hy =>
    .completeWhere (.publish (.wrF (.wrF (.event (.wr (.wrBit hy))))))
  unfold Dev.camCalFrame
  extract_lets s
  split
  · exact h
  · exact .ite (.ite (done (.setFreeCtr (.wrF (.wrBit (.setCam h))))) (.setCam h)) h

theorem closeFrame {c : Nat} {linkLost : Bool} (h : KeepsInner d x) : KeepsInner d (x.closeFrame c linkLost) := by
  have drained : KeepsInner d (Dev.drainLines c (x.cs c).queue.length x) := .drainLines h
  have bumpIf : ∀ {y : Dev} {b : Bool} {a : Nat}, KeepsInner d y → KeepsInner d (y.bumpIf b a) := fun hy => .ite (.bump hy) hy
  unfold Dev.closeFrame
  extract_lets e s trigs
  split
  · exact drained
  · extract_lets gLast f skipped fl usable flags st job posTime bins ents crc head ring slots s1 y1 y2 y3 y4 y5 y6
    have recorded : KeepsInner d y2 := .event (.setCam (.ite (.setFreeCtr drained) drained))
    have counted : KeepsInner d y4 := .wr (bumpIf (bumpIf (.wr64 (bumpIf (.bump recorded)))))
    have resumed : KeepsInner d y5 := .ite (.loopFirstFrame counted) counted
    refine .camCalFrame (.foldl (fun {y i} hy => ?_) resumed)
    dsimp only
    split
    · exact .ite (.awlDone hy) hy
    · exact hy

theorem camDown {c : Nat} (h : KeepsInner d x) : KeepsInner d (x.camDown c) :=
  .event (.wrBit (.ite (.setCam (.wrBit (.closeFrame h))) h))

/-! ## Lanes (R43, R312) -/

theorem opNetDown {n : Nat} (h : KeepsInner d x) : KeepsInner d (x.opNetDown n) := by
  have down {p} : KeepsInner d ((x.wrBit (Reg.NET_PORT_STATUS n) 0 false).setNp n p) := .wrF (.setNet (.wrBit h))
  unfold Dev.opNetDown
  exact .ite (.event (.ite (.wrF down) down)) h

theorem laneStop {l : Nat} (h : KeepsInner d x) : KeepsInner d (x.laneStop l) := by
  have owner : ∀ {y : Dev}, KeepsInner d y → KeepsInner d (y.ownerDown l) := fun {y} hy => by
    unfold Dev.ownerDown
    exact .ite hy (.ite (.laceLaneDown hy) (.ite (.ite (.event (.wrBit hy)) (.wrBit hy)) (.ite (.ite (.camDown hy) hy) (.opNetDown hy))))
  have stopped : KeepsInner d (((x.setLaneUp l false).wrF (Reg.LANE_LN_STATUS l) 0 3 0).wrF (Reg.LANE_LN_RATE l) 0 16 0) :=
    .wrF (.wrF (.wrBit (.wrBit h)))
  unfold Dev.laneStop
  exact .ite (owner (.ite (.setLane stopped) stopped)) h

/-! ## A configuration that takes force (R83) -/

theorem selectSource {commit : Bool} (h : KeepsInner d x) : KeepsInner d (x.selectSource commit) := by
  have status {y : Dev} {v : Nat} {b : Bool} (hy : KeepsInner d y) : KeepsInner d (((y.wrF Reg.POS_STATUS 0 3 v).wrBit
    Reg.POS_STATUS 3 b).wrBit Reg.POS_STATUS 4 false) := .wrBit (.wrBit (.wrF hy))
  have lost {y : Dev} {b : Bool} (hy : KeepsInner d y) : KeepsInner d (y.setLost b) := .wrBit (.wrBit hy)
  unfold Dev.selectSource
  exact .ite (lost (status h)) (.ite (.wrS (.wrS (.wr64 (.setPos (lost (status (.setPos h))))))) (lost (status (.setPos h))))

theorem inputsCommit (h : KeepsInner d x) : KeepsInner d x.inputsCommit :=
  .foldl (fun hy => .wrBit (.setPos hy)) (.foldl (fun hy => .wrBit (.setPos hy)) h)

theorem emuCommit (h : KeepsInner d x) : KeepsInner d x.emuCommit :=
  .foldl (fun hy => .ite (.wrBit (.wrS (.wr64 (.setPos hy)))) hy) h

theorem laneCommit (h : KeepsInner d x) : KeepsInner d x.laneCommit :=
  .foldl (fun hy => .ite (.ite hy (.laneStop hy)) hy) (.wr (.wrF h))

theorem applyConfig (h : KeepsInner d x) : KeepsInner d x.applyConfig :=
  .outputs (.foldl (fun hy => .wrS hy) (.foldl (fun hy => .wrBit hy) (.laneCommit (.emuCommit (.inputsCommit (.selectSource
    (.wr (.wrF (.setCam h)))))))))

end Dev.KeepsInner

end Sys2Proof.Machine
end

section
/-!
PROOFS. The feature set is locked, and a configuration session is opened, written and read (R77, R78, R80, R81, R115, R511).
-/

namespace Sys2Proof.Machine

namespace Dev

/-! ## FEAT_LOCK (R77, R78) -/

section
variable {d : Dev}

theorem opFeatLock_of_locked (locked : d.featLocked = true) : d.opFeatLock = d := if_pos locked

theorem opFeatLock_of_good (unlocked : d.featLocked = false) (good : ∀ n, n < 256 → d.featBad n = false) :
    d.opFeatLock = d.wrBit Reg.SYS_STATUS 9 true := by
  have none_bad : (List.range 256).find? d.featBad = none := List.find?_eq_none.2 fun n hn => by simp [good n (List.mem_range.1 hn)]
  simp [opFeatLock, unlocked, none_bad]

/-- The bit named is the lowest one that fails. -/
theorem opFeatLock_of_bad {n : Nat} (unlocked : d.featLocked = false) (hn : n < 256) (bad : d.featBad n = true)
    (lowest : ∀ m, m < n → d.featBad m = false) : d.opFeatLock = d.wr Reg.SYS_FEAT_ERR (n + 0x100) := by
  have found : (List.range 256).find? d.featBad = some n :=
    List.find?_range_eq_some.2 ⟨bad, List.mem_range.2 hn, fun m hm => by simp [lowest m hm]⟩
  simp [opFeatLock, unlocked, found]

end

/-! ## CFG_BEGIN (R80, R115) -/

section
variable {d : Dev} {o : Out} {img : Image}

theorem cfgBeginBody_of_reset (src : byteAt o.entry 8 = 0) : d.cfgBeginBody o = (d.openSession resetImage).complete o OK 0 [] :=
  if_pos src

theorem cfgBeginBody_of_stored {seq : Nat} {feats : List Nat} (src : byteAt o.entry 8 = 1)
    (located : d.cfg.located = some (seq, feats, img)) (same : feats = d.featSet) :
    d.cfgBeginBody o = (d.openSession img).complete o OK seq [] := by
  simp [cfgBeginBody, src, located, same]

theorem cfgBeginBody_of_last (src : byteAt o.entry 8 = 2) (last : d.cfg.last = some img) :
    d.cfgBeginBody o = (d.openSession img).complete o OK d.cfg.lastSeq [] := by
  simp [cfgBeginBody, src, last]

end

/-! ## An open session (R80) -/

theorem openSession_cfg (d : Dev) (img : Image) :
    (d.openSession img).cfg.session = some img ∧ (d.openSession img).cfg.force = resetImage ∧
      (d.openSession img).cfg.last = d.cfg.last := by
  have begun : KeepsInner ({ d with cfg := { d.cfg with session := some img, force := resetImage } } : Dev) (d.openSession img) :=
    .foldl (fun hy => .wrBit hy) (.wrBit (.wrBit (.setPair (.wr (.wr (.wr (.wrF rfl)))))))
  rw [begun.cfg]
  exact ⟨rfl, rfl, rfl⟩

/-- The end of a pair and the state of the bars are shown outside the block of the session (R80). -/
theorem Spares.withdrawn {F : List Field} {d x : Dev} (pair : Apart F 0x26) (fire : Apart F 0x19) (h : Spares F d x) :
    Spares F d x.unform.showEnabled :=
  .foldl (fun y b hb => .wrBit (off_of_block fire (by have := List.mem_range.1 hb; unfold Reg.FIRE_BAR_STATUS; omega)) (.refl F y))
    (.wrBit (off_of_block pair rfl) (.wrBit (off_of_block pair rfl) (.setPair h)))

/-- What a session shows when it opens: CFG 2, and a count, a CRC and a SYS_CFG_SEQ of 0. -/
theorem openSession_shown (d : Dev) (img : Image) :
    (d.openSession img).cfgField = 2 ∧ (d.openSession img).rd Reg.SYS_CFG_RUN_COUNT = 0 ∧
      (d.openSession img).rd Reg.SYS_CFG_RUN_CRC = 0 ∧ (d.openSession img).rd Reg.SYS_CFG_SEQ = 0 := by
  have last : ∀ {x : Dev} {a : Nat}, Spares [(a, 0, 32)] (x.wr a 0) (d.openSession img) → (d.openSession img).rd a = 0 :=
    fun {x a} h => (h.rd (List.mem_singleton_self _)).trans (x.rd_wr_same a 0)
  refine ⟨?_, last (.withdrawn (by decide) (by decide) (.wr (by decide) (.wr (by decide) (.refl _ _)))),
    last (.withdrawn (by decide) (by decide) (.wr (by decide) (.refl _ _))), last (.withdrawn (by decide) (by decide) (.refl _ _))⟩
  have status : Spares [(Reg.SYS_STATUS, 4, 3)] (({ d with cfg := { d.cfg with session := some img, force := resetImage } } : Dev).wrF
      Reg.SYS_STATUS 4 3 2) (d.openSession img) :=
    .withdrawn (by decide) (by decide) (.wr (by decide) (.wr (by decide) (.wr (by decide) (.refl _ _))))
  exact (status.fields _ (List.mem_singleton_self _)).trans (rdF_wrF_same _ Reg.SYS_STATUS 4 3 2 (by decide))

theorem openSession_formed (d : Dev) (img : Image) : (d.openSession img).formed = false := by
  have cleared : ∀ {x : Dev}, Spares [(Reg.PAIR_STATUS, 4, 1)] (x.wrBit Reg.PAIR_STATUS 4 false) (d.openSession img) →
      (d.openSession img).formed = false := fun {x} h =>
    (congrArg (· == 1) (h.fields _ (List.mem_singleton_self _))).trans (x.bit_wrBit_same Reg.PAIR_STATUS 4 false (by decide))
  refine cleared (.foldl (fun y b hb => .wrBit (Spares.off_of_block (b := 0x19) (by decide) ?_) (.refl _ y))
    (.wrF_beside (by decide) (by decide) (.refl _ _)))
  have := List.mem_range.1 hb
  unfold Reg.FIRE_BAR_STATUS
  omega

/-! ## CFG_WRITE (R81, R115) -/

/-- A transfer from a buffer that resolves, with no check that fails and no failing request, brings its bytes. -/
theorem dmaIn_of_ok {d : Dev} {o : Out} {dma : Dma} {els : List (Nat × Nat)} {chk : Nat → Option Nat}
    (hbuf : d.buffer o.entry dma = .ok els) (hchk : chk (bufTotal els) = none) (herr : dataErr dma = none)
    (k : Dev → List Byte → Dev) : d.dmaIn o dma chk k = k d (dmaBytes dma (bufTotal els)) := by
  simp [dmaIn, hbuf, hchk, herr]

theorem cfgWriteBody_of_ok {d : Dev} {o : Out} {dma : Dma} {img : Image} {els : List (Nat × Nat)} (hs : d.cfg.session = some img)
    (hbuf : d.buffer o.entry dma = .ok els) (herr : dataErr dma = none)
    (span : cfgSpanOk (numAt o.entry 8 4) (numAt o.entry 12 4) (numAt o.entry 16 4) = true)
    (long : numAt o.entry 16 4 ≤ bufTotal els)
    (room : numAt o.entry 8 4 = 0 ∨ numAt o.entry 16 4 = 0 ∨
      img.sizeWith (numAt o.entry 8 4) (numAt o.entry 12 4 + numAt o.entry 16 4) ≤ 0x200000) :
    let staged := d.stage img (numAt o.entry 8 4) (numAt o.entry 12 4) ((dmaBytes dma (bufTotal els)).take (numAt o.entry 16 4))
    d.cfgWriteBody dma o = staged.complete o OK (staged.rd Reg.SYS_CFG_RUN_COUNT) [] := by
  unfold cfgWriteBody
  simp only [hs]
  refine dmaIn_of_ok hbuf ?_ herr _
  rw [if_neg (by simp [span, long]), if_neg (by omega)]

/-- A write is counted, and extends the running CRC over its target, offset, length and bytes. -/
theorem stage_shown (d : Dev) (img : Image) (target off : Nat) (bs : List Byte) :
    (d.stage img target off bs).rd Reg.SYS_CFG_RUN_COUNT = (d.rd Reg.SYS_CFG_RUN_COUNT + 1) % 2 ^ 32 ∧
      (d.stage img target off bs).rd Reg.SYS_CFG_RUN_CRC = crc32cMore (d.rd Reg.SYS_CFG_RUN_CRC)
        (leBytes 4 target ++ leBytes 4 off ++ leBytes 4 bs.length ++ bs) % 2 ^ 32 :=
  ⟨(rd_wr_ne _ _ (by decide)).trans (rd_wr_same _ _ _), rd_wr_same _ _ _⟩

/-! ## CFG_READ (R511) -/

/-- CFG_READ reads the staging image, or the configuration in force when no session is open. -/
theorem cfgReadBody_of_ok {d : Dev} {o : Out} {dma : Dma} {img : Image} {els : List (Nat × Nat)}
    (source : d.cfg.session = some img ∨ (d.cfg.session = none ∧ d.cfgField = 3 ∧ img = d.cfg.force))
    (hbuf : d.buffer o.entry dma = .ok els) (herr : dataErr dma = none)
    (span : cfgSpanOk (numAt o.entry 8 4) (numAt o.entry 12 4) (numAt o.entry 16 4) = true) :
    let bs := (img.part (numAt o.entry 8 4) (numAt o.entry 12 4) (numAt o.entry 16 4) (bufTotal els)).take (bufTotal els)
    d.cfgReadBody dma o = (d.scatter els bs).complete o OK bs.length [] := by
  have moved := dmaOut_of_ok hbuf herr (fun room => img.part (numAt o.entry 8 4) (numAt o.entry 12 4) (numAt o.entry 16 4) room)
    fun y n => y.complete o OK n []
  unfold cfgReadBody
  rcases source with hs | ⟨hs, committed, rfl⟩
  · simpa [hs, span] using moved
  · simpa [hs, committed, span] using moved

end Dev

/-! ## The obligation -/

/-- Settles O18: each command by the equation of its body, and what it shows by the registers that its later steps spare. -/
theorem sessionsOpenWriteAndRead : Obligations.SessionsOpenWriteAndRead := by
  unfold Obligations.SessionsOpenWriteAndRead
  refine ⟨fun s runs => ?lock, ⟨fun s q o d hs => ?opens, fun d img => ?session⟩,
    fun s q dma o d img els hs hopen hbuf herr span long room => ?write,
    fun s q dma o d img els hs hbuf herr source span => ?read⟩
  case lock =>
    exact ⟨fun locked => Does.of_withDev runs rfl (Dev.opFeatLock_of_locked locked),
      fun unlocked good => Does.of_withDev runs rfl (Dev.opFeatLock_of_good unlocked good),
      fun n unlocked hn bad lowest => Does.of_withDev runs rfl (Dev.opFeatLock_of_bad unlocked hn bad lowest)⟩
  case opens =>
    exact ⟨fun src => Does.of_runCmd hs rfl (Dev.cfgBeginBody_of_reset src),
      fun seq feats img src located same => Does.of_runCmd hs rfl (Dev.cfgBeginBody_of_stored src located same),
      fun img src last => Does.of_runCmd hs rfl (Dev.cfgBeginBody_of_last src last)⟩
  case session =>
    obtain ⟨field, count, crc, seq⟩ := d.openSession_shown img
    obtain ⟨opened, force, last⟩ := d.openSession_cfg img
    exact ⟨opened, force, field, count, crc, seq, last, d.openSession_formed img⟩
  case write =>
    exact ⟨Does.of_runCmd hs rfl (Dev.cfgWriteBody_of_ok hopen hbuf herr span long room), d.stage_shown img _ _ _⟩
  case read => exact Does.of_runCmd hs rfl (Dev.cfgReadBody_of_ok source hbuf herr span)

end Sys2Proof.Machine
end

section
/-!
PROOFS. A configuration is committed, a job admitted and a record posted, each by checks in an order of its own (R32, R34, R37, R82-R84,
R135, R137, R138, R510).
-/

namespace Sys2Proof.Machine

/-- A job with the ceilings it is answered (R137, R140). -/
def Job.withCeiling (j : Job) (c : List (Nat × Nat × Nat) × Nat) : Job :=
  { j with rate := c.2, ceiling := toMmMin c.2 (dpiOf j.pitch),
           barRate := c.1.foldl (fun m x => mapSet 0 m x.1 x.2.1) ([] : NMap Nat) }

namespace Dev

/-! ## CFG_COMMIT (R82-R84) -/

/-- The host's count and CRC are those of the session (R82). -/
def sameSession (d : Dev) (o : Out) : Prop :=
  numAt o.entry 8 4 = d.rd Reg.SYS_CFG_RUN_COUNT ∧ numAt o.entry 12 4 = d.rd Reg.SYS_CFG_RUN_CRC

/-- The module as it would be with an image in force, on which the checks of a commit run. -/
def tried (d : Dev) (img : Image) : Dev := { d with cfg := { d.cfg with force := img } }

section
variable {d : Dev} {o : Out} {img : Image} {fails : Bool} (hs : d.cfg.session = some img)
include hs

theorem cfgCommitBody_of_other_session (other : ¬d.sameSession o) :
    d.cfgCommitBody fails o = d.complete o CFG_CHECK_FAILED 0x1000000 [] := by
  have differ : numAt o.entry 8 4 ≠ d.rd Reg.SYS_CFG_RUN_COUNT ∨ numAt o.entry 12 4 ≠ d.rd Reg.SYS_CFG_RUN_CRC := not_and_or.1 other
  simp [cfgCommitBody, hs, differ]

variable (same : d.sameSession o)
include same

theorem cfgCommitBody_of_failed {check field : Nat} (failed : (d.tried img).imageCheck = some (check, field)) :
    d.cfgCommitBody fails o = d.complete o CFG_CHECK_FAILED (check * 0x1000000 + field) [] := by
  unfold cfgCommitBody
  rw [hs]
  refine (if_neg (not_or.2 ⟨not_not.2 same.1, not_not.2 same.2⟩)).trans ?_
  split
  case h_1 found =>
    cases found.symm.trans failed
    rfl
  case h_2 found => cases found.symm.trans failed

/-- A configuration that passes takes force, and is stored on request. -/
theorem cfgCommitBody_of_passed (passed : (d.tried img).imageCheck = none) : d.cfgCommitBody fails o =
    if bitOf (byteAt o.entry 16) 0 = false then (d.takeForce img).complete o OK (d.takeForce img).cfg.lastSeq []
    else if fails then ({ d.takeForce img with cfg := (d.takeForce img).cfg.store .bad } : Dev).complete o CFG_STORE_FAILED 0 []
    else ({ d.takeForce img with cfg := (d.takeForce img).cfg.store (.valid (d.takeForce img).cfg.lastSeq d.featSet img) } :
      Dev).complete o OK (d.takeForce img).cfg.lastSeq [] := by
  unfold cfgCommitBody
  rw [hs]
  refine (if_neg (not_or.2 ⟨not_not.2 same.1, not_not.2 same.2⟩)).trans ?_
  split
  case h_1 found => cases found.symm.trans passed
  case h_2 => rfl

end

/-- The configuration that takes force closes the session and is the last committed one, with the next sequence number (R83). -/
theorem takeForce_cfg (d : Dev) (img : Image) :
    (d.takeForce img).cfg = { d.cfg with session := none, force := img, last := some img, lastSeq := d.cfg.nextSeq } :=
  KeepsInner.cfg (d := { d with cfg := { d.cfg with session := none, force := img, last := some img, lastSeq := d.cfg.nextSeq } })
    (.applyConfig (.wr (.wrF rfl)))

/-! ## JOB_ADMIT (R135, R137, R138) -/

/-- The checks of a record that has been read, in the order of R135: its length, its fields, the features it needs, its ranges, and the
resources by the health that the control plane knows. -/
def admitCheck (d : Dev) (r : List Byte) (id : Nat) (rep : Bool) : Option Nat :=
  if r.length ≠ 64 + 32 * popBars (byteAt r 6) then some OUT_OF_RANGE
  else if recordFieldsOk r = false then some RESERVED_FIELD
  else if d.recordFeatsOk r = false then some FEATURE_NOT_ACCEPTED
  else if d.recordRangesOk r id rep = false then some OUT_OF_RANGE
  else d.asKnown.admitRefusal (jobOf r rep) (d.asKnown.ceilings (jobOf r rep))

section
variable {d : Dev} {r : List Byte} {id : Nat} {rep : Bool}

theorem admitCheck_of_length (h : r.length ≠ 64 + 32 * popBars (byteAt r 6)) : d.admitCheck r id rep = some OUT_OF_RANGE := if_pos h

variable (len : r.length = 64 + 32 * popBars (byteAt r 6))
include len

theorem admitCheck_of_fields (h : recordFieldsOk r = false) : d.admitCheck r id rep = some RESERVED_FIELD := by
  simp [admitCheck, len, h]

variable (fields : recordFieldsOk r = true)
include fields

theorem admitCheck_of_feats (h : d.recordFeatsOk r = false) : d.admitCheck r id rep = some FEATURE_NOT_ACCEPTED := by
  simp [admitCheck, len, fields, h]

variable (feats : d.recordFeatsOk r = true)
include feats

theorem admitCheck_of_ranges (h : d.recordRangesOk r id rep = false) : d.admitCheck r id rep = some OUT_OF_RANGE := by
  simp [admitCheck, len, fields, feats, h]

/-- Of a record that is well formed, the resources decide. -/
theorem admitCheck_of_record_ok (ranges : d.recordRangesOk r id rep = true) :
    d.admitCheck r id rep = d.asKnown.admitRefusal (jobOf r rep) (d.asKnown.ceilings (jobOf r rep)) := by
  simp [admitCheck, len, fields, feats, ranges]

end

section
variable {d : Dev} {o : Out} {dma : Dma}

theorem admitBody_of_known (known : (d.findJob (numAt o.entry 8 4)).isSome = true) :
    d.admitBody dma o = d.complete o JOB_ID_IN_USE 0 [] := if_pos known

variable {els : List (Nat × Nat)} (fresh : d.findJob (numAt o.entry 8 4) = none) (hbuf : d.buffer o.entry dma = .ok els)
  (herr : dataErr dma = none)
include fresh hbuf herr

/-- A record that has been read completes with the status of the check it fails, or is published as its job and its ceilings answered. -/
theorem admitBody_of_read :
    let r := dmaBytes dma (bufTotal els)
    let rep := bitOf (byteAt o.entry 12) 0
    let c := d.asKnown.ceilings (jobOf r rep)
    d.admitBody dma o = (d.admitCheck r (numAt o.entry 8 4) rep).elim ((d.publishJob (jobOf r rep) r c).complete o OK
      (toMmMin c.2 (Machine.dpiOf (jobOf r rep).pitch)) (barCeilData (jobOf r rep) c.1)) (d.complete o · 0 []) := by
  extract_lets r rep c
  unfold admitBody
  refine (if_neg (by simp [fresh])).trans ((dmaIn_of_ok hbuf rfl herr _).trans ?_)
  unfold admitCheck
  dsimp only
  split_ifs
  case neg => cases d.asKnown.admitRefusal (jobOf r rep) c <;> rfl
  all_goals rfl

end

/-- A published job stands behind the others with its ceilings, and its entry behind the others of the descriptor table; an ended job of
its identifier is forgotten (R137, R138). -/
theorem publishJob_job (d : Dev) (j : Job) (r : List Byte) (c : List (Nat × Nat × Nat) × Nat) :
    (d.publishJob j r c).job = { d.job with
      jobs := d.job.jobs ++ [j.withCeiling c], ended := d.job.ended.filter (fun k => k.id ≠ j.id),
      jdt := d.job.jdt ++ [⟨j.id, jdtBytes r j.rep d.ctl.seq (toMmMin c.2 (Machine.dpiOf j.pitch))⟩] } := wr_job _ _ _

/-- What a published job leaves alone: the register it writes shows the use of the repeat store (R144). -/
theorem publishJob_frame (d : Dev) (j : Job) (r : List Byte) (c : List (Nat × Nat × Nat) × Nat) :
    (d.publishJob j r c).cfg = d.cfg ∧ (d.publishJob j r c).host = d.host ∧ (d.publishJob j r c).log = d.log ∧
      (d.publishJob j r c).tx = d.tx := ⟨wr_cfg _ _ _, wr_host _ _ _, wr_log _ _ _, wr_tx _ _ _⟩

/-! ## COMMIT_POST (R32, R34, R37, R510) -/

section
variable {d : Dev} {o : Out} (role : d.role ≠ 2)
include role

/-- A record that fails a check is noted as refused and completes with its status (R37). -/
theorem commitBody_of_refused {st : Nat} (refused : d.commitCheck (commitOf ((o.entry.drop 8).take 32)) true = some st) :
    d.commitBody o = (d.refuseCommit (commitOf ((o.entry.drop 8).take 32)) st).complete o st 0 [] := by
  simp [commitBody, role, refused]

theorem commitBody_of_admitted (admitted : d.commitCheck (commitOf ((o.entry.drop 8).take 32)) true = none) :
    d.commitBody o = (d.admitCommit (commitOf ((o.entry.drop 8).take 32))).1.complete o OK
      (d.admitCommit (commitOf ((o.entry.drop 8).take 32))).2 [] := by
  simp [commitBody, role, admitted]

end

end Dev

/-! ## Sequence numbers (R83) -/

theorem CfgSt.lastSeq_lt_nextSeq (c : CfgSt) : c.lastSeq < c.nextSeq := by
  unfold CfgSt.nextSeq
  omega

theorem CfgSt.newest_lt_nextSeq {c : CfgSt} {seq : Nat} {feats : List Nat} {img : Image} (newest : c.newest = some (seq, feats, img)) :
    seq < c.nextSeq := by
  simp only [CfgSt.nextSeq, newest]
  omega

/-! ## The obligation -/

/-- Settles O19: each command by the equations of its body, an admitted record and a configuration in force by what they leave alone. -/
theorem configurationsJobsAndRecordsAreAdmitted : Obligations.ConfigurationsJobsAndRecordsAreAdmitted := by
  unfold Obligations.ConfigurationsJobsAndRecordsAreAdmitted
  refine ⟨fun s q fails o d img hs hopen => ?commit, fun d img => ?inForce, fun s q dma o d els hs => ?admission, fun d j r c => ?published,
    fun s q o d hs role => ?post, fun d c => ?pending⟩
  case commit =>
    refine ⟨fun other => Does.of_runCmd hs rfl (Dev.cfgCommitBody_of_other_session hopen other),
      fun check field same failed => Does.of_runCmd hs rfl (Dev.cfgCommitBody_of_failed hopen same failed), fun same passed store => ?_,
      fun same passed store works => ?_, fun same passed store broken => ?_⟩
    all_goals refine Does.of_runCmd hs rfl ((Dev.cfgCommitBody_of_passed hopen same passed).trans ?_)
    · exact if_pos store
    · exact (if_neg (by simp [store])).trans (if_neg (by simp [works]))
    · exact (if_neg (by simp [store])).trans (if_pos broken)
  case inForce =>
    have hcfg := d.takeForce_cfg img
    simp only [hcfg]
    exact ⟨trivial, trivial, trivial, trivial, d.cfg.lastSeq_lt_nextSeq, fun seq feats im => CfgSt.newest_lt_nextSeq⟩
  case admission =>
    refine ⟨fun known => Does.of_runMatched hs rfl (Dev.admitBody_of_known known), fun fresh hbuf herr => ?_⟩
    have refused {st : Nat} (check : d.admitCheck (dmaBytes dma (bufTotal els)) (numAt o.entry 8 4)
        (bitOf (byteAt o.entry 12) 0) = some st) : exec (.jobAdmit q dma) s = .next { s with dev := (d.complete o st 0 []).drain q } :=
      Does.of_runMatched hs rfl ((Dev.admitBody_of_read fresh hbuf herr).trans (by rw [check]; rfl))
    refine ⟨fun len => refused (Dev.admitCheck_of_length len), fun len => ⟨fun fields => refused (Dev.admitCheck_of_fields len fields),
      fun fields feats => refused (Dev.admitCheck_of_feats len fields feats),
      fun fields feats ranges => refused (Dev.admitCheck_of_ranges len fields feats ranges), fun fields feats ranges => ?_⟩⟩
    have resources := Dev.admitCheck_of_record_ok len fields feats ranges
    exact ⟨fun st lacking => refused (resources.trans lacking),
      fun enough => Does.of_runMatched hs rfl ((Dev.admitBody_of_read fresh hbuf herr).trans
        (by rw [resources.trans enough]; rfl))⟩
  case published =>
    obtain ⟨hcfg, hhost, hlog, htx⟩ := d.publishJob_frame j r c
    dsimp only
    rw [d.publishJob_job j r c]
    refine ⟨⟨_, rfl, rfl, rfl, rfl, rfl, rfl, rfl⟩, ⟨_, rfl, rfl⟩, fun k hk => ?_, rfl, hcfg, hhost, hlog, htx⟩
    simpa using (List.mem_filter.1 hk).2
  case post =>
    exact ⟨fun st refused => Does.of_runMatched hs rfl (Dev.commitBody_of_refused role refused),
      fun admitted => Does.of_runMatched hs rfl (Dev.commitBody_of_admitted role admitted), rfl⟩
  case pending =>
    obtain ⟨m, js, t, y, e⟩ := d.admitCommit_frame c
    dsimp only
    rw [e]
    exact ⟨⟨_, rfl, rfl, rfl, rfl, rfl, rfl, rfl⟩, rfl, rfl, rfl⟩

end Sys2Proof.Machine
end

section
/-!
PROOFS. The commands that change what the module is complete with their own effect: CFG_COMMIT, START, JOB_ADMIT, COMMIT_POST and POWER_SET
(R76, R82, R83, R115, R117, R135, R137, R417, R470, R473, R510).
-/

namespace Sys2Proof.Machine

namespace Dev

/-! ## START (R76, R117, R417) -/

section
variable {d : Dev} (o : Out)

theorem startRefusal_none (closed : d.cfg.session = none) (committed : d.cfgField = 3) (tests : d.selftestFail = false)
    (reference : d.refFault = false) (cool : sgn 16 (d.rdF Reg.HLTH_TEMP_BASE 0 16) ≤ 1200) : d.startRefusal = none := by
  unfold startRefusal
  rw [if_neg (by simp [closed]), if_neg (by simp [committed]), if_neg (by simp [tests]), if_neg (by simp [reference]),
    if_neg (Int.not_lt.2 cool)]

variable (allowed : d.startRefusal = none)
include allowed

theorem startBody_of_alone (single : d.pairOn = false) : d.startBody o = (d.startAs 0 0).complete o OK 0 [] := by
  simp [startBody, allowed, single]

/-- Without a living partner the module starts as ACTIVE, with the KEY and DIGEST of its command (R417, R424). -/
theorem startBody_of_no_partner (pair : d.pairOn = true) (alone : d.partnerAlive = false) :
    d.startBody o = d.startActive { o with mkey := some (matchKey o.entry (mapGet 0 d.pair.counts (countKey o.entry)),
      d.matchDigest o.entry ⟨[], [], none⟩) } := by
  simp [startBody, allowed, pair, alone]

end

/-! ## JOB_ADMIT (R135, R142) -/

/-- A job is refused for none of the resources when there is a slot, room in the repeat store, and capacity. -/
theorem admitRefusal_none {d : Dev} {j : Job} {c : List (Nat × Nat × Nat) × Nat} (slot : d.job.jobs.length < 64)
    (room : j.rep = true → d.repeatUsed + (j.planes.map (fun x => x.2.compBytes)).sum ≤ d.repeatStore)
    (floor : d.cf Reg.PLACE_RATE_FLOOR ≤ c.2) (bars : ∀ b ∈ j.barList, d.barCan b = true)
    (engines : (j.barList.filter (fun b => !d.hasEngine b)).length ≤ b2n d.re8Free) (lanes : j.barList.length ≤ d.dflLanes.length) :
    d.admitRefusal j c = none := by
  have able : j.barList.any (fun b => !d.barCan b) = false := List.any_eq_false.2 fun b hb => by simp [bars b hb]
  unfold admitRefusal
  dsimp only
  rw [if_neg (by omega), if_neg fun lacks => by have := room lacks.1; omega, if_neg]
  simp only [able, Bool.false_eq_true, false_or]
  omega

/-! ## COMMIT_POST (R510) -/

theorem horizon_le_iff {d : Dev} {job b line : Nat} :
    d.horizon job b ≤ line ↔ d.begun job b = 0 ∨ d.begun job b - 1 + 64 ≤ line := by
  unfold horizon
  split <;> simp [*]

/-- A record of the host that no step of R510 refuses. -/
theorem commitCheck_none {d : Dev} {c : CommitRec} (fields : commitFieldsOk c true = true) (nozzle : c.kind = 4 → d.feat 23 = true)
    (takeover : c.kind = 6 → d.feat 41 = true ∧ d.pairOn = true) (active : d.pairOn = true → d.role = 1)
    (partner : c.kind = 6 → d.takeoverPending = false ∧ d.partnerInStep = true) (job : d.commitJobOk c = true)
    (early : ∀ b ∈ d.commitBars c, d.begun c.job b = 0 ∨ d.begun c.job b - 1 + 64 ≤ c.line) (free : d.commitHeld c true = false)
    (arg : d.commitArgOk c = true) (room : ∀ b ∈ d.commitBars c, (d.pendOn b).length < 256) : d.commitCheck c true = none := by
  have in_time : (d.commitBars c).any (fun b => decide (c.line < d.horizon c.job b)) = false :=
    List.any_eq_false.2 fun b hb => by simpa using horizon_le_iff.2 (early b hb)
  have not_full : (d.commitBars c).any (fun b => decide (256 ≤ (d.pendOn b).length)) = false :=
    List.any_eq_false.2 fun b hb => by simpa using room b hb
  have feats : ¬(((true && c.kind == 4 && !d.feat 23) || (c.kind == 6 && !d.feat 41)) = true) := by
    simp only [Bool.true_and, Bool.or_eq_true, Bool.and_eq_true, beq_iff_eq, Bool.not_eq_true', not_or, not_and, Bool.not_eq_false]
    exact ⟨nozzle, fun k => (takeover k).1⟩
  unfold commitCheck
  rw [if_neg (by simp [fields]), if_neg feats, if_neg fun h => by simp [(takeover h.1).2] at h, if_neg fun h => h.2 (active h.1),
    if_neg fun h => by simp [partner h.1] at h, if_neg (by simp [job]), if_neg (by simp [in_time]), if_neg (by simp [free]),
    if_neg (by simp [arg]), if_neg (by simp [not_full])]

/-! ## POWER_SET (R470, R473) -/

section
variable {d : Dev} {o : Out} (idle : d.entering = false) (other : byteAt o.entry 8 ≠ d.pState)
include idle other

/-- RUN and READY change at once. -/
theorem powerBody_of_awake (awake : byteAt o.entry 8 < 2) :
    d.powerBody o = (d.wrF Reg.PWR_STATUS 0 3 (byteAt o.entry 8)).complete o OK 0 [] := by
  unfold powerBody
  rw [if_neg (by omega), if_neg (by simp [idle]), if_neg other, if_pos (by omega)]

/-- A sleep state begins its entry, and the command waits for it. -/
theorem powerBody_of_sleep (sleep : 2 ≤ byteAt o.entry 8) (still : d.anyActive = false) :
    d.powerBody o = (d.keep o).enter (byteAt o.entry 8) false := by
  unfold powerBody
  rw [if_neg (by simp [still]), if_neg (by simp [idle]), if_neg other, if_neg (by omega)]

end

/-- An entry begins with ENTERING and phase 1 in PWR_STATUS, and with its target. -/
theorem enter_shown (d : Dev) (target : Nat) (shelf : Bool) :
    (d.enter target shelf).rdF Reg.PWR_STATUS 3 4 = 3 ∧ (d.enter target shelf).pwr.target = target ∧
      (d.enter target shelf).pwr.shelf = shelf ∧ (d.enter target shelf).host = d.host := by
  refine ⟨rdF_wrF_same _ Reg.PWR_STATUS 3 4 3 (by decide), ?_, ?_, ?_⟩ <;> simp [enter, setEntry]

end Dev

/-! ## The obligation -/

/-- Settles O57: each command by the equation of its body once its checks are known to pass. -/
theorem commandsCompleteWithTheirEffect : Obligations.CommandsCompleteWithTheirEffect := by
  unfold Obligations.CommandsCompleteWithTheirEffect
  refine ⟨fun s q fails o d img hs hopen count crc passed store => ?commit,
    fun s q o d hs closed committed tests reference cool => ?start,
    fun s q dma o d els hs fresh hbuf herr len fields feats ranges slot room floor bars engines lanes => ?admission,
    fun s q o d hs role fields nozzle takeover active partner job early free arg room => ?post, fun s q o d hs idle other => ?power⟩
  case commit =>
    exact Does.of_runCmd hs rfl ((Dev.cfgCommitBody_of_passed hopen ⟨count, crc⟩ passed).trans (if_pos store))
  case start =>
    have allowed := Dev.startRefusal_none closed committed tests reference cool
    exact ⟨fun single => Does.of_runMatched hs rfl (Dev.startBody_of_alone o allowed single),
      fun pair alone => Does.of_runMatched hs rfl (Dev.startBody_of_no_partner o allowed pair alone)⟩
  case admission =>
    have passed := (Dev.admitCheck_of_record_ok len fields feats ranges).trans
      (Dev.admitRefusal_none slot room floor bars engines lanes)
    obtain ⟨hcfg, hhost, -, -⟩ := d.publishJob_frame _ _ _
    refine ⟨_, Does.of_runMatched hs rfl ((Dev.admitBody_of_read fresh hbuf herr).trans (by rw [passed]; rfl)), ?_⟩
    rw [d.publishJob_job]
    exact ⟨_, rfl, rfl, rfl, rfl, rfl, rfl, hhost, hcfg⟩
  case post =>
    have passed := Dev.commitCheck_none fields nozzle takeover active partner job early free arg room
    refine ⟨_, Does.of_runMatched hs rfl (Dev.commitBody_of_admitted role passed), ?_⟩
    obtain ⟨m, js, t, y, e⟩ := d.admitCommit_frame (commitOf ((o.entry.drop 8).take 32))
    rw [e]
    exact ⟨_, rfl, rfl, rfl, rfl, rfl, rfl, rfl, rfl⟩
  case power =>
    refine ⟨fun awake => ⟨Does.of_runCmd hs rfl (Dev.powerBody_of_awake idle other awake), ?_⟩, fun sleep still => ?_⟩
    · exact (d.rdF_wrF_same Reg.PWR_STATUS 0 3 _ (by decide)).trans (Nat.mod_eq_of_lt (by omega))
    · obtain ⟨phase, target, shelf, host⟩ := (d.keep o).enter_shown (byteAt o.entry 8) false
      exact ⟨_, Does.of_runCmd hs rfl (Dev.powerBody_of_sleep idle other sleep still), phase, target, shelf, congrArg HostSt.outs host⟩

end Sys2Proof.Machine
end

section
/-!
PROOFS. A map in canonical form is decided by what it reads (R100, R107).
-/

namespace Sys2Proof.Machine

/-- The entries of a map in canonical form are the keys that do not read the default, with what they read. -/
theorem mem_iff_mapGet {α : Type} [DecidableEq α] {dflt : α} {m : NMap α} (wf : mapWf dflt m = true) (e : Nat × α) :
    e ∈ m ↔ mapGet dflt m e.1 = e.2 ∧ e.2 ≠ dflt := by
  rw [mapWf_iff] at wf
  obtain ⟨rising, listed⟩ := wf
  induction m with
  | nil => simpa [mapGet] using fun h => Eq.symm h
  | cons x m ih =>
    obtain ⟨above, rising⟩ := List.pairwise_cons.1 rising
    have ih := ih rising fun y hy => listed y (List.mem_cons_of_mem _ hy)
    by_cases he : e.1 = x.1
    · have absent : e ∉ m := fun h => Nat.ne_of_gt (above e h) he
      have hx := listed x (List.mem_cons_self ..)
      simp only [mapGet, he, if_true, List.mem_cons, absent, or_false]
      exact ⟨fun h => ⟨congrArg Prod.snd h.symm, h ▸ hx⟩, fun h => Prod.ext he h.1.symm⟩
    · have other : e ≠ x := fun h => he (congrArg Prod.fst h)
      simp only [mapGet, he, if_false, List.mem_cons, other, false_or, ih]

/-- Maps in canonical form that read alike are equal. -/
theorem eq_of_mapGet_eq {α : Type} [DecidableEq α] {dflt : α} {m n : NMap α} (hm : mapWf dflt m = true) (hn : mapWf dflt n = true)
    (alike : ∀ k, mapGet dflt m k = mapGet dflt n k) : m = n := by
  have irrefl : Std.Irrefl fun a b : Nat × α => a.1 < b.1 := ⟨fun a => Nat.lt_irrefl a.1⟩
  have asymm : Std.Asymm fun a b : Nat × α => a.1 < b.1 := ⟨fun _ _ h => Nat.not_lt_of_gt h⟩
  exact List.Pairwise.eq_of_mem_iff ((mapWf_iff dflt m).1 hm).1 ((mapWf_iff dflt n).1 hn).1 fun {e} => by
    rw [mem_iff_mapGet hm, mem_iff_mapGet hn, alike]

/-- Settles O7: bytes and words are two kinds of values of such maps, and a write of bytes reads as the laws of maps say. -/
theorem memoriesAreWhatTheyRead : Obligations.MemoriesAreWhatTheyRead := by
  unfold Obligations.MemoriesAreWhatTheyRead
  exact ⟨fun _ _ => eq_of_mapGet_eq, fun _ _ => eq_of_mapGet_eq,
    fun m k bs _ => ⟨mapGet_mapWrite_inside 0 m k bs, mapGet_mapWrite_outside 0 m k bs⟩⟩

end Sys2Proof.Machine
end

section
/-!
PROOFS. Queue pairs: doorbells, fetches, enabling, disabling and draining (R93, R94, R97-R99).
-/

namespace Sys2Proof.Machine

/-! ## Doorbells and fetches (R97-R99) -/

/-- A pointer out of range, or beyond the room there is, fails the check of a doorbell. -/
theorem doorbell_bad {new n moved room : Nat} (bad : n ≤ new ∨ room < moved) : ¬(new < n ∧ moved ≤ room) := by omega

/-- The entries that a fetch brings from host memory join the fetched ones, no more than the tail made available (R97). -/
theorem Dev.opSqFetch_of_entries {d : Dev} {q : Nat} (fetching : d.qFetching q = true) (inHost : d.bit (Reg.HOSTQ_Q_CTRL q) 3 = false)
    (es : List (List Byte)) : d.opSqFetch q (.entries es) =
      (d.setQs q { d.qs q with
        fetched := (d.qs q).fetched ++ (es.map (padTo 64)).take (min es.length (d.sqWaiting q)) }).drain q := by
  simp [Dev.opSqFetch, fetching, inHost]

/-- Settles O9: each row on a pair that is served is its operation in the case named. -/
theorem doorbellsAndFetches : Obligations.DoorbellsAndFetches := by
  unfold Obligations.DoorbellsAndFetches
  refine ⟨⟨fun s q v runs => ?sqTail, fun s q v runs => ?cqHead⟩,
    fun s q v runs => ⟨fun fetching bad => ?badTail, fun served bad => ?badHead⟩,
    fun s q runs fetching => ⟨fun es inHost => ?entries, ?failed⟩⟩
  case sqTail =>
    intro d n new old head fetching inRange room
    exact Does.of_withDev runs rfl ((if_pos fetching).trans (if_pos ⟨inRange, room⟩))
  case cqHead =>
    intro d n new old tail served inRange room
    exact Does.of_withDev runs rfl ((if_pos served).trans (if_pos ⟨inRange, room⟩))
  case badTail => exact Does.of_withDev runs rfl ((if_pos fetching).trans (if_neg (doorbell_bad bad)))
  case badHead => exact Does.of_withDev runs rfl ((if_pos served).trans (if_neg (doorbell_bad bad)))
  case entries => exact Does.of_withDev runs rfl (Dev.opSqFetch_of_entries fetching inHost es)
  case failed => exact Does.of_withDev runs rfl (if_pos fetching)

/-! ## Enabling (R93) -/

namespace Dev

variable {d : Dev} {q : Nat}

/-- A write of the fields of a pair reaches nothing of the host link but registers and the log. -/
theorem writeCtrl_host (d : Dev) (q v : Nat) : (d.writeCtrl q v).host = d.host := by
  unfold writeCtrl
  dsimp only
  split
  · exact append_host _ _ _ _
  · rfl

/-- The pair q once an enable of it has been accepted: ENABLE, ACTIVE alone, the pointers at 0, phase 1, and nothing fetched. -/
def startPair (d : Dev) (q : Nat) : Dev :=
  ((((((d.wrBit (Reg.HOSTQ_Q_CTRL q) 0 true).wr (Reg.HOSTQ_Q_STATUS q) 1).wr (Reg.HOSTQ_Q_SQ_HEAD q) 0).wr
    (Reg.HOSTQ_Q_SQ_TAIL q) 0).wr (Reg.HOSTQ_Q_CQ_HEAD q) 0).wr (Reg.HOSTQ_Q_CQ_TAIL q) 0x10000).setQs q {}

section
variable (v : Nat) (off : d.qEnabled q = false) (idle : d.bit (Reg.HOSTQ_Q_STATUS q) 0 = false)
include off idle

/-- On a pair that is neither enabled nor active, the check of the set-up decides. -/
theorem opQueueEnable_of_accepted (ok : (d.writeCtrl q v).pairOk q = true) :
    d.opQueueEnable q v = (d.writeCtrl q v).startPair q := by
  simp [opQueueEnable, startPair, off, idle, ok]

theorem opQueueEnable_of_refused (bad : (d.writeCtrl q v).pairOk q = false) :
    d.opQueueEnable q v = (d.writeCtrl q v).wrBit (Reg.HOSTQ_Q_STATUS q) 2 true := by
  simp [opQueueEnable, off, idle, bad]

end

theorem qs_setQs_same (d : Dev) (q : Nat) (x : QSt) : (d.setQs q x).qs q = x := mapGet_mapSet_same _ _ _ _

theorem startPair_reads (d : Dev) (q : Nat) :
    (d.startPair q).qEnabled q = true ∧ (d.startPair q).rd (Reg.HOSTQ_Q_STATUS q) = 1 ∧
      (d.startPair q).rd (Reg.HOSTQ_Q_SQ_HEAD q) = 0 ∧ (d.startPair q).rd (Reg.HOSTQ_Q_SQ_TAIL q) = 0 ∧
      (d.startPair q).rd (Reg.HOSTQ_Q_CQ_HEAD q) = 0 ∧ (d.startPair q).rd (Reg.HOSTQ_Q_CQ_TAIL q) = 0x10000 := by
  have enabled : (d.startPair q).bit (Reg.HOSTQ_Q_CTRL q) 0 = (d.wrBit (Reg.HOSTQ_Q_CTRL q) 0 true).bit (Reg.HOSTQ_Q_CTRL q) 0 := by
    simp [startPair, bit, rd_wr_ne, Reg.HOSTQ_Q_CTRL, Reg.HOSTQ_Q_STATUS, Reg.HOSTQ_Q_SQ_HEAD, Reg.HOSTQ_Q_SQ_TAIL,
      Reg.HOSTQ_Q_CQ_HEAD, Reg.HOSTQ_Q_CQ_TAIL]
  refine ⟨enabled.trans (d.bit_wrBit_same _ _ _ (by decide)), ?_⟩
  simp [startPair, rd_wr_same, rd_wr_ne, Reg.HOSTQ_Q_STATUS, Reg.HOSTQ_Q_SQ_HEAD, Reg.HOSTQ_Q_SQ_TAIL, Reg.HOSTQ_Q_CQ_HEAD,
    Reg.HOSTQ_Q_CQ_TAIL]

theorem startPair_hostMem (d : Dev) (q : Nat) : (d.startPair q).host.hostMem = d.host.hostMem := by
  simp [startPair, setQs]

/-! ## Disabling and draining (R94) -/

/-- Of pair q nothing fetched is left, and every command that it started has completed. -/
def drained (d : Dev) (q : Nat) : Prop := (d.qs q).fetched = [] ∧ d.qOuts q = []

theorem clearActive_of_drained (off : d.qEnabled q = false) (done : d.drained q) :
    d.clearActive q = d.wrBit (Reg.HOSTQ_Q_STATUS q) 0 false := by
  simp [clearActive, off, done.1, done.2]

theorem clearActive_of_not_drained (busy : ¬d.drained q) : d.clearActive q = d := by
  unfold drained at busy
  unfold clearActive
  rw [if_neg]
  simpa [List.isEmpty_iff, and_assoc] using fun _ => not_and.1 busy

/-- The clearing of ACTIVE writes STATUS of the pair, or nothing. -/
theorem clearActive_cases (d : Dev) (q : Nat) :
    d.clearActive q = d.wrBit (Reg.HOSTQ_Q_STATUS q) 0 false ∨ d.clearActive q = d := by
  unfold clearActive
  split
  · exact .inl rfl
  · exact .inr rfl

theorem clearActive_host (d : Dev) (q : Nat) : (d.clearActive q).host = d.host := by
  rcases d.clearActive_cases q with e | e <;> rw [e]
  exact d.wrBit_host _ _ _

theorem rd_clearActive_ne (d : Dev) {a : Nat} (h : a ≠ Reg.HOSTQ_Q_STATUS q) : (d.clearActive q).rd a = d.rd a := by
  rcases d.clearActive_cases q with e | e <;> rw [e]
  exact d.rd_wrBit_ne _ _ h

/-- ACTIVE of a disabled pair stays while something is left to complete. -/
theorem active_clearActive_iff (off : d.qEnabled q = false) :
    (d.clearActive q).bit (Reg.HOSTQ_Q_STATUS q) 0 = true ↔ d.bit (Reg.HOSTQ_Q_STATUS q) 0 = true ∧ ¬d.drained q := by
  by_cases done : d.drained q
  · simp [clearActive_of_drained off done, bit_wrBit_same, done]
  · simp [clearActive_of_not_drained done, done]

/-- The pair q with ENABLE cleared and IRQ_EN as written, before ACTIVE follows. -/
def stopPair (d : Dev) (q v : Nat) : Dev := (d.wrBit (Reg.HOSTQ_Q_CTRL q) 0 false).wrBit (Reg.HOSTQ_Q_CTRL q) 10 (bitOf v 10)

theorem opQueueDisable_of_enabled (v : Nat) (on : d.qEnabled q = true) : d.opQueueDisable q v = (d.stopPair q v).clearActive q := by
  simp [opQueueDisable, stopPair, on]

theorem qEnabled_stopPair (d : Dev) (q v : Nat) : (d.stopPair q v).qEnabled q = false :=
  (bit_wrBit_other _ _ _ _ (by decide) (by decide)).trans (d.bit_wrBit_same _ _ _ (by decide))

theorem irqEn_stopPair (d : Dev) (q v : Nat) : (d.stopPair q v).bit (Reg.HOSTQ_Q_CTRL q) 10 = bitOf v 10 :=
  bit_wrBit_same _ _ _ _ (by decide)

theorem status_ne_ctrl (q p : Nat) : Reg.HOSTQ_Q_STATUS q ≠ Reg.HOSTQ_Q_CTRL p := by
  unfold Reg.HOSTQ_Q_STATUS Reg.HOSTQ_Q_CTRL
  omega

theorem active_stopPair (d : Dev) (q v : Nat) :
    (d.stopPair q v).bit (Reg.HOSTQ_Q_STATUS q) 0 = d.bit (Reg.HOSTQ_Q_STATUS q) 0 :=
  (bit_wrBit_ne _ _ _ _ (status_ne_ctrl q q)).trans (d.bit_wrBit_ne _ _ _ (status_ne_ctrl q q))

/-- What a disable of an enabled pair shows. -/
theorem opQueueDisable_reads (v : Nat) (on : d.qEnabled q = true) :
    (d.opQueueDisable q v).qEnabled q = false ∧ (d.opQueueDisable q v).bit (Reg.HOSTQ_Q_CTRL q) 10 = bitOf v 10 ∧
      (d.opQueueDisable q v).host = d.host ∧
      ((d.opQueueDisable q v).bit (Reg.HOSTQ_Q_STATUS q) 0 = true ↔ d.bit (Reg.HOSTQ_Q_STATUS q) 0 = true ∧ ¬d.drained q) := by
  have ctrl := fun i => congrArg (bitOf · i) ((d.stopPair q v).rd_clearActive_ne (status_ne_ctrl q q).symm)
  rw [opQueueDisable_of_enabled v on]
  refine ⟨(ctrl 0).trans (d.qEnabled_stopPair q v), (ctrl 10).trans (d.irqEn_stopPair q v), clearActive_host _ _, ?_⟩
  rw [active_clearActive_iff (d.qEnabled_stopPair q v), active_stopPair]
  exact Iff.rfl

end Dev

/-- Settles O10: an enable by its check, a disable by what the cleared ENABLE and the pair's rest show. -/
theorem queuePairsAreEnabledAndDrained : Obligations.QueuePairsAreEnabledAndDrained := by
  unfold Obligations.QueuePairsAreEnabledAndDrained
  refine ⟨fun s q v runs => ?enable, fun s q runs => ⟨fun v => ?disable, fun off fetched outs => ?drained⟩⟩
  case enable =>
    intro d off idle
    refine ⟨fun ok => ?_, fun bad => Does.of_withDev runs rfl (Dev.opQueueEnable_of_refused _ off idle bad)⟩
    obtain ⟨enabled, status, sqHead, sqTail, cqHead, cqTail⟩ := (d.writeCtrl q v.toNat).startPair_reads q
    exact ⟨_, Does.of_withDev runs rfl (Dev.opQueueEnable_of_accepted _ off idle ok), enabled, status, sqHead, sqTail, cqHead, cqTail,
      Dev.qs_setQs_same _ _ _, (Dev.startPair_hostMem _ q).trans (congrArg HostSt.hostMem (d.writeCtrl_host q v.toNat))⟩
  case disable =>
    intro d on
    obtain ⟨off, irq, host, active⟩ := Dev.opQueueDisable_reads v.toNat on
    exact ⟨d.opQueueDisable q v.toNat, Does.of_withDev runs rfl rfl, off, by simp [Dev.qFetching, off], irq, host, active⟩
  case drained => exact Does.of_withDev runs rfl (Dev.clearActive_of_drained off ⟨fetched, outs⟩)

end Sys2Proof.Machine
end

section
/-!
PROOFS. A completion entry in host memory, and a result in a mailbox (R100-R104).
-/

namespace Sys2Proof.Machine

namespace Dev

/-! ## The completion entry (R100, R102) -/

/-- The completion interrupt leaves alone what a completion entry has written. -/
theorem completionVector_keeps (d : Dev) (q : Nat) : (d.completionVector q).host.hostMem = d.host.hostMem ∧
    (d.completionVector q).host.bar2 = d.host.bar2 ∧ (d.completionVector q).log = d.log := by
  have host := d.vector_host (d.rdF (Reg.HOSTQ_Q_CTRL q) 4 6)
  refine ⟨(congrArg (·.hostMem) host :), (congrArg (·.bar2) host :), ?_⟩
  show (d.vector _).log = _
  unfold vector
  split
  · exact d.wrBit_log _ _ _
  · rfl

/-- The CQ tail and PHASE after one more completion entry: PHASE inverts where the tail wraps (R100). -/
def nextTail (d : Dev) (q : Nat) : Nat :=
  let t := d.rdF (Reg.HOSTQ_Q_CQ_TAIL q) 0 16
  let ph := d.rdF (Reg.HOSTQ_Q_CQ_TAIL q) 16 1
  (if t + 1 = d.cqSize q then 0 else t + 1) + (if t + 1 = d.cqSize q then 1 - ph else ph) * 0x10000

theorem nextTail_lt (d : Dev) (q : Nat) : d.nextTail q < 2 ^ 32 := by
  have t := fld_lt (d.rd (Reg.HOSTQ_Q_CQ_TAIL q)) 0 16
  have ph := fld_lt (d.rd (Reg.HOSTQ_Q_CQ_TAIL q)) 16 1
  unfold nextTail rdF
  dsimp only
  split <;> omega

/-- The bytes that a completion entry writes, at the CQ tail (R100). -/
def entryMem (d : Dev) (q tag status result sqHead : Nat) : NMap Byte :=
  mapWrite 0 d.host.hostMem (d.rd64 (Reg.HOSTQ_Q_CQ_BASE_LO q) + 16 * d.rdF (Reg.HOSTQ_Q_CQ_TAIL q) 0 16)
    (cqEntry tag status result sqHead q (d.rdF (Reg.HOSTQ_Q_CQ_TAIL q) 16 1))

/-- What a completion entry writes, and what it leaves alone. -/
theorem postCq_writes (d : Dev) {q : Nat} (tag status result sqHead : Nat) (hq : q < 16) :
    (d.postCq q tag status result sqHead).host.hostMem = d.entryMem q tag status result sqHead ∧
      (d.postCq q tag status result sqHead).rd (Reg.HOSTQ_Q_CQ_TAIL q) = d.nextTail q ∧
      (d.postCq q tag status result sqHead).host.bar2 = d.host.bar2 ∧ (d.postCq q tag status result sqHead).log = d.log := by
  have off : ¬pbaReg (Reg.HOSTQ_Q_CQ_TAIL q) := by
    unfold pbaReg Reg.HOSTQ_Q_CQ_TAIL Reg.HOSTQ_MSIX_PBA
    omega
  unfold postCq
  extract_lets t ph d1 t' ph' d2 src d3
  have tail : d3.rd (Reg.HOSTQ_Q_CQ_TAIL q) = d.nextTail q := (d1.rd_wr_same _ _).trans (Nat.mod_eq_of_lt (d.nextTail_lt q))
  split
  · obtain ⟨mem, bar2, log⟩ := d3.completionVector_keeps q
    exact ⟨mem, ((d3.completionVector_touches q).2 _ off).trans tail, bar2, log⟩
  · exact ⟨rfl, tail, rfl, rfl⟩

/-- A command that is not matched and has no mailbox completes with its completion entry alone. -/
theorem complete_of_plain {d : Dev} {o : Out} (status result : Nat) (data : List Byte) (own : o.actRes = none) (single : o.mkey = none)
    (post : o.post = true) (noBox : d.mboxOn o.entry = false) :
    d.complete o status result data = d.postCq o.q (entTag o.entry) status result o.sqHead := by
  simp [complete, cmdDone, own, single, post, noBox]

theorem cqEntry_length (tag status result sqHead q phase : Nat) : (cqEntry tag status result sqHead q phase).length = 16 := by
  simp [cqEntry]

/-! ## The mailbox (R103, R104) -/

theorem rd_publish_ne (d : Dev) {a b : Nat} (h : b ≠ a) : (d.publish a).rd b = d.rd b :=
  (rd_wrBit_ne _ _ _ h).trans (d.rd_wrF_ne _ _ _ h)

/-- SEQ of a published result counts modulo 65,536, and VALID is 1 (R104). -/
theorem publish_reads (d : Dev) (a : Nat) :
    (d.publish a).rdF a 0 16 = (d.rdF a 0 16 + 1) % 0x10000 ∧ (d.publish a).bit a 16 = true :=
  ⟨(rdF_wrF_other _ a 16 1 _ (by decide) (.inl (by decide))).trans (d.rdF_wrF_same a 0 16 _ (by decide)),
    bit_wrBit_same _ _ _ _ (by decide)⟩

end Dev

/-- Whole words of a byte group: each is the number of its four bytes. -/
theorem bytesWords_of_length (n : Nat) {bs : List Byte} (h : bs.length = 4 * n) :
    (bytesWords bs).length = n ∧ ∀ j < n, (bytesWords bs).getD j 0 = numAt bs (4 * j) 4 := by
  induction n generalizing bs with
  | zero =>
    obtain rfl := List.length_eq_zero_iff.1 h
    exact ⟨rfl, fun j hj => absurd hj (Nat.not_lt_zero j)⟩
  | succ n ih =>
    match bs, h with
    | a :: b :: c :: d :: r, h =>
      obtain ⟨len, words⟩ := ih (bs := r) (by simp at h; omega)
      refine ⟨by simp [bytesWords, len], fun j hj => ?_⟩
      cases j with
      | zero => simp [bytesWords, numAt]
      | succ j => exact (words j (by omega)).trans (by simp [numAt, Nat.mul_add])
    | [], h | [_], h | [_, _], h | [_, _, _], h => exact absurd h (by simp only [List.length_cons, List.length_nil]; omega)

/-- The number of `n` bytes is below 256 to the `n`. -/
theorem numAt_lt (bs : List Byte) (o n : Nat) : numAt bs o n < 256 ^ n :=
  (leNat_lt _).trans_le (Nat.pow_le_pow_right (by decide) (by simp))

/-- A number that lies within the bytes kept reads as before. -/
theorem numAt_take (bs : List Byte) {m o n : Nat} (h : o + n ≤ m) : numAt (bs.take m) o n = numAt bs o n := by
  rw [numAt, List.drop_take, List.take_take, Nat.min_eq_left (by omega), numAt]

namespace Dev

/-- The words that a mailbox result shows. -/
def mailWords (data : List Byte) : List Nat := bytesWords ((data ++ List.replicate 32 0).take 32)

theorem mailWords_reads (data : List Byte) : (mailWords data).length = 8 ∧
    ∀ j < 8, (mailWords data).getD j 0 = numAt (data ++ List.replicate 32 0) (4 * j) 4 := by
  obtain ⟨len, words⟩ := bytesWords_of_length 8 (bs := (data ++ List.replicate 32 0).take 32) (by simp)
  exact ⟨len, fun j hj => (words j hj).trans (numAt_take _ (by omega))⟩

/-- The mailbox with its words and TAG_STATUS, before they are published. -/
def mailed (d : Dev) (plane tag status : Nat) (data : List Byte) : Dev :=
  (d.wrWords (Reg.HOSTQ_MBOX_DATA plane 0) (mailWords data)).wr (Reg.HOSTQ_MBOX_TAG_STATUS plane) (tag + status * 0x10000)

section
variable (d : Dev) (plane tag status : Nat) (data : List Byte)

theorem mailbox_eq : d.mailbox plane tag status data = (d.mailed plane tag status data).publish (Reg.HOSTQ_MBOX_STAT plane) := rfl

theorem mailbox_data {j : Nat} (hj : j < 8) :
    (d.mailbox plane tag status data).rd (Reg.HOSTQ_MBOX_DATA plane j) = numAt (data ++ List.replicate 32 0) (4 * j) 4 := by
  obtain ⟨len, words⟩ := mailWords_reads data
  have place : Reg.HOSTQ_MBOX_DATA plane j = Reg.HOSTQ_MBOX_DATA plane 0 + 4 * j := by simp [Reg.HOSTQ_MBOX_DATA]
  have inside := d.rd_wrWords_inside (Reg.HOSTQ_MBOX_DATA plane 0) (mailWords data) j (len ▸ hj)
  rw [words j hj, Nat.mod_eq_of_lt (show _ < 2 ^ 32 from numAt_lt _ _ 4), ← place] at inside
  rw [mailbox_eq]
  refine (rd_publish_ne _ ?_).trans ((rd_wr_ne _ _ ?_).trans inside)
  · unfold Reg.HOSTQ_MBOX_DATA Reg.HOSTQ_MBOX_STAT
    omega
  · unfold Reg.HOSTQ_MBOX_DATA Reg.HOSTQ_MBOX_TAG_STATUS
    omega

theorem mailbox_tagStatus (htag : tag < 0x10000) (hst : status < 0x10000) :
    (d.mailbox plane tag status data).rd (Reg.HOSTQ_MBOX_TAG_STATUS plane) = tag + status * 0x10000 := by
  rw [mailbox_eq]
  refine (rd_publish_ne _ ?_).trans ((rd_wr_same _ _ _).trans (Nat.mod_eq_of_lt (by omega)))
  unfold Reg.HOSTQ_MBOX_TAG_STATUS Reg.HOSTQ_MBOX_STAT
  omega

theorem mailed_stat : (d.mailed plane tag status data).rd (Reg.HOSTQ_MBOX_STAT plane) = d.rd (Reg.HOSTQ_MBOX_STAT plane) := by
  refine (rd_wr_ne _ _ ?_).trans (d.rd_wrWords_outside _ _ _ fun i _ => ?_)
  · unfold Reg.HOSTQ_MBOX_STAT Reg.HOSTQ_MBOX_TAG_STATUS
    omega
  · unfold Reg.HOSTQ_MBOX_STAT Reg.HOSTQ_MBOX_DATA
    omega

theorem mailbox_stat :
    (d.mailbox plane tag status data).rdF (Reg.HOSTQ_MBOX_STAT plane) 0 16 = (d.rdF (Reg.HOSTQ_MBOX_STAT plane) 0 16 + 1) % 0x10000 ∧
      (d.mailbox plane tag status data).bit (Reg.HOSTQ_MBOX_STAT plane) 16 = true := by
  obtain ⟨seq, valid⟩ := (d.mailed plane tag status data).publish_reads (Reg.HOSTQ_MBOX_STAT plane)
  rw [rdF, rdF, mailed_stat] at seq
  exact ⟨seq, valid⟩

end

end Dev

/-- Settles O16: such a completion is its completion entry, of sixteen bytes, and a mailbox result is its words and what is published. -/
theorem completionsReachTheHost : Obligations.CompletionsReachTheHost := by
  unfold Obligations.CompletionsReachTheHost
  refine ⟨fun d o status result data own single post noBox hq => ?entry, fun d plane tag status data _ htag hst => ?result⟩
  case entry =>
    intro t ph base d'
    have plain : d' = d.postCq o.q (entTag o.entry) status result o.sqHead := Dev.complete_of_plain _ _ _ own single post noBox
    obtain ⟨mem, tail, bar2, log⟩ := d.postCq_writes (entTag o.entry) status result o.sqHead hq
    obtain ⟨-, cfg, job, -⟩ := (d.postCq_touches o.q (entTag o.entry) status result o.sqHead).fields
    have len := Dev.cqEntry_length (entTag o.entry) status result o.sqHead o.q ph
    rw [plain, mem, tail, Dev.entryMem]
    refine ⟨fun i hi => mapGet_mapWrite_inside _ _ _ _ i (len.symm ▸ hi),
      fun a ha => mapGet_mapWrite_outside _ _ _ _ a (len.symm ▸ ha), fun h => ?_, fun h => ?_, bar2, cfg, job, log⟩
    · simp [Dev.nextTail, Nat.ne_of_lt h, t, ph]
    · simp [Dev.nextTail, h, t, ph]
  case result =>
    obtain ⟨seq, valid⟩ := d.mailbox_stat plane tag status data
    exact ⟨d.mailbox_tagStatus plane tag status data htag hst, seq, valid, fun j hj => d.mailbox_data plane tag status data hj⟩

end Sys2Proof.Machine
end

section
/-!
PROOFS. Aggregation time-outs, a host link reset and a link that trains up (R87, R89, R102, R478).
-/

namespace Sys2Proof.Machine

/-! ## Folds -/

/-- What each step of a fold sets for its own element, and the steps of the others keep, holds after it for every element. -/
theorem foldl_establishes {α β : Type} {f : β → α → β} {P : α → β → Prop} (sets : ∀ b a, P a (f b a))
    (keeps : ∀ b a c, c ≠ a → P c b → P c (f b a)) (b : β) (l : List α) : ∀ a ∈ l, P a (l.foldl f b) := by
  induction l using List.reverseRecOn with
  | nil => simp
  | append_singleton l x ih =>
    intro a ha
    rw [List.foldl_append, List.foldl_cons, List.foldl_nil]
    by_cases e : a = x
    · exact e ▸ sets _ x
    · exact keeps _ x a e (ih a ((List.mem_append.1 ha).resolve_right fun h => e (List.mem_singleton.1 h)))

/-! ## What lies beyond the link -/

/-- The registers of HOSTQ, the count of link resets apart, and those that an append to the log writes. -/
def linkReg (a : Nat) : Prop := (a / 0x10000 = 1 ∧ a ≠ Reg.HOSTQ_FLR_COUNT) ∨ logReg a

/-- What of the module a host link reset does not affect: host memory, printing and the configuration; and the commands that have started,
once they are told to post nothing (R89). -/
def Dev.beyondLink (d : Dev) : NMap Byte × List Out × CfgSt × JobSt × FireSt × RastSt :=
  (d.host.hostMem, d.allOuts, d.cfg, d.job, d.fire, d.rast)

/-- From `d` to `x` registers of the link and of the log may have changed, and nothing beyond the link. -/
structure Dev.LinkOnly (d x : Dev) : Prop where
  beyond : x.beyondLink = d.beyondLink
  regs : ∀ a, ¬linkReg a → x.rd a = d.rd a

namespace Dev

namespace LinkOnly

variable {d x : Dev}

theorem refl (d : Dev) : LinkOnly d d := ⟨rfl, fun _ _ => rfl⟩

theorem trans {y : Dev} (h : LinkOnly d x) (g : LinkOnly x y) : LinkOnly d y :=
  ⟨g.beyond.trans h.beyond, fun a ha => (g.regs a ha).trans (h.regs a ha)⟩

theorem foldl {α : Type} {f : Dev → α → Dev} {l : List α} (step : ∀ y, ∀ a ∈ l, LinkOnly y (f y a)) (h : LinkOnly d x) :
    LinkOnly d (l.foldl f x) :=
  List.foldlRecOn l f h fun y hy a ha => hy.trans (step y a ha)

theorem wr {a v : Nat} (link : linkReg a) (h : LinkOnly d x) : LinkOnly d (x.wr a v) :=
  h.trans ⟨rfl, fun _ hb => x.rd_wr_ne v fun e => hb (e ▸ link)⟩

theorem wrBit {a i : Nat} {b : Bool} (link : linkReg a) (h : LinkOnly d x) : LinkOnly d (x.wrBit a i b) := h.wr link

theorem wrWords {a : Nat} {ws : List Nat} (link : ∀ i < ws.length, linkReg (a + 4 * i)) (h : LinkOnly d x) :
    LinkOnly d (x.wrWords a ws) :=
  h.trans ⟨rfl, fun b hb => x.rd_wrWords_outside a ws b fun i hi e => hb (e ▸ link i hi)⟩

theorem setQs {q : Nat} {y : QSt} (h : LinkOnly d x) : LinkOnly d (x.setQs q y) := h.trans ⟨rfl, fun _ _ => rfl⟩

/-- An operation that touches registers of the link and of the log, and no host memory. -/
theorem of_touches {S : Nat → Prop} (t : Touches S d x) (link : ∀ a, S a → linkReg a) (host : x.host = d.host) : LinkOnly d x := by
  obtain ⟨⟨m, l, t, y, k, rfl⟩, off⟩ := t
  obtain rfl : y = d.host := host
  exact ⟨rfl, fun a ha => off a fun touched => ha (link a touched)⟩

theorem append {origin : Nat} {ev : Ev} {p : List Byte} (h : LinkOnly d x) : LinkOnly d (x.append origin ev p) :=
  h.trans (of_touches (x.append_touches origin ev p) (fun _ => .inr) (x.append_host origin ev p))

end LinkOnly

/-! ## A started command ends without a completion entry (R89) -/

theorem shankParts_txSeq (kind n : Nat) (d : Dev) (body : List Byte) :
    ∃ t k, Dev.shankParts kind n d body = { d with tx := t, pair := { d.pair with txSeq := k } } := by
  induction n generalizing d body with
  | zero => exact ⟨d.tx, d.pair.txSeq, rfl⟩
  | succ n ih =>
    unfold shankParts
    split
    · exact ⟨_, _, rfl⟩
    · obtain ⟨t, k, e⟩ := ih (d.shankOne kind 1 (body.take 4096)) (body.drop 4096)
      exact ⟨t, k, e⟩

/-- The CMD frame of a matched command that completes counts SEQ of the pair, and no more of its block changes (R420, R424). -/
theorem cmdDone_txSeq (d : Dev) (o : Out) (status result : Nat) :
    ∃ t k, d.cmdDone o status result = { d with tx := t, pair := { d.pair with txSeq := k } } := by
  unfold cmdDone shank
  split
  · split
    · split
      · exact shankParts_txSeq _ _ _ _
      · exact ⟨d.tx, d.pair.txSeq, rfl⟩
    · exact ⟨d.tx, d.pair.txSeq, rfl⟩
  · exact ⟨d.tx, d.pair.txSeq, rfl⟩

theorem linkReg_of_mboxReg {plane a : Nat} (h : plane < 4) (box : mboxReg plane a) : linkReg a := by
  left
  unfold mboxReg Reg.HOSTQ_MBOX_TAG_STATUS Reg.HOSTQ_MBOX_STAT Reg.HOSTQ_MBOX_DATA at box
  unfold Reg.HOSTQ_FLR_COUNT
  rcases box with rfl | rfl | ⟨j, hj, rfl⟩ <;> omega

theorem LinkOnly.mailbox {d x : Dev} {plane tag status : Nat} {data : List Byte} (hp : plane < 4) (h : LinkOnly d x) :
    LinkOnly d (x.mailbox plane tag status data) :=
  h.trans (of_touches (x.mailbox_touches plane tag status data) (fun _ => linkReg_of_mboxReg hp) (x.mailbox_host plane tag status data))

/-- A command that posts nothing may still show its result in a mailbox and to the partner. -/
theorem LinkOnly.complete {d x : Dev} {o : Out} {status result : Nat} {data : List Byte} (silent : o.post = false) (h : LinkOnly d x) :
    LinkOnly d (x.complete o status result data) := by
  refine h.trans ?_
  unfold Dev.complete
  extract_lets res src d0 d1 d2
  have noted : LinkOnly x d0 := by
    unfold d0
    split <;> exact ⟨rfl, fun _ _ => rfl⟩
  have told : LinkOnly d0 d1 := by
    obtain ⟨t, k, e⟩ := d0.cmdDone_txSeq o status res
    exact (show d1 = _ from e) ▸ ⟨rfl, fun _ _ => rfl⟩
  have boxed : LinkOnly d1 d2 := by
    unfold d2
    split
    · exact .mailbox (fld_lt _ 1 2) (.refl d1)
    · exact .refl d1
  rw [silent]
  exact noted.trans (told.trans boxed)

/-! ## Disabling every pair -/

/-- One pair is disabled, and what was fetched and not started is dropped. -/
def dropPair (d : Dev) (q : Nat) : Dev := ((d.wrBit (Reg.HOSTQ_Q_CTRL q) 0 false).setQs q {}).clearActive q

/-- Pair q is disabled, with nothing fetched. -/
def pairOff (q : Nat) (d : Dev) : Prop := d.qEnabled q = false ∧ d.qs q = {}

theorem pairOff_of_eq {d x : Dev} {q : Nat} (ctrl : x.rd (Reg.HOSTQ_Q_CTRL q) = d.rd (Reg.HOSTQ_Q_CTRL q)) (host : x.host = d.host)
    (off : pairOff q d) : pairOff q x :=
  ⟨(congrArg (bitOf · 0) ctrl).trans off.1, (congrArg (fun h : HostSt => (mapGet {} h.qs q : QSt)) host).trans off.2⟩

theorem qs_dropPair (d : Dev) (q p : Nat) : (d.dropPair q).qs p = mapGet {} (mapSet {} d.host.qs q {}) p := by
  unfold Dev.qs dropPair
  rw [clearActive_host]
  rfl

theorem qEnabled_dropPair (d : Dev) (q p : Nat) :
    (d.dropPair q).qEnabled p = (d.wrBit (Reg.HOSTQ_Q_CTRL q) 0 false).bit (Reg.HOSTQ_Q_CTRL p) 0 :=
  congrArg (bitOf · 0) (rd_clearActive_ne _ (status_ne_ctrl q p).symm)

theorem pairOff_dropPair (d : Dev) (q : Nat) : pairOff q (d.dropPair q) :=
  ⟨(d.qEnabled_dropPair q q).trans (d.bit_wrBit_same _ _ _ (by decide)), (d.qs_dropPair q q).trans (mapGet_mapSet_same _ _ _ _)⟩

theorem pairOff_dropPair_ne {d : Dev} {p q : Nat} (h : p ≠ q) (off : pairOff p d) : pairOff p (d.dropPair q) := by
  refine ⟨((d.qEnabled_dropPair q p).trans (d.bit_wrBit_ne _ _ _ ?_)).trans off.1,
    ((d.qs_dropPair q p).trans (mapGet_mapSet_ne _ _ _ h)).trans off.2⟩
  unfold Reg.HOSTQ_Q_CTRL
  omega

theorem disableAll_off (d : Dev) {q : Nat} (hq : q < 16) : pairOff q d.disableAll :=
  foldl_establishes (P := pairOff) pairOff_dropPair (fun _ _ _ => pairOff_dropPair_ne) d _ q (List.mem_range.2 hq)

theorem LinkOnly.clearActive {d x : Dev} {q : Nat} (hq : q < 16) (h : LinkOnly d x) : LinkOnly d (x.clearActive q) := by
  rcases x.clearActive_cases q with e | e <;> rw [e]
  · refine h.wrBit (.inl ?_)
    unfold Reg.HOSTQ_Q_STATUS Reg.HOSTQ_FLR_COUNT
    omega
  · exact h

theorem LinkOnly.disableAll {d x : Dev} (h : LinkOnly d x) : LinkOnly d x.disableAll := by
  refine .foldl (fun y q hq => ?_) h
  have hq := List.mem_range.1 hq
  refine .clearActive hq (.setQs (.wrBit (.inl ?_) (.refl y)))
  unfold Reg.HOSTQ_Q_CTRL Reg.HOSTQ_FLR_COUNT
  omega

/-! ## The MSI-X table -/

/-- One vector as a reset of the function leaves it: no address, no data, and masked. -/
def maskVector (d : Dev) (v : Nat) : Dev := d.wrWords (Reg.HOSTQ_MSIX_TABLE (4 * v)) [0, 0, 0, 1]

/-- The control word of vector v masks it, and has no other bit set. -/
def vectorOff (v : Nat) (d : Dev) : Prop := d.rd (Reg.HOSTQ_MSIX_TABLE (4 * v + 3)) = 1

theorem resetMsix_eq (d : Dev) : d.resetMsix = ((List.range 64).foldl maskVector d).wrWords (Reg.HOSTQ_MSIX_PBA 0) [0, 0] := rfl

theorem rd_maskVector_ne (d : Dev) {v a : Nat} (h : a < Reg.HOSTQ_MSIX_TABLE (4 * v) ∨ Reg.HOSTQ_MSIX_TABLE (4 * v + 3) < a) :
    (d.maskVector v).rd a = d.rd a :=
  d.rd_wrWords_outside _ _ _ fun i hi => by
    unfold Reg.HOSTQ_MSIX_TABLE at h ⊢
    simp only [List.length_cons, List.length_nil] at hi
    omega

theorem resetMsix_off (d : Dev) {v : Nat} (hv : v < 64) : vectorOff v d.resetMsix := by
  have table := foldl_establishes (P := vectorOff) (f := maskVector)
    (fun x v => x.rd_wrWords_inside (Reg.HOSTQ_MSIX_TABLE (4 * v)) [0, 0, 0, 1] 3 (by decide))
    (fun x v c ne off => (x.rd_maskVector_ne (by unfold Reg.HOSTQ_MSIX_TABLE; omega)).trans off) d _ v (List.mem_range.2 hv)
  refine (rd_wrWords_outside _ _ _ _ fun i hi => ?_).trans table
  unfold Reg.HOSTQ_MSIX_TABLE Reg.HOSTQ_MSIX_PBA
  omega

theorem LinkOnly.maskVector {d x : Dev} {v : Nat} (hv : v < 64) (h : LinkOnly d x) : LinkOnly d (x.maskVector v) := by
  refine .wrWords (fun i hi => .inl ?_) h
  simp only [List.length_cons, List.length_nil] at hi
  unfold Reg.HOSTQ_MSIX_TABLE Reg.HOSTQ_FLR_COUNT
  omega

theorem LinkOnly.resetMsix {d x : Dev} (h : LinkOnly d x) : LinkOnly d x.resetMsix := by
  have table : LinkOnly d ((List.range 64).foldl Dev.maskVector x) := .foldl (fun y v hv => .maskVector (List.mem_range.1 hv) (.refl y)) h
  rw [resetMsix_eq]
  refine table.wrWords fun i hi => .inl ?_
  simp only [List.length_cons, List.length_nil] at hi
  unfold Reg.HOSTQ_MSIX_PBA Reg.HOSTQ_FLR_COUNT
  omega

theorem resetMsix_host (d : Dev) : d.resetMsix.host = d.host := by
  rw [resetMsix_eq, wrWords_host]
  exact List.foldlRecOn (motive := fun x : Dev => x.host = d.host) _ maskVector rfl fun x h v _ => (x.wrWords_host _ _).trans h

theorem rd_resetMsix_ne (d : Dev) {a : Nat} (h : a < Reg.HOSTQ_MSIX_TABLE 0) : d.resetMsix.rd a = d.rd a := by
  have table : ((List.range 64).foldl maskVector d).rd a = d.rd a :=
    List.foldlRecOn (motive := fun x : Dev => x.rd a = d.rd a) _ maskVector rfl fun x same v _ =>
      (x.rd_maskVector_ne (.inl (by unfold Reg.HOSTQ_MSIX_TABLE at h ⊢; omega))).trans same
  rw [resetMsix_eq]
  refine (rd_wrWords_outside _ _ _ _ fun i _ => ?_).trans table
  unfold Reg.HOSTQ_MSIX_TABLE at h
  unfold Reg.HOSTQ_MSIX_PBA
  omega

/-! ## The reset -/

/-- HOSTQ_STATUS shows the reset; of a link that is lost, nothing else (R89). -/
def showReset (d : Dev) (lost : Bool) : Dev := if lost then d.wr Reg.HOSTQ_STATUS 0x100 else d.wrBit Reg.HOSTQ_STATUS 8 true

theorem showReset_bits (d : Dev) (lost : Bool) : (d.showReset lost).bit Reg.HOSTQ_STATUS 8 = true ∧
    (lost = true → (d.showReset lost).bit Reg.HOSTQ_STATUS 0 = false) := by
  cases lost
  · exact ⟨d.bit_wrBit_same _ _ _ (by decide), nofun⟩
  · have whole : (d.showReset true).rd Reg.HOSTQ_STATUS = 0x100 := d.rd_wr_same _ _
    simp [bit, whole, bitOf, fld]

theorem showReset_host (d : Dev) (lost : Bool) : (d.showReset lost).host = d.host := by
  cases lost
  · exact d.wrBit_host _ _ _
  · rfl

theorem rd_showReset_ne (d : Dev) (lost : Bool) {a : Nat} (h : a ≠ Reg.HOSTQ_STATUS) : (d.showReset lost).rd a = d.rd a := by
  cases lost
  · exact d.rd_wrBit_ne _ _ h
  · exact d.rd_wr_ne _ h

theorem LinkOnly.showReset {d x : Dev} {lost : Bool} (h : LinkOnly d x) : LinkOnly d (x.showReset lost) := by
  cases lost
  · exact h.wrBit (.inl (by decide))
  · exact h.wr (.inl (by decide))

/-- A link reset logged and counted. -/
def countReset (d : Dev) : Dev := (d.append 0 .hostLinkReset []).bump Reg.HOSTQ_FLR_COUNT

theorem countReset_host (d : Dev) : d.countReset.host = d.host := (bump_host _ _).trans (d.append_host _ _ _)

theorem bump_beyond (d : Dev) (a : Nat) : (d.bump a).beyondLink = d.beyondLink := rfl

theorem countReset_beyond (d : Dev) : d.countReset.beyondLink = d.beyondLink := by
  unfold countReset
  rw [bump_beyond, (LinkOnly.append (.refl d)).beyond]

theorem rd_countReset_ne (d : Dev) {a : Nat} (flr : a ≠ Reg.HOSTQ_FLR_COUNT) (log : ¬logReg a) : d.countReset.rd a = d.rd a :=
  (rd_bump_ne _ flr).trans ((d.append_touches _ _ _).2 a log)

theorem rd_countReset_same (d : Dev) : d.countReset.rd Reg.HOSTQ_FLR_COUNT = min (d.rd Reg.HOSTQ_FLR_COUNT + 1) 0xFFFFFFFF := by
  unfold countReset
  rw [rd_bump_same, (d.append_touches _ _ _).2 _ (by unfold logReg; decide)]

theorem not_logReg_of_hostq {a : Nat} (h : a / 0x10000 = 1) : ¬logReg a := by
  unfold logReg Reg.NVM_LOG_NEXT_LO Reg.NVM_LOG_OLDEST_LO Reg.HLTH_STATUS Reg.HLTH_LOG_DROP
  omega

/-- The steps of a link reset from the pairs on (R89). -/
def dropLink (d : Dev) (lost : Bool) : Dev := (d.disableAll.resetMsix.showReset lost).countReset

/-- A reset of the link, from its last steps back: those of `dropLink`, and the ends of the data transfers; before them every started
command was told to post nothing (R89). -/
theorem opHostLinkReset_steps (d : Dev) (lost : Bool) : ∃ d0 x : Dev,
    d.opHostLinkReset lost = x.dropLink lost ∧ LinkOnly d0 x ∧ d0.regs = d.regs ∧
      d0.beyondLink = (d.host.hostMem, d0.allOuts, d.cfg, d.job, d.fire, d.rast) ∧ ∀ o ∈ d0.allOuts, o.post = false := by
  unfold opHostLinkReset
  extract_lets stop stopW moving cut waits streams host strip pair d0
  refine ⟨d0, cut.foldl (fun acc o => acc.complete o DMA_ABORTED 0 []) d0, rfl, .foldl (fun y o ho => ?_) (.refl d0), rfl, rfl,
    fun o ho => ?_⟩
  · obtain ⟨w, -, rfl⟩ := List.mem_map.1 ho
    exact .complete rfl (.refl y)
  · have told : ∃ w, stop w = o := by
      simp only [allOuts, d0, waits, streams, List.mem_append, List.mem_map, List.mem_filterMap, Option.mem_toList] at ho
      rcases ho with (((⟨w, -, e⟩ | ⟨-, ⟨w, -, rfl⟩, e⟩) | ho) | ⟨-, ⟨w, -, rfl⟩, e⟩) | ⟨-, ⟨c, -, rfl⟩, e⟩
      · exact ⟨w, e⟩
      · exact ⟨w.out, e⟩
      · obtain ⟨w, -, e⟩ := Option.map_eq_some_iff.1 ho
        exact ⟨w, e⟩
      · exact ⟨w.out, e⟩
      · obtain ⟨w, -, e⟩ := Option.map_eq_some_iff.1 e
        exact ⟨w, e⟩
    obtain ⟨w, rfl⟩ := told
    rfl

section
variable (d : Dev) (lost : Bool)

/-- A register of HOSTQ but the count and the status is as the pairs and the vectors leave it. -/
theorem rd_dropLink_of_hostq {a : Nat} (block : a / 0x10000 = 1) (flr : a ≠ Reg.HOSTQ_FLR_COUNT) (st : a ≠ Reg.HOSTQ_STATUS) :
    (d.dropLink lost).rd a = d.disableAll.resetMsix.rd a :=
  (rd_countReset_ne _ flr (not_logReg_of_hostq block)).trans (rd_showReset_ne _ lost st)

theorem dropLink_pairOff {q : Nat} (hq : q < 16) : pairOff q (d.dropLink lost) := by
  have hostq : Reg.HOSTQ_Q_CTRL q / 0x10000 = 1 ∧ Reg.HOSTQ_STATUS < Reg.HOSTQ_FLR_COUNT ∧ Reg.HOSTQ_FLR_COUNT < Reg.HOSTQ_Q_CTRL q ∧
      Reg.HOSTQ_Q_CTRL q < Reg.HOSTQ_MSIX_TABLE 0 := by
    unfold Reg.HOSTQ_Q_CTRL Reg.HOSTQ_FLR_COUNT Reg.HOSTQ_STATUS Reg.HOSTQ_MSIX_TABLE
    omega
  obtain ⟨block, st, flr, msix⟩ := hostq
  exact pairOff_of_eq ((d.rd_dropLink_of_hostq lost block (by omega) (by omega)).trans (rd_resetMsix_ne _ msix))
    ((countReset_host _).trans ((showReset_host _ lost).trans (resetMsix_host _))) (d.disableAll_off hq)

theorem dropLink_vectorOff {v : Nat} (hv : v < 64) : vectorOff v (d.dropLink lost) := by
  have hostq : Reg.HOSTQ_MSIX_TABLE (4 * v + 3) / 0x10000 = 1 ∧ Reg.HOSTQ_STATUS < Reg.HOSTQ_FLR_COUNT ∧
      Reg.HOSTQ_FLR_COUNT < Reg.HOSTQ_MSIX_TABLE (4 * v + 3) := by
    unfold Reg.HOSTQ_MSIX_TABLE Reg.HOSTQ_FLR_COUNT Reg.HOSTQ_STATUS
    omega
  obtain ⟨block, st, flr⟩ := hostq
  exact (d.rd_dropLink_of_hostq lost block (by omega) (by omega)).trans (resetMsix_off _ hv)

theorem dropLink_status : (d.dropLink lost).bit Reg.HOSTQ_STATUS 8 = true ∧
    (lost = true → (d.dropLink lost).bit Reg.HOSTQ_STATUS 0 = false) := by
  have status : (d.dropLink lost).rd Reg.HOSTQ_STATUS = (d.disableAll.resetMsix.showReset lost).rd Reg.HOSTQ_STATUS :=
    rd_countReset_ne _ (by decide) (not_logReg_of_hostq rfl)
  unfold bit
  rw [status]
  exact showReset_bits _ lost

end

section
variable {d x : Dev} {lost : Bool} (h : LinkOnly d x)
include h

theorem LinkOnly.shown : LinkOnly d (x.disableAll.resetMsix.showReset lost) := h.disableAll.resetMsix.showReset

theorem LinkOnly.dropLink_beyond : (x.dropLink lost).beyondLink = d.beyondLink := (countReset_beyond _).trans h.shown.beyond

theorem LinkOnly.dropLink_count : (x.dropLink lost).rd Reg.HOSTQ_FLR_COUNT = min (d.rd Reg.HOSTQ_FLR_COUNT + 1) 0xFFFFFFFF := by
  unfold dropLink
  rw [rd_countReset_same, h.shown.regs _ (by unfold linkReg logReg; decide)]

theorem LinkOnly.rd_dropLink {a : Nat} (out : ¬linkReg a) (flr : a ≠ Reg.HOSTQ_FLR_COUNT) : (x.dropLink lost).rd a = d.rd a :=
  (rd_countReset_ne _ flr fun log => out (.inr log)).trans (h.shown.regs a out)

end

/-! ## A trained link (R87, R478) -/

theorem wakeRelease_wakePin (d : Dev) : d.wakeRelease.pwr.wakePin = false := by
  unfold wakeRelease
  split
  · rfl
  · next released => exact Bool.eq_false_iff.2 released

end Dev

/-- Settles O11: an aggregation time-out is the completion vector, a trained link its operation, and a reset of the link what it shows. -/
theorem hostLinkEventsTakeEffect : Obligations.HostLinkEventsTakeEffect := by
  unfold Obligations.HostLinkEventsTakeEffect
  refine ⟨fun s q runs irq waits => ?timeout, fun s lost runs => ?reset, fun s w sp runs => ?up⟩
  case timeout => exact Does.of_withDev runs rfl (if_pos (by simp [irq, waits]))
  case reset =>
    obtain ⟨d0, x, steps, link, same, beyond0, silent⟩ := s.dev.opHostLinkReset_steps lost
    have rd0 : ∀ a, d0.rd a = s.dev.rd a := fun a => congrArg (fun m => (mapGet 0 m a).toNat) same
    have beyond := link.dropLink_beyond (lost := lost)
    rw [beyond0] at beyond
    simp only [Dev.beyondLink, Prod.mk.injEq] at beyond
    obtain ⟨mem, outs, cfg, job, fire, rast⟩ := beyond
    have count := link.dropLink_count (lost := lost)
    rw [rd0] at count
    rw [← outs] at silent
    obtain ⟨seen, down⟩ := x.dropLink_status lost
    have kept := fun a out flr => (link.rd_dropLink (lost := lost) (a := a) out flr).trans (rd0 a)
    exact ⟨x.dropLink lost, Does.of_withDev runs rfl steps, fun q => x.dropLink_pairOff lost q.isLt,
      fun v => x.dropLink_vectorOff lost v.isLt, seen, down, count, silent, mem, cfg, job, fire, rast,
      kept _ (by unfold linkReg logReg; decide) (by decide), kept _ (by unfold linkReg logReg; decide) (by decide)⟩
  case up => exact ⟨Does.of_withDev runs rfl rfl, s.dev.wakeRelease_wakePin⟩

end Sys2Proof.Machine
end

section
/-!
PROOFS. The checks of R110 in their order, a command that fails one of them, and a transfer that fails (R92, R96, R107, R110).
-/

namespace Sys2Proof.Machine

/-! ## The checks of R110 -/

/-- The PLANE of an entry's command and the one the entry names are the pair's. -/
def Dev.planeOk (d : Dev) (q : Nat) (c : CmdInfo) (e : List Byte) : Prop := opPlane c.opc = d.qPlane q ∧ entPlane e = d.qPlane q

/-- No bit that the command's layout does not name is set, and no enumerated parameter holds a reserved value. -/
def entryFieldsOk (c : CmdInfo) (e : List Byte) : Prop :=
  entFlags e < 4 ∧ numAt e 6 2 = 0 ∧ paramsOk c e = true ∧ enumsOk c.opc e = true

/-- The features that the command needs are accepted. -/
def Dev.featsOk (d : Dev) (c : CmdInfo) (e : List Byte) : Prop := ∀ n ∈ needFeats c.opc e, d.feat n = true

/-- The last check: the state of the module, before the lock of the feature set. -/
def Dev.stateCheck (d : Dev) (q : Nat) (c : CmdInfo) : Option Nat :=
  if d.inRecovery then (if c.recovery ∧ q = 2 then none else some RECOVERY_ONLY)
  else if d.inHold ∧ c.hold = false then some IN_HOLD
  else if d.inService ∧ c.service = false then some NOT_IN_HOLD
  else if d.featLocked = false ∧ c.recovery = false then some FEATURES_UNLOCKED
  else none

namespace Dev

theorem cmdCheck_of_unknown (d : Dev) (q : Nat) {e : List Byte} (unknown : cmdInfo (entOpcode e) = none) :
    d.cmdCheck q e = some INVALID_OPCODE := by
  simp [cmdCheck, unknown]

section
variable {d : Dev} {q : Nat} {e : List Byte} {c : CmdInfo} (known : cmdInfo (entOpcode e) = some c)
include known

theorem cmdCheck_of_plane (other : ¬d.planeOk q c e) : d.cmdCheck q e = some WRONG_PLANE := by
  simp only [cmdCheck, known]
  exact if_pos (not_and_or.1 other)

variable (plane : d.planeOk q c e)
include plane

theorem cmdCheck_of_fields (bad : ¬entryFieldsOk c e) : d.cmdCheck q e = some RESERVED_FIELD := by
  simp only [cmdCheck, known]
  refine (if_neg (not_or.2 ⟨not_not.2 plane.1, not_not.2 plane.2⟩)).trans (if_pos ?_)
  simpa only [entryFieldsOk, not_and_or, Nat.not_lt, Bool.not_eq_true] using bad

variable (fields : entryFieldsOk c e)
include fields

/-- Past the plane and the fields, the features decide, and then the state of the module. -/
theorem cmdCheck_of_fieldsOk : d.cmdCheck q e = if (needFeats c.opc e).all d.feat = false then some FEATURE_NOT_ACCEPTED
    else d.stateCheck q c := by
  obtain ⟨flags, zero, params, enums⟩ := fields
  simp only [cmdCheck, known]
  exact (if_neg (not_or.2 ⟨not_not.2 plane.1, not_not.2 plane.2⟩)).trans (if_neg (by simp [flags, zero, params, enums]))

theorem cmdCheck_of_feats (lacking : ¬d.featsOk c e) : d.cmdCheck q e = some FEATURE_NOT_ACCEPTED :=
  (cmdCheck_of_fieldsOk known plane fields).trans (if_pos (by simpa [featsOk] using lacking))

theorem cmdCheck_of_featsOk (feats : d.featsOk c e) : d.cmdCheck q e = d.stateCheck q c :=
  (cmdCheck_of_fieldsOk known plane fields).trans (if_neg (by simpa [featsOk] using feats))

end

/-! ### The state of the module (R110) -/

/-- HOLD, SERVICE and RECOVERY are values of one field. -/
theorem other_states_of_inHold {d : Dev} (hold : d.inHold = true) : d.inRecovery = false ∧ d.inService = false := by
  have field : d.rdF Reg.SYS_STATUS 0 4 = 1 := beq_iff_eq.1 hold
  simp [inRecovery, inService, field]

theorem other_states_of_inService {d : Dev} (service : d.inService = true) : d.inRecovery = false ∧ d.inHold = false := by
  have field : d.rdF Reg.SYS_STATUS 0 4 = 2 := beq_iff_eq.1 service
  simp [inRecovery, inHold, field]

section
variable {d : Dev} (q : Nat) {c : CmdInfo}

theorem stateCheck_of_recovery (recovery : d.inRecovery = true) (other : ¬(c.recovery = true ∧ q = 2)) :
    d.stateCheck q c = some RECOVERY_ONLY := by
  simp only [stateCheck, recovery, if_true, if_neg other]

theorem stateCheck_of_service (service : d.inService = true) (other : c.service = false) : d.stateCheck q c = some NOT_IN_HOLD := by
  obtain ⟨recovery, hold⟩ := other_states_of_inService service
  simp [stateCheck, recovery, hold, service, other]

variable (hold : d.inHold = true)
include hold

theorem stateCheck_of_hold (other : c.hold = false) : d.stateCheck q c = some IN_HOLD := by
  simp [stateCheck, (other_states_of_inHold hold).1, hold, other]

/-- A command that HOLD accepts passes when the feature set is locked, or when it is one of RECOVERY as well. -/
theorem stateCheck_of_accepted (accepted : c.hold = true) :
    d.stateCheck q c = if d.featLocked = false ∧ c.recovery = false then some FEATURES_UNLOCKED else none := by
  obtain ⟨recovery, service⟩ := other_states_of_inHold hold
  simp [stateCheck, recovery, service, accepted]

end

/-! ## A command that fails a check (R92, R96, R110) -/

/-- It completes with the check's status, and its body does not run. -/
theorem runCmd_of_refused {d d1 : Dev} {q opc st : Nat} {o : Out} (front : d.frontIs q opc = true)
    (start : d.startFront q = some (o, d1)) (check : d1.cmdCheck q o.entry = some st) (body : Dev → Out → Dev) :
    d.runCmd q opc body = (d1.complete o st 0 []).drain q := by
  simp [runCmd, front, start, check]

/-! ## A transfer that fails (R107) -/

/-- The command named at the front of a pair is the opcode of the entry that stands there. -/
theorem fetched_of_frontIs {d : Dev} {q opc : Nat} (front : d.frontIs q opc = true) :
    ∃ e rest, (d.qs q).fetched = e :: rest ∧ entOpcode e = opc := by
  unfold frontIs at front
  cases fetched : (d.qs q).fetched with
  | nil => simp [fetched] at front
  | cons e rest =>
    simp only [fetched, Bool.and_eq_true, beq_iff_eq] at front
    exact ⟨e, rest, rfl, front.1⟩

section
variable {d : Dev} {q : Nat} {dma : Dma} (failed : dma.err ≠ none)
include failed

theorem opDmaError_of_admit (front : d.frontIs q 0x0120 = true) :
    d.opDmaError q dma = d.runMatched q 0x0120 dma (admitBody dma) := by
  obtain ⟨e, rest, fetched, opcode⟩ := fetched_of_frontIs front
  simp [opDmaError, fetched, opcode, failed]

theorem opDmaError_of_load (front : d.frontIs q 0x0210 = true) :
    d.opDmaError q dma = d.runMatched q 0x0210 dma (loadBody dma) := by
  obtain ⟨e, rest, fetched, opcode⟩ := fetched_of_frontIs front
  simp [opDmaError, fetched, opcode, failed]

/-- The two matched commands that move data are not among the bodies of the others. -/
theorem opDmaError_of_body {opc : Nat} {body : Dev → Out → Dev} (front : d.frontIs q opc = true)
    (moves : dmaBody dma opc = some body) : d.opDmaError q dma = d.runCmd q opc body := by
  obtain ⟨e, rest, fetched, opcode⟩ := fetched_of_frontIs front
  have plain : opc ≠ 0x0120 ∧ opc ≠ 0x0210 := by
    constructor <;> rintro rfl <;> exact absurd moves (by simp [dmaBody])
  simp [opDmaError, fetched, opcode, failed, plain, moves]

end

theorem frontIs_of_Runs {d d1 : Dev} {q opc : Nat} {dma : Dma} {o : Out} (h : d.Runs q opc dma o d1) : d.frontIs q opc = true :=
  h.elim (fun alone => alone.1.front) fun matched => matched.front

/-- A failing data request, not the read of a list segment, is what stops the transfer. -/
theorem dataErr_of_request {dma : Dma} {x : DmaErr} (failed : dma.err = some x) (request : x.seg = none) : dataErr dma = some x := by
  simp [dataErr, failed, request]

section
variable {d : Dev} {o : Out} {dma : Dma} {els : List (Nat × Nat)} {x : DmaErr} (hbuf : d.buffer o.entry dma = .ok els)
  (failed : dma.err = some x) (request : x.seg = none)
include hbuf failed request

theorem dmaIn_of_failed {chk : Nat → Option Nat} (hchk : chk (bufTotal els) = none) (k : Dev → List Byte → Dev) :
    d.dmaIn o dma chk k = (d.complete o DMA_READ_ERROR (errOffset els x) []).dmaErrorEvent (opPlane (entOpcode o.entry))
      (dataAddr els (errOffset els x)) (errOffset els x) x := by
  simp [dmaIn, hbuf, hchk, dataErr_of_request failed request]

theorem dmaOut_of_failed (bytes : Nat → List Byte) (k : Dev → Nat → Dev) :
    d.dmaOut o dma bytes k =
      ((d.scatter els (((bytes (bufTotal els)).take (bufTotal els)).take (errOffset els x))).complete o DMA_WRITE_ERROR
        (errOffset els x) []).dmaErrorEvent (opPlane (entOpcode o.entry)) (dataAddr els (errOffset els x)) (errOffset els x) x := by
  simp [dmaOut, dmaPut, hbuf, dataErr_of_request failed request]

end

end Dev

/-! ## The obligation -/

/-- Settles O17: the checks in their order by the equation of each, and a failing transfer by the front command's own body. -/
theorem commandsAreCheckedBeforeTheyRun : Obligations.CommandsAreCheckedBeforeTheyRun := by
  unfold Obligations.CommandsAreCheckedBeforeTheyRun
  refine ⟨fun d q e => ⟨d.cmdCheck_of_unknown q, fun c known => ?order⟩,
    fun s q o d1 st dma fails runs start check => ?refused,
    fun s q dma o d1 opc body hs moves failed => ?runs, fun s q dma o d1 failed => ?matched,
    fun d o dma chk k els x hbuf failed request hchk => Dev.dmaIn_of_failed hbuf failed request hchk k,
    fun d o dma bytes k els x hbuf failed request => Dev.dmaOut_of_failed hbuf failed request bytes k⟩
  case order =>
    have state : ∀ {st : Option Nat}, d.planeOk q c e → entryFieldsOk c e → d.featsOk c e → d.stateCheck q c = st →
        d.cmdCheck q e = st := fun plane fields feats check => (Dev.cmdCheck_of_featsOk known plane fields feats).trans check
    exact ⟨Dev.cmdCheck_of_plane known, Dev.cmdCheck_of_fields known, Dev.cmdCheck_of_feats known,
      fun plane fields feats recovery other => state plane fields feats (Dev.stateCheck_of_recovery q recovery other),
      fun plane fields feats hold other => state plane fields feats (Dev.stateCheck_of_hold q hold other),
      fun plane fields feats service other => state plane fields feats (Dev.stateCheck_of_service q service other),
      fun plane fields feats hold accepted unlocked other => state plane fields feats
        ((Dev.stateCheck_of_accepted q hold accepted).trans (if_pos ⟨unlocked, other⟩)),
      fun plane fields feats hold accepted locked => state plane fields feats
        ((Dev.stateCheck_of_accepted q hold accepted).trans (if_neg (by simp [locked])))⟩
  case refused =>
    have refuse : ∀ {c : Instr} {opc : Nat} {body : Dev → Out → Dev}, exec c s = s.withDev (s.dev.runCmd q opc body) →
        s.dev.frontIs q opc = true → Does c s ((d1.complete o st 0 []).drain q) := fun row front =>
      Does.of_withDev runs row (Dev.runCmd_of_refused front start check _)
    exact ⟨refuse rfl, refuse rfl, refuse rfl, refuse rfl, refuse rfl, refuse rfl, refuse rfl, refuse rfl, refuse rfl⟩
  case runs =>
    exact Does.of_withDev hs.runs rfl ((Dev.opDmaError_of_body failed hs.front moves).trans (Dev.runCmd_of_Starts hs body))
  case matched =>
    exact ⟨fun h => Does.of_withDev (Dev.halted_of_Runs h) rfl
        ((Dev.opDmaError_of_admit failed (Dev.frontIs_of_Runs h)).trans (Dev.runMatched_of_Runs h _)),
      fun h => Does.of_withDev (Dev.halted_of_Runs h) rfl
        ((Dev.opDmaError_of_load failed (Dev.frontIs_of_Runs h)).trans (Dev.runMatched_of_Runs h _))⟩

end Sys2Proof.Machine
end

section
/-!
PROOFS. The pending records are listed, and banks read and loaded (R115, R120, R122, R512).
-/

namespace Sys2Proof.Machine

namespace Dev

/-! ## COMMIT_LIST and TABLE_READ (R115, R120) -/

/-- COMMIT_LIST names a bar, or all of them. -/
theorem listBody_of_ok {d : Dev} {o : Out} {dma : Dma} {els : List (Nat × Nat)} (hbuf : d.buffer o.entry dma = .ok els)
    (herr : dataErr dma = none) (bar : byteAt o.entry 8 < 8 ∨ byteAt o.entry 8 = 0xFF) :
    let bs := (((d.listCommits (byteAt o.entry 8)).take (bufTotal els / 32)).flatMap commitBytes).take (bufTotal els)
    listBody dma d o = (d.scatter els bs).complete o OK (bs.length / 32) [] :=
  (if_neg (by omega)).trans (dmaOut_of_ok hbuf herr _ _)

theorem readBody_of_ok {d : Dev} {o : Out} {dma : Dma} {els : List (Nat × Nat)} (hbuf : d.buffer o.entry dma = .ok els)
    (herr : dataErr dma = none) (bank : d.bankArgsOk (byteAt o.entry 9) (byteAt o.entry 8) (byteAt o.entry 10) = true) :
    let bs := d.bankBytes (byteAt o.entry 9) (byteAt o.entry 8) (byteAt o.entry 10) (byteAt o.entry 11)
    readBody dma d o = (d.scatter els (bs.take (bufTotal els))).complete o OK (crc32c bs) [] :=
  (if_neg (by simp [bank])).trans (dmaOut_of_ok hbuf herr _ _)

end Dev

/-- A TABLE_LOAD that runs does what its body gives; then the maps that wait for a bank are tried again (R198). -/
theorem Does.of_tableLoad {s : State} {q : Fin 16} {dma : Dma} {o : Out} {d d' : Dev} (hs : s.dev.Runs q 0x0210 dma o d)
    (body : d.loadBody dma o = d') : Does (.tableLoad q dma) s (d'.drain q).retryAll :=
  Does.of_withDev (Dev.halted_of_Runs hs) rfl (congrArg Dev.retryAll ((Dev.runMatched_of_Runs hs _).trans (by rw [body])))

namespace Dev

/-! ## TABLE_LOAD (R122, R512) -/

/-- The bank that a TABLE_LOAD names is locked. -/
def loadLocked (d : Dev) (o : Out) : Bool :=
  d.tableLocked (byteAt o.entry 9) (byteAt o.entry 8) (byteAt o.entry 10) (byteAt o.entry 11)

/-- The bar and the head that a TABLE_LOAD names hold such a bank. -/
def loadNamesBank (d : Dev) (o : Out) : Bool := d.bankArgsOk (byteAt o.entry 9) (byteAt o.entry 8) (byteAt o.entry 10)

section
variable {d : Dev} {o : Out} {dma : Dma}

theorem loadBody_of_locked (locked : d.loadLocked o = true) : d.loadBody dma o = d.complete o TABLE_LOCKED 0 [] := if_pos locked

variable (free : d.loadLocked o = false)
include free

theorem loadBody_of_no_bank (none_named : d.loadNamesBank o = false) : d.loadBody dma o = d.complete o OUT_OF_RANGE 0 [] :=
  (if_neg (ne_true_of_eq_false free)).trans (if_pos none_named)

variable (named : d.loadNamesBank o = true)
include named

/-- The transfer of a free bank, once it is named, checks the length before data moves, and then what has been read. -/
theorem loadBody_of_named : d.loadBody dma o = d.dmaIn o dma
    (fun n => if n = bankLen (byteAt o.entry 8) then none else some OUT_OF_RANGE)
    (fun x bs =>
      if crc32c bs ≠ numAt o.entry 12 4 then x.complete o TABLE_CRC 0 []
      else if byteAt o.entry 8 = 2 ∧ screenOk bs = false then x.complete o OUT_OF_RANGE 0 []
      else (x.setBank (byteAt o.entry 9) (byteAt o.entry 8) (byteAt o.entry 10) (byteAt o.entry 11) bs).complete o OK 0 []) :=
  (if_neg (ne_true_of_eq_false free)).trans (if_neg (ne_false_of_eq_true named))

variable {els : List (Nat × Nat)} (hbuf : d.buffer o.entry dma = .ok els) (herr : dataErr dma = none)
include hbuf

theorem loadBody_of_length (other : bufTotal els ≠ bankLen (byteAt o.entry 8)) :
    d.loadBody dma o = d.complete o OUT_OF_RANGE 0 [] := by
  rw [loadBody_of_named free named]
  simp [dmaIn, hbuf, other]

variable (len : bufTotal els = bankLen (byteAt o.entry 8))
include herr len

theorem loadBody_of_crc (other : crc32c (dmaBytes dma (bufTotal els)) ≠ numAt o.entry 12 4) :
    d.loadBody dma o = d.complete o TABLE_CRC 0 [] :=
  (loadBody_of_named free named).trans ((dmaIn_of_ok hbuf (if_pos len) herr _).trans (if_pos other))

variable (crc : crc32c (dmaBytes dma (bufTotal els)) = numAt o.entry 12 4)
include crc

theorem loadBody_of_screen (screen : byteAt o.entry 8 = 2) (bad : screenOk (dmaBytes dma (bufTotal els)) = false) :
    d.loadBody dma o = d.complete o OUT_OF_RANGE 0 [] :=
  (loadBody_of_named free named).trans ((dmaIn_of_ok hbuf (if_pos len) herr _).trans
    ((if_neg (not_not.2 crc)).trans (if_pos ⟨screen, bad⟩)))

theorem loadBody_of_good (good : byteAt o.entry 8 ≠ 2 ∨ screenOk (dmaBytes dma (bufTotal els)) = true) :
    d.loadBody dma o = (d.setBank (byteAt o.entry 9) (byteAt o.entry 8) (byteAt o.entry 10) (byteAt o.entry 11)
      (dmaBytes dma (bufTotal els))).complete o OK 0 [] :=
  (loadBody_of_named free named).trans ((dmaIn_of_ok hbuf (if_pos len) herr _).trans
    ((if_neg (not_not.2 crc)).trans (if_neg fun bad => good.elim (· bad.1) fun ok => by simp [ok] at bad)))

end

end Dev

/-! ## The obligation -/

/-- Settles O22: each command by the equations of its body. -/
theorem listsAndTablesAreReadAndLoaded : Obligations.ListsAndTablesAreReadAndLoaded := by
  unfold Obligations.ListsAndTablesAreReadAndLoaded
  refine ⟨⟨fun s q dma o d els hs hbuf herr => ?list, fun s q dma o d els hs hbuf herr => ?read⟩, fun s q dma o d els hs => ?load⟩
  case list => exact fun bar => Does.of_runCmd hs rfl (Dev.listBody_of_ok hbuf herr bar)
  case read => exact fun bank => Does.of_runCmd hs rfl (Dev.readBody_of_ok hbuf herr bank)
  case load =>
    refine ⟨fun locked => Does.of_tableLoad hs (Dev.loadBody_of_locked locked),
      fun free none_named => Does.of_tableLoad hs (Dev.loadBody_of_no_bank free none_named), fun free named hbuf herr => ?_⟩
    exact ⟨fun other => Does.of_tableLoad hs (Dev.loadBody_of_length free named hbuf other),
      fun len other => Does.of_tableLoad hs (Dev.loadBody_of_crc free named hbuf herr len other),
      fun len crc screen bad => Does.of_tableLoad hs (Dev.loadBody_of_screen free named hbuf herr len crc screen bad),
      fun len crc good => Does.of_tableLoad hs (Dev.loadBody_of_good free named hbuf herr len crc good)⟩

end Sys2Proof.Machine
end

section
/-!
PROOFS. Strips are stored, wait for room, or go through a compression lane (R121, R145, R173, R178, R179).
-/

namespace Sys2Proof.Machine

namespace Dev

/-! ## What leaves the waiting submissions alone -/

theorem KeepsInner.complete {d x : Dev} {o : Out} {st result : Nat} {data : List Byte} (h : KeepsInner d x) :
    KeepsInner d (x.complete o st result data) := by
  obtain ⟨⟨_, _, _, _, _, _, e⟩, -⟩ := x.complete_completes o st result data
  exact e ▸ h

theorem KeepsInner.waits {d x : Dev} (h : KeepsInner d x) : x.strip.waits = d.strip.waits :=
  congrArg StripSt.waits (Prod.ext_iff.1 (Prod.ext_iff.1 (Prod.ext_iff.1 h).2).2).1

theorem freeChains_waits (d : Dev) (j : Job) (b : Nat) (arriving : Bool) : (d.freeChains j b arriving).strip.waits = d.strip.waits := by
  unfold freeChains
  extract_lets p starts done cut
  split
  · rfl
  · split <;> rfl

theorem showRepeat_strip (d : Dev) : d.showRepeat.strip = d.strip := wr_strip _ _ _

theorem storeStrip_waits (d : Dev) (j : Job) (b : Nat) (s : Strip) : (d.storeStrip j b s).strip.waits = d.strip.waits := by
  unfold storeStrip
  extract_lets p ends dens seen dense p1 d1 use block d2 d3 d4
  have stored : d2.strip.waits = d.strip.waits := by
    show (if j.rep then _ else d1).strip.waits = _
    split
    · exact (congrArg StripSt.waits (showRepeat_strip _)).trans rfl
    · rfl
  have dense_noted : KeepsInner d2 d3 := .ite (.event rfl) rfl
  have short_noted : KeepsInner d2 (d4.showFill b) := .wr (.ite (.event dense_noted) dense_noted)
  exact short_noted.waits.trans stored

theorem takeCmp_waits (n : Nat) (d : Dev) : (takeCmp n d).strip.waits = d.strip.waits := by
  fun_induction takeCmp n d with
  | case1 => rfl
  | case2 => assumption
  | case3 => rfl

theorem fillCmp_waits (d : Dev) : d.fillCmp.strip.waits = d.strip.waits :=
  (KeepsInner.foldl (fun h => .wr h) rfl : KeepsInner (takeCmp 4 d) d.fillCmp).waits.trans (takeCmp_waits 4 d)

theorem addStream_waits (d : Dev) (c : CmpJob) : (d.addStream c).strip.waits = d.strip.waits := fillCmp_waits _

/-! ## A submission whose turn comes (R121) -/

/-- The module with one waiting submission. -/
def withWait (d : Dev) (w : StripWait) : Dev := { d with strip := { d.strip with waits := [w] } }

/-- A fresh submission, as the command submits it. -/
theorem submitBody_of_fresh {d : Dev} {w : StripWait} (alone : d.strip.waits = []) (job : w.job = subJob w.out.entry)
    (bar : w.bar = subBar w.out.entry) (fresh : w.done = none) : submitBody w.dma d w.out = (d.withWait w).kick w.job w.bar := by
  have same : w = { out := w.out, job := subJob w.out.entry, bar := subBar w.out.entry, dma := w.dma } := by
    rw [← job, ← bar, ← fresh]
  unfold submitBody withWait
  rw [← same, alone]
  rfl

theorem kickPlane_of_no_waits (job b n : Nat) {d : Dev} (idle : d.strip.waits = []) : kickPlane job b n d = d := by
  cases n with
  | zero => rfl
  | succ n => simp [kickPlane, idle, firstWait]

section
variable {d : Dev} {w : StripWait} (alone : d.strip.waits = []) (idle : d.rawBusy w.job w.bar = false)
include alone idle

/-- The only waiting submission has its turn on the module without it. -/
theorem kick_withWait : (d.withWait w).kick w.job w.bar =
    (d.stripTurn w).elim (d.withWait w) (kickPlane w.job w.bar 1) := by
  have busy : (d.withWait w).rawBusy w.job w.bar = false := idle
  have taken : ({ d.withWait w with strip := { (d.withWait w).strip with waits := [] } } : Dev) = d := by
    show ({ d with strip := { d.strip with waits := [] } } : Dev) = d
    rw [← alone]
  have found : firstWait w.job w.bar (d.withWait w).strip.waits = some w := by simp [firstWait, withWait]
  have dropped : dropWait w.job w.bar (d.withWait w).strip.waits = [] := by simp [dropWait, withWait]
  show kickPlane w.job w.bar 2 _ = _
  rw [kickPlane]
  simp only [busy, found, dropped, taken]
  cases d.stripTurn w <;> rfl

/-- A turn that ends, with nothing else waiting, ends the turns of the plane. -/
theorem kick_of_turn {d' : Dev} (turn : d.stripTurn w = some d') (none_left : d'.strip.waits = []) :
    (d.withWait w).kick w.job w.bar = d' := by
  rw [kick_withWait alone idle, turn]
  exact kickPlane_of_no_waits _ _ _ none_left

theorem kick_of_waiting (turn : d.stripTurn w = none) : (d.withWait w).kick w.job w.bar = d.withWait w := by
  rw [kick_withWait alone idle, turn]
  rfl

end

/-- The submission is the next strip of a plane of the job. -/
structure IsNext (d : Dev) (j : Job) (w : StripWait) : Prop where
  job : d.findJob w.job = some j
  bar : w.bar < 8
  inJob : bitOf j.barMask w.bar = true
  strip : subStrip w.out.entry = (d.plane j.id w.bar).nextStrip
  open_ : (d.plane j.id w.bar).lastSeen = false

theorem stripTurn_of_IsNext {d : Dev} {j : Job} {w : StripWait} (next : d.IsNext j w) (fresh : w.done = none) :
    d.stripTurn w = if entOpcode w.out.entry = 0x0202 then d.rawTurn j w else d.submitTurn j w := by
  have bar : ¬(8 ≤ w.bar ∨ bitOf j.barMask w.bar = false) := by simp [next.bar, next.inJob]
  simp only [stripTurn, next.job, fresh, if_neg bar]
  exact if_neg (by simp [next.strip, next.open_])

/-! ## STRIP_SUBMIT (R121, R145, R157) -/

section
variable {d : Dev} {j : Job} {w : StripWait} {els : List (Nat × Nat)} (next : d.IsNext j w) (fresh : w.done = none)
  (opcode : entOpcode w.out.entry = 0x0201) (hbuf : d.buffer w.out.entry w.dma = .ok els) (herr : dataErr w.dma = none)
  (env : d.envOk j w.bar (subStrip w.out.entry) (subLast w.out.entry) (dmaBytes w.dma (bufTotal els)) = true)
include next fresh opcode hbuf herr env

/-- An accepted envelope is stored when there is room. -/
theorem stripTurn_of_accepted :
    d.stripTurn w = d.putStrip j w.bar w.out (stripOf (subLast w.out.entry) (dmaBytes w.dma (bufTotal els))) := by
  rw [stripTurn_of_IsNext next fresh]
  simp [opcode, submitTurn, hbuf, herr, env]

end

section
variable {d : Dev} {j : Job} {b : Nat} {o : Out} {s : Strip}

theorem putStrip_of_room (room : (d.freeChains j b (s.history == 0)).roomFor j (stripBytes s) b = some OK) :
    d.putStrip j b o s = some (((d.freeChains j b (s.history == 0)).storeStrip j b s).complete o OK (stripBytes s) []) := by
  simp [putStrip, room]

theorem putStrip_of_no_room (full : (d.freeChains j b (s.history == 0)).roomFor j (stripBytes s) b = none) :
    d.putStrip j b o s = none := by
  simp [putStrip, full]

/-- Storing a strip and completing its command leave the waiting submissions alone. -/
theorem stored_waits (st result : Nat) (arriving : Bool) :
    (((d.freeChains j b arriving).storeStrip j b s).complete o st result []).strip.waits = d.strip.waits :=
  (KeepsInner.complete rfl : KeepsInner _ _).waits.trans ((storeStrip_waits _ j b s).trans (freeChains_waits d j b arriving))

end

/-! ## STRIP_SUBMIT_RAW (R179) -/

/-- The raw strip is well sized for the plane, of its pre-transform, within the job, and asks no CRC that is not accepted. -/
structure RawFits (d : Dev) (j : Job) (w : StripWait) (size : Nat) : Prop where
  lines : 1 ≤ numAt w.out.entry 20 4 ∧ numAt w.out.entry 20 4 ≤ 4096
  size : size = decodedSize j.mode (numAt w.out.entry 20 4)
  pre : byteAt w.out.entry 15 = (mapGet {} j.planes w.bar : PlaneRec).pre
  inJob : (d.plane j.id w.bar).nextLine + numAt w.out.entry 20 4 ≤ j.lines
  even : evenOk j (d.plane j.id w.bar).nextLine (numAt w.out.entry 20 4) (subLast w.out.entry) = true
  crc : bitOf (byteAt w.out.entry 14) 0 = false ∨ d.feat 15 = true

/-- The stream that a raw strip becomes after the pre-transform (R173, R179). -/
def rawStream (j : Job) (w : StripWait) (bytes : List Byte) : CmpJob :=
  { use := 2, input := rawInput j (mapGet {} j.planes w.bar : PlaneRec).pre bytes, verify := bitOf (byteAt w.out.entry 14) 1,
    out := some w.out }

theorem rawTurn_of_RawFits {d : Dev} {j : Job} {w : StripWait} {els : List (Nat × Nat)} (fits : d.RawFits j w (bufTotal els))
    (hbuf : d.buffer w.out.entry w.dma = .ok els) (herr : dataErr w.dma = none) (lanes : d.rd Reg.DFL_CMP_OK ≠ 0) :
    d.rawTurn j w = some (d.addStream (rawStream j w (dmaBytes w.dma (bufTotal els)))) := by
  obtain ⟨lines, size, pre, inJob, even, crc⟩ := fits
  have envelope : ¬(byteAt w.out.entry 15 ≠ (mapGet {} j.planes w.bar : PlaneRec).pre ∨
      j.lines < (d.plane j.id w.bar).nextLine + numAt w.out.entry 20 4 ∨
      evenOk j (d.plane j.id w.bar).nextLine (numAt w.out.entry 20 4) (subLast w.out.entry) = false ∨
      (bitOf (byteAt w.out.entry 14) 0 = true ∧ d.feat 15 = false)) := by
    rintro (other | beyond | odd | ⟨asked, absent⟩)
    · exact other pre
    · omega
    · simp [even] at odd
    · simp [asked, absent] at crc
  unfold rawTurn
  refine (if_neg (by omega)).trans (congrArg some ((dmaIn_of_ok hbuf (if_pos size) herr _).trans ?_))
  exact (if_neg envelope).trans (if_neg lanes)

/-! ## Streams on the compression lanes (R173, R178) -/

/-- A stream is with the lanes no more. -/
def leaveLane (d : Dev) (c : CmpJob) : Dev := { d with strip := { d.strip with cmpWait := putStream c [] d.strip.cmpWait } }

section
variable {d : Dev} {bad : Bool}

theorem opStream_of_idle (idle : nextStream (d.fillCmp.strip.cmpWait.filter (fun c => c.lane.isSome)) = none) :
    d.opStream bad = d.fillCmp := by
  simp [opStream, idle]

variable {c : CmpJob} (next : nextStream (d.fillCmp.strip.cmpWait.filter (fun c => c.lane.isSome)) = some c)
include next

/-- A stream that ends leaves its lane, verified or not. -/
theorem opStream_of_next : d.opStream bad =
    if c.verify && bad then (d.fillCmp.leaveLane c).verifyFail c
    else (d.fillCmp.leaveLane c).fillCmp.streamDone c (deflate c.input ((d.fillCmp.leaveLane c).cmpTables c.use) c.verify) := by
  simp only [opStream, next, leaveLane]

end

/-- A lane whose stream failed its self-verification is out of service, which is counted and reported (R178). -/
def laneOut (d : Dev) (c : CmpJob) : Dev :=
  ((d.wrBit Reg.DFL_CMP_OK (c.lane.getD 0) false).bump Reg.DFL_VERIFY_FAIL_COUNT).event 1 .cmpVerifyFail (vals [c.lane.getD 0, c.use])

/-- The owner of a failed stream is told: its command completes, or the pair keeps the failure. -/
def tellOwner (d : Dev) (c : CmpJob) : Dev :=
  match c.out with
  | some o => d.complete o SELF_VERIFY_FAIL 0 []
  | none => { d with pair := { d.pair with failed := d.pair.failed ++ [(c.item, c.bar, SELF_VERIFY_FAIL)] } }

/-- While lanes are left, the streams and the strips that wait go on. -/
theorem verifyFail_of_lanes {d x : Dev} {c : CmpJob} (told : (d.laneOut c).tellOwner c = x) (lanes : x.rd Reg.DFL_CMP_OK ≠ 0) :
    d.verifyFail c = x.fillCmp.kickAll := by
  unfold verifyFail
  extract_lets lane d1 block d2 raws d3
  have out : d1 = d.laneOut c := rfl
  have same : d2 = x := by
    rw [← told, ← out]
    unfold d2 tellOwner
    cases c.out <;> rfl
  rw [same]
  exact if_neg lanes

end Dev

/-! ## The obligation -/

/-- Settles O23: a submission by the turn that its plane gives it, a stream by the lane it leaves. -/
theorem stripsAreStoredOrCompressed : Obligations.StripsAreStoredOrCompressed := by
  unfold Obligations.StripsAreStoredOrCompressed
  refine ⟨fun d j w els alone idle job bar inJob strip last fresh opcode hbuf herr env => ?stored,
    fun s q dma o d j els hs opcode alone idle job bar inJob strip last many few hbuf herr size pre lines even crc lanes => ?raw,
    fun s bad runs => ?stream⟩
  case stored =>
    have turn := Dev.stripTurn_of_accepted ⟨job, bar, inJob, strip, last⟩ fresh opcode hbuf herr env
    have kicked := fun room => Dev.kick_of_turn alone idle (turn.trans (Dev.putStrip_of_room room))
      ((Dev.stored_waits _ _ _).trans alone)
    refine ⟨fun s q hs ofJob ofBar => ?submit, fun s waiting runs room => ?room⟩
    case submit =>
      have body := Dev.submitBody_of_fresh alone ofJob ofBar fresh
      exact ⟨fun room => Does.of_runCmd hs rfl (body.trans (kicked room)),
        fun full => Does.of_runCmd hs rfl (body.trans (Dev.kick_of_waiting alone idle (turn.trans (Dev.putStrip_of_no_room full))))⟩
    case room =>
      refine Does.of_withDev runs rfl ?_
      rw [waiting]
      exact kicked room
  case raw =>
    let w : StripWait := { out := o, job := subJob o.entry, bar := subBar o.entry, dma := dma }
    have turn : d.stripTurn w = some (d.addStream (Dev.rawStream j w (dmaBytes dma (bufTotal els)))) :=
      (Dev.stripTurn_of_IsNext ⟨job, bar, inJob, strip, last⟩ rfl).trans ((if_pos opcode).trans
        (Dev.rawTurn_of_RawFits ⟨⟨many, few⟩, size, pre, lines, even, crc⟩ hbuf herr lanes))
    exact Does.of_runCmd hs rfl ((Dev.submitBody_of_fresh (w := w) alone rfl rfl rfl).trans
      (Dev.kick_of_turn alone idle turn ((Dev.addStream_waits _ _).trans alone)))
  case stream =>
    refine ⟨fun idle => Does.of_withDev runs rfl (Dev.opStream_of_idle idle), fun c next => ?_⟩
    have ends := Dev.opStream_of_next (bad := bad) next
    refine ⟨fun good => Does.of_withDev runs rfl (ends.trans (if_neg ?_)), fun verify failed => ?_⟩
    · rcases good with h | h <;> simp [h]
    · have fails := ends.trans (if_pos (by simp [verify, failed]))
      refine ⟨fun own lanes => Does.of_withDev runs rfl (fails.trans (Dev.verifyFail_of_lanes ?_ lanes)),
        fun o own lanes => Does.of_withDev runs rfl (fails.trans (Dev.verifyFail_of_lanes ?_ lanes))⟩
      all_goals
        unfold Dev.tellOwner Dev.laneOut Dev.leaveLane
        rw [own]

end Sys2Proof.Machine
end

section
/-!
PROOFS. Archived frames and statistics records are read (R120, R350, R351).
-/

namespace Sys2Proof.Machine

namespace Dev

/-! ## FRAME_READ (R351) -/

/-- The slot that holds the archived frame whose number, in 32 bits, is asked. -/
def archived (d : Dev) (o : Out) : Option (Nat × Option (Nat × List Byte)) :=
  (d.cs (byteAt o.entry 8)).slots.find? fun z => z.2.map (fun y => y.1 % 0x100000000) == some (numAt o.entry 12 4)

/-- What FRAME_READ does with the frame of a slot: it is compressed, or written as it stands. -/
def frameFrom (dma : Dma) (d : Dev) (o : Out) (k : Nat) (bs : List Byte) : Dev :=
  if bitOf (byteAt o.entry 16) 0 then
    match d.buffer o.entry dma with
    | .ok els =>
      if d.rd Reg.DFL_CMP_OK = 0 then d.complete o LANE_FAULT 0 []
      else d.addStream { use := 3, input := bs, verify := d.cfB Reg.DFL_CMP_CTRL 3, out := some o, item := 16 * byteAt o.entry 8 + k,
                         els := els, err := dataErr dma }
    | _ => d.dmaOut o dma (fun _ => []) (fun y _ => y)
  else d.dmaOut o dma (fun _ => bs) (fun y n => y.complete o OK n [])

/-- FRAME_READ goes by the slot that is found. -/
theorem frameBody_eq (dma : Dma) (d : Dev) (o : Out) :
    let gone := d.complete o (if byteAt o.entry 8 ≤ 1 then FRAME_GONE else OUT_OF_RANGE) 0 []
    d.frameBody dma o = (d.archived o).elim gone fun z => z.2.elim gone fun y => frameFrom dma d o z.1 y.2 := by
  have asked {p : Nat × Option (Nat × List Byte) → Bool}
      (h : ∀ z, p z = (z.2.map (fun y => y.1 % 0x100000000) == some (numAt o.entry 12 4))) :
      (d.cs (byteAt o.entry 8)).slots.find? p = d.archived o := congrArg (List.find? · _) (funext h)
  unfold frameBody
  dsimp only
  rw [asked (by rintro ⟨k, _ | y⟩ <;> rfl)]
  rcases d.archived o with _ | ⟨k, _ | y⟩ <;> rfl

theorem frameBody_of_gone {dma : Dma} {d : Dev} {o : Out} (gone : ∀ k n bs, d.archived o ≠ some (k, some (n, bs))) :
    d.frameBody dma o = d.complete o (if byteAt o.entry 8 ≤ 1 then FRAME_GONE else OUT_OF_RANGE) 0 [] := by
  rw [frameBody_eq]
  rcases hit : d.archived o with _ | ⟨k, _ | ⟨n, bs⟩⟩
  · rfl
  · rfl
  · exact absurd hit (gone k n bs)

section
variable {dma : Dma} {d : Dev} {o : Out} {k n : Nat} {bs : List Byte} {els : List (Nat × Nat)}
  (hit : d.archived o = some (k, some (n, bs))) (hbuf : d.buffer o.entry dma = .ok els)
include hit

theorem frameBody_of_archived : d.frameBody dma o = frameFrom dma d o k bs := by
  rw [frameBody_eq, hit]
  rfl

include hbuf

theorem frameBody_of_raw (herr : dataErr dma = none) (raw : bitOf (byteAt o.entry 16) 0 = false) :
    d.frameBody dma o = (d.scatter els (bs.take (bufTotal els))).complete o OK (bs.take (bufTotal els)).length [] :=
  (frameBody_of_archived hit).trans ((if_neg (ne_true_of_eq_false raw)).trans (dmaOut_of_ok hbuf herr _ _))

variable (packed : bitOf (byteAt o.entry 16) 0 = true)
include packed

/-- Without a compression lane in service a frame cannot be compressed. -/
theorem frameBody_of_no_lane (lanes : d.rd Reg.DFL_CMP_OK = 0) : d.frameBody dma o = d.complete o LANE_FAULT 0 [] := by
  rw [frameBody_of_archived hit]
  simp [frameFrom, packed, hbuf, lanes]

theorem frameBody_of_packed (herr : dataErr dma = none) (lanes : d.rd Reg.DFL_CMP_OK ≠ 0) :
    d.frameBody dma o = d.addStream
      { use := 3, input := bs, verify := d.cfB Reg.DFL_CMP_CTRL 3, out := some o, item := 16 * byteAt o.entry 8 + k, els := els } := by
  rw [frameBody_of_archived hit]
  simp [frameFrom, packed, hbuf, lanes, herr]

end

/-! ## STATS_READ (R350) -/

/-- The camera and the number of records that STATS_READ asks are in range. -/
def statsInRange (o : Out) : Prop := ¬(1 < byteAt o.entry 8 ∨ numAt o.entry 16 2 = 0 ∨ 1024 < numAt o.entry 16 2)

/-- The records from the number asked on are in the ring no more: there are records, and all are later. -/
def statsGone (d : Dev) (o : Out) : Prop :=
  (d.cs (byteAt o.entry 8)).ring ≠ [] ∧ ∀ r ∈ (d.cs (byteAt o.entry 8)).ring, numAt o.entry 12 4 < r.1

/-- In a list, to satisfy a condition somewhere and everywhere is to have elements, all of which satisfy it. -/
theorem any_and_all_iff {α : Type} (l : List α) (p : α → Bool) :
    (l.any p && l.all p) = true ↔ l ≠ [] ∧ ∀ a ∈ l, p a = true := by
  cases l with
  | nil => simp
  | cons a l => simp +contextual

section
variable {dma : Dma} {d : Dev} {o : Out}

theorem statsBody_of_range (bad : ¬statsInRange o) : d.statsBody dma o = d.complete o OUT_OF_RANGE 0 [] := if_pos (not_not.1 bad)

variable (range : statsInRange o)
include range

theorem statsBody_of_gone (gone : d.statsGone o) : d.statsBody dma o = d.complete o FRAME_GONE 0 [] :=
  (if_neg range).trans (if_pos ((any_and_all_iff _ _).2 ⟨gone.1, fun r hr => decide_eq_true (gone.2 r hr)⟩))

theorem statsBody_of_ok {els : List (Nat × Nat)} (there : ¬d.statsGone o) (hbuf : d.buffer o.entry dma = .ok els)
    (herr : dataErr dma = none) :
    let sel := (((d.cs (byteAt o.entry 8)).ring.filter (fun r => decide (numAt o.entry 12 4 ≤ r.1))).take (numAt o.entry 16 2)).map
      Prod.snd
    let bs := ((sel.take (bufTotal els / 2880)).flatten).take (bufTotal els)
    d.statsBody dma o = (d.scatter els bs).complete o OK (bs.length / 2880) [] := by
  refine (if_neg range).trans ((if_neg fun gone => there ?_).trans (dmaOut_of_ok hbuf herr _ _))
  obtain ⟨some_stored, later⟩ := (any_and_all_iff _ _).1 gone
  exact ⟨some_stored, fun r hr => of_decide_eq_true (later r hr)⟩

end

end Dev

/-! ## The obligation -/

/-- Settles O38: FRAME_READ by the slot that is found, STATS_READ by the equations of its body. -/
theorem framesAndStatisticsAreRead : Obligations.FramesAndStatisticsAreRead := by
  unfold Obligations.FramesAndStatisticsAreRead
  refine ⟨fun s q dma o d hs => ⟨fun none_archived => ?gone, fun k bs els archived hbuf herr => ?frame⟩,
    fun s q dma o d hs => ?stats⟩
  case gone =>
    exact Does.of_runCmd hs rfl (Dev.frameBody_of_gone fun k n bs hit => none_archived k bs ⟨n, hit⟩)
  case frame =>
    obtain ⟨n, hit⟩ := archived
    exact ⟨fun raw => Does.of_runCmd hs rfl (Dev.frameBody_of_raw hit hbuf herr raw),
      fun packed lanes => Does.of_runCmd hs rfl (Dev.frameBody_of_no_lane hit hbuf packed lanes),
      fun packed lanes => Does.of_runCmd hs rfl (Dev.frameBody_of_packed hit hbuf packed herr lanes)⟩
  case stats =>
    exact ⟨fun bad => Does.of_runCmd hs rfl (Dev.statsBody_of_range (not_not.2 bad)),
      fun range gone => Does.of_runCmd hs rfl (Dev.statsBody_of_gone range gone),
      fun els range there hbuf herr => Does.of_runCmd hs rfl (Dev.statsBody_of_ok range there hbuf herr)⟩

end Sys2Proof.Machine
end

section
/-!
PROOFS. The redundant pair starts and talks: START, the frames of the Shank, heartbeats and the timers (R76, R117, R416, R417, R419-R434).
-/

namespace Sys2Proof.Machine

namespace Dev

/-! ## START (R76, R117, R416, R417) -/

/-- The KEY that a START carries (R424). -/
def startKey (d : Dev) (o : Out) : Nat := matchKey o.entry (mapGet 0 d.pair.counts (countKey o.entry))

/-- A START with its KEY and DIGEST. -/
def keyedStart (d : Dev) (o : Out) : Out := { o with mkey := some (d.startKey o, d.matchDigest o.entry ⟨[], [], none⟩) }

/-- The partner's START has succeeded with the same KEY: its final CMD frame is kept. -/
def keptStart (d : Dev) (o : Out) : Option CmdFrame := d.pair.kept.find? fun f => f.key == d.startKey o && f.status == 0

theorem keptStart_none {d : Dev} {o : Out} (absent : ∀ f ∈ d.pair.kept, ¬(f.key = d.startKey o ∧ f.status = 0)) :
    d.keptStart o = none :=
  List.find?_eq_none.2 fun f hf => by simpa using absent f hf

section
variable {d : Dev} {o : Out}

theorem startBody_of_refused {st : Nat} (refused : d.startRefusal = some st) : d.startBody o = d.complete o st 0 [] := by
  simp [startBody, refused]

variable (allowed : d.startRefusal = none) (pair : d.pairOn = true) (alive : d.partnerAlive = true)
include allowed pair alive

/-- Behind a partner with a role, START goes by the partner's CMD frame, or by the pair that has formed. -/
theorem startBody_of_partner_role (role : d.partnerRole ≠ 0) : d.startBody o = (d.keptStart o).elim
    (if d.formed then ((d.startAs 2 2).startResync).complete o OK 0 [] else d.complete o PAIR_MISMATCH 0 [])
    (({ d with pair := { d.pair with kept := d.pair.kept.filter (fun g => g.key != d.startKey o) } } : Dev).startResolve
      (d.keyedStart o)) := by
  simp only [startBody, allowed, pair, alive, role, Bool.true_eq_false, if_false, ne_eq, not_false_eq_true, if_true]
  show _ = (List.find? _ _).elim _ _
  unfold startKey
  cases List.find? _ _ <;> rfl

/-- Beside a partner in HOLD the preferred module leads, and the other waits for it. -/
theorem startBody_of_partner_hold (hold : d.partnerRole = 0) : d.startBody o =
    if d.pair.partnerHold = false ∨ d.preferred = true then d.startActive (d.keyedStart o)
    else { d with pair := { d.pair with startWait := some (d.keyedStart o) } } := by
  simp only [startBody, allowed, pair, alive, hold, Bool.true_eq_false, if_false, ne_eq, not_true_eq_false]
  rfl

end

/-! ## What of the Shank is not taken (R419, R420) -/

section
variable {d : Dev} {f : List Blk}

/-- Without pair operation or a lane of the Shank nothing is heard. -/
theorem shankRx_of_deaf (deaf : d.pairOn = false ∨ d.shankUp = false) : d.shankRx f = d := if_pos deaf

/-- A frame with a block error, another TYPE or a bad CRC is counted. -/
theorem shankRx_of_broken (pair : d.pairOn = true) (up : d.shankUp = true)
    (broken : deframe f = none ∨ ∃ ty bs, deframe f = some (ty, bs) ∧ (ty ≠ 0x10 ∨ shankCrcOk bs = false)) :
    d.shankRx f = d.bump Reg.PAIR_SHANK_CRC_COUNT := by
  unfold shankRx
  rw [if_neg (by simp [pair, up])]
  rcases broken with none_framed | ⟨ty, bs, framed, other⟩
  · rw [none_framed]
  · rw [framed]
    exact if_neg fun good => other.elim (· good.1) fun bad => by simp [bad] at good

/-- A STATE frame whose SEQ does not count has no effect beyond its epoch and SEQ. -/
theorem shankRx_of_repeated_state (heard : d.hears 9 f) (again : ((d.seeEpoch (epochOf f)).shankSeq (seqOf f)).2 = false) :
    d.shankRx f = ((d.seeEpoch (epochOf f)).shankSeq (seqOf f)).1 := by
  obtain ⟨-, -, -, -, kind⟩ := id heard
  rw [shankRx_of_hears heard, shankFrame]
  simp only [kind]
  exact (if_neg (by decide)).trans ((if_neg (by decide)).trans (if_pos again))

end

/-! ## What frames do by the role of the module (R424-R427, R430, R431, R435-R438) -/

section
variable {d : Dev} {body : List Byte}

theorem loopFrame_of_standby (standby : d.role = 2) : d.loopFrame body = { d with pair := { d.pair with
    loops := d.pair.loops ++ [(byteAt body 0, byteAt body 1, numAt body 4 4, body.drop 8)] } } := if_pos standby

theorem loopFrame_of_other (other : d.role ≠ 2) : d.loopFrame body = d := if_neg other

/-- The digests of a bar are for this module: it is the STANDBY, and the bar is not being synchronised. -/
def digestsFor (d : Dev) (body : List Byte) : Prop := d.role = 2 ∧ byteAt body 8 < 8 ∧ d.syncing (byteAt body 8) = false

theorem crcFrame_of_mine (mine : d.digestsFor body) :
    let b := byteAt body 8
    let new := (List.range 16).map (fun i => (numAt body 0 8 + i, numAt body (16 + 4 * i) 4))
    d.crcFrame body = ({ d with pair := { d.pair with
      theirs := mapSet [] d.pair.theirs b (mapGet [] d.pair.theirs b ++ new) } } : Dev).compareLines b := by
  obtain ⟨standby, bar, settled⟩ := mine
  exact if_neg (by simp [standby, bar, settled])

theorem crcFrame_of_other (other : ¬d.digestsFor body) : d.crcFrame body = d :=
  if_pos (by simpa only [digestsFor, not_and_or, Nat.not_lt, Bool.not_eq_false] using other)

/-- The ACTIVE has no use for a CMD frame. -/
theorem cmdFrame_of_active (active : d.role = 1) : d.cmdFrame body = d := if_pos active

theorem jobFrame_of_other (other : d.role ≠ 2) : d.jobFrame body = d := if_pos other

/-- The origin that a JOB frame carries is the active job's, or is kept until the job is active (R425). -/
theorem jobFrame_of_standby (standby : d.role = 2) : d.jobFrame body =
    let x : Rat := ((sgn 64 (numAt body 8 8) : Int) : Rat) - d.deltaX
    if (d.findJob (numAt body 0 4)).any Job.active then d.setOrigin (numAt body 0 4) x false
    else { d with pair := { d.pair with jobX := mapInsert (numAt body 0 4) x (mapErase (numAt body 0 4) d.pair.jobX) } } := by
  refine (if_neg (not_not.2 standby)).trans ?_
  cases d.findJob (numAt body 0 4) <;> rfl

theorem resignFrame_of_standby (standby : d.role = 2) (able : d.stepState ≠ 2) : d.resignFrame = d.becomeActive 3 d.nextEpoch :=
  if_pos ⟨standby, able⟩

theorem resignFrame_of_other (other : d.role ≠ 2 ∨ d.stepState = 2) : d.resignFrame = d :=
  if_neg fun h => other.elim (· h.1) h.2

theorem diagFrame_of_alone (alone : d.role = 0) : d.diagFrame body = d := if_pos alone

/-- DIAG resolves the mismatch that the module has met (R430). -/
theorem diagFrame_of_mismatch {m : Mismatch} (role : d.role ≠ 0) (met : d.pair.mismatch = some m) :
    d.diagFrame body = d.resolveMismatch m (byteAt body 9 == 1) := by
  refine (if_neg role).trans ?_
  simp only [met, Option.isSome_some, if_true]

theorem syncFrame_of_other (other : d.role ≠ 1) : d.syncFrame body = d := if_pos other

/-- The ACTIVE serves the request that a SYNC_REQ names (R436, R437). -/
theorem syncFrame_of_active (active : d.role = 1) : d.syncFrame body =
    if byteAt body 0 = 1 then d.serveResync
    else if byteAt body 0 = 2 then ({ d with pair := { d.pair with takeback := true } } : Dev).tryTakeback
    else d := if_neg (not_not.2 active)

/-- RELEASED is due in a STANDBY when a takeover is pending or it sends MASTER on a bar (R435). -/
def releaseDue (d : Dev) : Prop := d.role = 2 ∧ (d.takeoverPending = true ∨ d.pair.master ≠ 0)

theorem releasedFrame_of_due (due : d.releaseDue) : d.releasedFrame = d.becomeActive 4 (d.rd Reg.PAIR_EPOCH + 1) := if_pos due

theorem releasedFrame_of_idle (idle : ¬d.releaseDue) : d.releasedFrame = d := if_neg idle

end

/-! ## Timers (R416, R424, R430, R432) -/

section
variable {d : Dev}

theorem opHelloSend_of_pair (pair : d.pairOn = true) :
    let turn := if d.pair.helloIn then (pubI (((5 * (d.tc - d.pair.echoAt) : Nat) : Rat) / 2)).toNat else 0
    d.opHelloSend = d.shank 1 (leBytes 1 d.slot ++ leBytes 1 (b2n d.preferred + 2 * b2n d.inHold) ++
      leBytes 2 (d.rdF Reg.PAIR_PIPE_COMPAT 0 16) ++ leBytes 4 d.cfgDigest ++ leBytes 4 (d.rd Reg.PAIR_EPOCH_MAX) ++ leBytes 4 0 ++
      leBytes 8 d.tc ++ leBytes 8 d.pair.echo ++ leBytes 4 turn ++ leBytes 4 0) := if_pos pair

theorem opHelloSend_of_alone (alone : d.pairOn = false) : d.opHelloSend = d := if_neg (ne_true_of_eq_false alone)

/-- The position of a heartbeat takes at most a free value (R422), which no register and no record shows. -/
theorem hbPos_shown (d : Dev) : d.hbPos.2.regs = d.regs ∧ d.hbPos.2.log = d.log := by
  unfold hbPos
  split <;> exact ⟨rfl, rfl⟩

/-- A heartbeat carries the next number, and shows and logs nothing (R421). -/
theorem opHeartbeatSend_of_up (pair : d.pairOn = true) (up : d.shankUp = true) :
    d.opHeartbeatSend.pair.hbSeq = d.pair.hbSeq + 1 ∧ (∀ a, d.opHeartbeatSend.rd a = d.rd a) ∧ d.opHeartbeatSend.log = d.log := by
  obtain ⟨regs, log⟩ := d.hbPos_shown
  unfold opHeartbeatSend
  rw [if_pos (by simp [pair, up])]
  exact ⟨rfl, fun a => congrArg (fun m => (mapGet 0 m a).toNat) regs, log⟩

theorem opHeartbeatSend_of_down (down : d.pairOn = false ∨ d.shankUp = false) : d.opHeartbeatSend = d :=
  if_neg (by rcases down with h | h <;> simp [h])

/-- The partner is lost: the pair is undone and the heartbeats missed are counted, which is reported (R432). -/
def partnerLost (d : Dev) : Dev :=
  let p : PairSt := { d.pair with hbLast := none, rxSeq := 0, helloIn := false, helloBoth := false, part := [] }
  let d1 := ((({ d with pair := p } : Dev).wrBit Reg.PAIR_STATUS 5 false).wrBit Reg.PAIR_STATUS 4 false).bumpBy
    Reg.PAIR_HB_MISS_COUNT 4
  d1.event 2 .pairLoss (vals [d1.rd Reg.PAIR_EPOCH])

theorem opPairLoss_of_dead (dead : d.partnerAlive = false) : d.opPairLoss = d := if_neg (ne_true_of_eq_false dead)

theorem opPairLoss_of_alive {x : Dev} (lost : d.partnerLost = x) (alive : d.partnerAlive = true) : d.opPairLoss =
    if x.role = 2 then (if x.stepState = 2 then x.enterHold false id else x.becomeActive 2 x.nextEpoch)
    else if x.role = 1 then x.showRates
    else x := by
  subst lost
  exact if_pos alive

/-- A START that waits for the partner's is out of step when its time is up (R416). -/
theorem opMatchTimeout_of_start {key : Nat} {o : Out} (start : d.pair.startWait = some o) : d.opMatchTimeout key =
    if o.mkey.map Prod.fst = some key then
      ({ d with pair := { d.pair with startWait := none } } : Dev).complete { o with mkey := none } OUT_OF_STEP 0 []
    else d := by
  simp only [opMatchTimeout, start]

section
variable {key : Nat} (none_starts : d.pair.startWait = none)
include none_starts

/-- A command that waits for its frame fails (R424). -/
theorem opMatchTimeout_of_wait {w : PairWait} (waits : d.pair.waits.find? (fun w => w.key == key && !w.seen) = some w) :
    d.opMatchTimeout key =
      ({ d with pair := { d.pair with waits := d.pair.waits.filter (fun x => x.key != key) } } : Dev).matchFail w.out := by
  simp only [opMatchTimeout, none_starts, waits]

/-- A frame that waits for its command is dropped and counted (R424). -/
theorem opMatchTimeout_of_no_wait (none_waits : d.pair.waits.find? (fun w => w.key == key && !w.seen) = none) :
    d.opMatchTimeout key = if d.pair.kept.any (fun f => f.key == key) then
      (({ d with pair := { d.pair with kept := d.pair.kept.filter (fun f => f.key != key) } } : Dev).bump
        Reg.PAIR_CMD_MISMATCH_COUNT).outOfStep 4
    else d := by
  simp only [opMatchTimeout, none_starts, none_waits]

end

theorem opResolveTimeout_of_none (none_met : d.pair.mismatch = none) : d.opResolveTimeout = d := by
  simp only [opResolveTimeout, none_met]

theorem opResolveTimeout_of_mismatch {m : Mismatch} (met : d.pair.mismatch = some m) :
    d.opResolveTimeout = d.resolveMismatch m (m.other.getD false) := by
  simp only [opResolveTimeout, met]

end

end Dev

/-! ## The obligation -/

/-- Settles O47: START by the equations of its body, a frame by what its kind does in the module's role, a timer by its operation. -/
theorem thePairStartsAndTalks : Obligations.ThePairStartsAndTalks := by
  unfold Obligations.ThePairStartsAndTalks
  refine ⟨fun s q o d hs => ?start, fun s f body d runs => ?frames, fun s runs => ?timers⟩
  case start =>
    refine ⟨fun st refused => Does.of_runMatched hs rfl (Dev.startBody_of_refused refused),
      fun allowed single => Does.of_runMatched hs rfl (Dev.startBody_of_alone o allowed single),
      fun allowed pair alone => Does.of_runMatched hs rfl (Dev.startBody_of_no_partner o allowed pair alone),
      fun allowed pair alive role absent => ?_, fun f allowed pair alive role kept => ?_,
      fun allowed pair alive hold lead => ?_, fun allowed pair alive hold follow => ?_⟩
    · have behind := (Dev.startBody_of_partner_role allowed pair alive role).trans
        (congrArg (Option.elim · _ _) (Dev.keptStart_none absent))
      exact ⟨fun formed => Does.of_runMatched hs rfl (behind.trans (if_pos formed)),
        fun apart => Does.of_runMatched hs rfl (behind.trans (if_neg (ne_true_of_eq_false apart)))⟩
    · have found : d.keptStart o = some f := kept
      exact Does.of_runMatched hs rfl ((Dev.startBody_of_partner_role allowed pair alive role).trans (congrArg (Option.elim · _ _) found))
    · exact Does.of_runMatched hs rfl ((Dev.startBody_of_partner_hold allowed pair alive hold).trans (if_pos lead))
    · exact Does.of_runMatched hs rfl ((Dev.startBody_of_partner_hold allowed pair alive hold).trans (if_neg follow))
  case frames =>
    have taken {c : Instr} {kind : Nat} {x : Dev} (row : exec c s = s.withDev (s.dev.shankRx f))
        (named : kind ≠ 0 ∧ kind ≤ 0xD ∧ kind ≠ 2 ∧ kind ≠ 9) (heard : s.dev.Shank kind f d body)
        (effect : Dev.shankBody kind d body = x) : Does c s x := Does.of_Shank heard runs named row effect
    refine ⟨fun h => taken rfl (by decide) h rfl, fun h => Does.of_withDev runs rfl (Dev.shankRx_heartbeat h),
      fun deaf => Does.of_withDev runs rfl (Dev.shankRx_of_deaf deaf),
      fun pair up broken => Does.of_withDev runs rfl (Dev.shankRx_of_broken pair up broken),
      fun h => taken rfl (by decide) h rfl, fun h => taken rfl (by decide) h rfl, fun h => ?loop, fun h => ?digests,
      fun h => ⟨taken rfl (by decide) h rfl, Dev.cmdFrame_of_active⟩, fun h => ?job, fun h => ?resign, fun h => ?diag, fun h => ?sync,
      fun h => ?released, fun h => ?state⟩
    case loop =>
      exact ⟨fun standby => taken rfl (by decide) h (Dev.loopFrame_of_standby standby),
        fun other => taken rfl (by decide) h (Dev.loopFrame_of_other other)⟩
    case digests =>
      exact ⟨fun mine => taken rfl (by decide) h (Dev.crcFrame_of_mine mine),
        fun other => taken rfl (by decide) h (Dev.crcFrame_of_other other)⟩
    case job =>
      refine ⟨fun other => taken rfl (by decide) h (Dev.jobFrame_of_other other), fun j standby known active => ?_,
        fun standby inactive => ?_⟩
      · exact taken rfl (by decide) h ((Dev.jobFrame_of_standby standby).trans (if_pos (by simp [known, active])))
      · exact taken rfl (by decide) h ((Dev.jobFrame_of_standby standby).trans
          (if_neg (ne_true_of_eq_false ((Option.any_eq_false _ _).2 inactive))))
    case resign =>
      exact ⟨fun standby able => taken rfl (by decide) h (Dev.resignFrame_of_standby standby able),
        fun other => taken rfl (by decide) h (Dev.resignFrame_of_other other)⟩
    case diag =>
      exact ⟨fun alone => taken rfl (by decide) h (Dev.diagFrame_of_alone alone),
        fun m role met => taken rfl (by decide) h (Dev.diagFrame_of_mismatch role met)⟩
    case sync =>
      exact ⟨fun other => taken rfl (by decide) h (Dev.syncFrame_of_other other),
        fun active resync => taken rfl (by decide) h ((Dev.syncFrame_of_active active).trans (if_pos resync)),
        fun active back => taken rfl (by decide) h ((Dev.syncFrame_of_active active).trans
          ((if_neg (by omega)).trans (if_pos back))),
        fun active noResync noBack => taken rfl (by decide) h ((Dev.syncFrame_of_active active).trans
          ((if_neg noResync).trans (if_neg noBack)))⟩
    case released =>
      exact ⟨fun due => taken rfl (by decide) h (Dev.releasedFrame_of_due due),
        fun idle => taken rfl (by decide) h (Dev.releasedFrame_of_idle idle)⟩
    case state =>
      exact ⟨fun counts => Does.of_withDev runs rfl (Dev.shankRx_state h counts),
        fun again => Does.of_withDev runs rfl (Dev.shankRx_of_repeated_state h again)⟩
  case timers =>
    intro d turn p d1 d2
    refine ⟨fun pair => Does.of_withDev runs rfl (Dev.opHelloSend_of_pair pair),
      fun alone => Does.of_withDev runs rfl (Dev.opHelloSend_of_alone alone),
      fun pair up => ⟨_, Does.of_withDev runs rfl rfl, Dev.opHeartbeatSend_of_up pair up⟩,
      fun down => Does.of_withDev runs rfl (Dev.opHeartbeatSend_of_down down),
      fun dead => Does.of_withDev runs rfl (Dev.opPairLoss_of_dead dead), ?_⟩
    have lost := Dev.opPairLoss_of_alive (d := s.dev) (x := d2) rfl
    refine ⟨fun alive standby out => Does.of_withDev runs rfl ((lost alive).trans ((if_pos standby).trans (if_pos out))),
      fun alive standby able => Does.of_withDev runs rfl ((lost alive).trans ((if_pos standby).trans (if_neg able))),
      fun alive active => Does.of_withDev runs rfl ((lost alive).trans ((if_neg (by omega)).trans (if_pos active))),
      fun alive notActive notStandby => Does.of_withDev runs rfl ((lost alive).trans ((if_neg notStandby).trans (if_neg notActive))),
      fun key o start => ?_, fun key w none_starts waits => Does.of_withDev runs rfl (Dev.opMatchTimeout_of_wait none_starts waits),
      fun key none_starts none_waits => ?_,
      fun none_met => Does.of_withDev runs rfl (Dev.opResolveTimeout_of_none none_met),
      fun m met => Does.of_withDev runs rfl (Dev.opResolveTimeout_of_mismatch met)⟩
    · have ends := Dev.opMatchTimeout_of_start (key := key) start
      exact ⟨fun same => Does.of_withDev runs rfl (ends.trans (if_pos same)),
        fun other => Does.of_withDev runs rfl (ends.trans (if_neg other))⟩
    · have ends := Dev.opMatchTimeout_of_no_wait none_starts none_waits
      exact ⟨fun kept => Does.of_withDev runs rfl (ends.trans (if_pos (by simpa using kept))),
        fun absent => Does.of_withDev runs rfl (ends.trans (if_neg (by simpa using absent)))⟩

end Sys2Proof.Machine
end

section
/-!
PROOFS. Firmware images are written, verified and selected (R123, R124, R503, R504).
-/

namespace Sys2Proof.Machine

namespace Dev

/-! ## FW_WRITE (R504) -/

/-- A slice may be written from the start of an image, or at the end of an open one, at a multiple of 4,096. -/
def sliceFits (d : Dev) (o : Out) : Prop :=
  ¬(numAt o.entry 12 4 % 4096 ≠ 0 ∨ (numAt o.entry 12 4 ≠ 0 ∧
    ¬((d.img (byteAt o.entry 8)).open_ = true ∧ (d.img (byteAt o.entry 8)).bytes.length = numAt o.entry 12 4)))

/-- The same as FW_WRITE tests it. -/
theorem not_sliceFits_iff (d : Dev) (o : Out) : ¬d.sliceFits o ↔ numAt o.entry 12 4 % 4096 ≠ 0 ∨ (numAt o.entry 12 4 ≠ 0 ∧
    ((d.img (byteAt o.entry 8)).open_ && (d.img (byteAt o.entry 8)).bytes.length == numAt o.entry 12 4) = false) := by
  simp only [sliceFits, not_not, Bool.and_eq_false_iff, beq_eq_false_iff_ne, not_and_or, Bool.not_eq_true, ne_eq]

section
variable {d : Dev} {o : Out} {dma : Dma} {fails : Bool}

theorem fwWriteBody_of_running (runs : d.imageRuns (byteAt o.entry 8) = true) :
    d.fwWriteBody dma fails o = d.complete o IMAGE_RUNNING 0 [] := if_pos runs

variable (idle : d.imageRuns (byteAt o.entry 8) = false)
include idle

theorem fwWriteBody_of_misplaced (bad : ¬d.sliceFits o) : d.fwWriteBody dma fails o = d.complete o OUT_OF_RANGE 0 [] :=
  (if_neg (ne_true_of_eq_false idle)).trans (if_pos ((d.not_sliceFits_iff o).1 bad))

/-- A slice that fits its image is programmed behind the slices before it, or the image is left empty when programming fails. -/
theorem fwWriteBody_of_fits {els : List (Nat × Nat)} (fits : d.sliceFits o) (hbuf : d.buffer o.entry dma = .ok els)
    (herr : dataErr dma = none) (room : numAt o.entry 12 4 + bufTotal els ≤ 0x10000000) :
    let k := byteAt o.entry 8
    let bs := dmaBytes dma (bufTotal els)
    d.fwWriteBody dma fails o =
      if fails then ((((d.setImg k {}).setImgState k 1).wr (imgVer k) 0).bump Reg.NVM_FLASH_ERR_COUNT).complete o NVM_FAULT 0 []
      else (d.program k (if numAt o.entry 12 4 = 0 then [] else (d.img k).bytes) bs).complete o OK bs.length [] :=
  (if_neg (ne_true_of_eq_false idle)).trans ((if_neg fun bad => (d.not_sliceFits_iff o).2 bad fits).trans
    (dmaIn_of_ok hbuf (if_neg (by omega)) herr _))

end

/-! ## FW_VERIFY and FW_SELECT (R124, R503) -/

section
variable {d : Dev} {o : Out}

theorem fwVerifyBody_of_running (runs : d.imageRuns (byteAt o.entry 8) = true) :
    d.fwVerifyBody o = d.complete o IMAGE_RUNNING 0 [] := if_pos runs

theorem fwSelectBody_of_running (runs : d.imageRuns (byteAt o.entry 8) = true) :
    d.fwSelectBody o = d.complete o IMAGE_RUNNING 0 [] := if_pos runs

variable (idle : d.imageRuns (byteAt o.entry 8) = false)
include idle

theorem fwVerifyBody_of_good (good : d.imgOk (byteAt o.entry 8) = true) :
    d.fwVerifyBody o = (d.setImgState (byteAt o.entry 8) 2).complete o OK (d.rd (imgVer (byteAt o.entry 8))) [] :=
  (if_neg (ne_true_of_eq_false idle)).trans (if_pos good)

theorem fwVerifyBody_of_bad (bad : d.imgOk (byteAt o.entry 8) = false) :
    d.fwVerifyBody o = (d.setImgState (byteAt o.entry 8) 3).complete o FW_SIGNATURE 0 [] :=
  (if_neg (ne_true_of_eq_false idle)).trans (if_neg (ne_true_of_eq_false bad))

theorem fwSelectBody_of_unverified (other : d.rdF Reg.NVM_BOOT (2 + 2 * byteAt o.entry 8) 2 ≠ 2) :
    d.fwSelectBody o = d.complete o FW_UNVERIFIED 0 [] :=
  (if_neg (ne_true_of_eq_false idle)).trans (if_pos other)

theorem fwSelectBody_of_verified (verified : d.rdF Reg.NVM_BOOT (2 + 2 * byteAt o.entry 8) 2 = 2) :
    d.fwSelectBody o = (d.wrF Reg.NVM_BOOT 0 1 (byteAt o.entry 8)).complete o OK 0 [] :=
  (if_neg (ne_true_of_eq_false idle)).trans (if_neg (not_not.2 verified))

end

end Dev

/-! ## The obligation -/

/-- Settles O56: each command by the equations of its body. -/
theorem firmwareIsWrittenVerifiedAndSelected : Obligations.FirmwareIsWrittenVerifiedAndSelected := by
  unfold Obligations.FirmwareIsWrittenVerifiedAndSelected
  refine ⟨fun s q dma fails o d hs => ?write, fun s q o d hs => ?verify, fun s q o d hs => ?select⟩
  case write =>
    refine ⟨fun runs => Does.of_runCmd hs rfl (Dev.fwWriteBody_of_running runs),
      fun idle bad => Does.of_runCmd hs rfl (Dev.fwWriteBody_of_misplaced idle (not_not.2 bad)),
      fun els idle fits hbuf herr room => ?_⟩
    have written := Dev.fwWriteBody_of_fits (fails := fails) idle fits hbuf herr room
    exact ⟨fun works => Does.of_runCmd hs rfl (written.trans (if_neg (ne_true_of_eq_false works))),
      fun broken => Does.of_runCmd hs rfl (written.trans (if_pos broken))⟩
  case verify =>
    exact ⟨fun runs => Does.of_runCmd hs rfl (Dev.fwVerifyBody_of_running runs),
      fun idle good => Does.of_runCmd hs rfl (Dev.fwVerifyBody_of_good idle good),
      fun idle bad => Does.of_runCmd hs rfl (Dev.fwVerifyBody_of_bad idle bad)⟩
  case select =>
    exact ⟨fun runs => Does.of_runCmd hs rfl (Dev.fwSelectBody_of_running runs),
      fun idle other => Does.of_runCmd hs rfl (Dev.fwSelectBody_of_unverified idle other),
      fun idle verified => Does.of_runCmd hs rfl (Dev.fwSelectBody_of_verified idle verified)⟩

end Sys2Proof.Machine
end

section
/-!
PROOFS. Admitted jobs are placed, run, aborted and answered for, and STOP ends firing (R115, R118, R131, R132, R137, R142, R247).
-/

namespace Sys2Proof.Machine

namespace Dev

/-! ## Placement (R137, R142) -/

/-- The placement engine takes the oldest entry it has not read. -/
theorem opPlacement_of_unread {d : Dev} {j : Job} (oldest : d.job.jobs.find? (fun k => !k.placed) = some j) :
    d.opPlacement = d.place j.id := by
  simp only [opPlacement, oldest]

theorem opPlacement_of_all_placed {d : Dev} (read : ∀ k ∈ d.job.jobs, k.placed = true) : d.opPlacement = d := by
  have none_left : d.job.jobs.find? (fun k => !k.placed) = none := List.find?_eq_none.2 fun k hk => by simp [read k hk]
  simp only [opPlacement, none_left]

/-- A live job that is not placed is given engines, lanes and its ceiling, and a changed ceiling is reported. -/
theorem place_of_unplaced {d : Dev} {j : Job} (live : d.findJob j.id = some j) (unplaced : j.placed = false) :
    let d0 := (d.assignEngines j).modJob j.id (fun k => { k with placed := true })
    let c := d0.ceilings j
    let d1 := ((d0.setCeil j.id c).assignLanes).showRates
    d.place j.id = if toMmMin c.2 (Machine.dpiOf j.pitch) = j.ceiling then d1 else d1.ceilEvent (d1.findJob j.id).toList 0 := by
  simp only [place, live, unplaced, Bool.false_eq_true, if_false]

/-! ## JOB_RUN (R118, R247, R251) -/

theorem runBody_of_unknown {d : Dev} {o : Out} (absent : d.findJob (numAt o.entry 8 4) = none) :
    d.runBody o = d.complete o NO_SUCH_JOB 0 [] := by
  simp only [runBody, absent]

/-- Outside the STANDBY an admitted job whose bars are free is scheduled from a named origin (MODE 0) or for a start time, unless that
has passed. -/
theorem runBody_of_known {d : Dev} {o : Out} {j : Job} (role : d.role ≠ 2) (known : d.findJob (numAt o.entry 8 4) = some j) :
    let id := numAt o.entry 8 4
    let at_ := numAt o.entry 16 8
    let x0 : Rat := ((sgn 64 at_ * 65536 : Int) : Rat)
    d.runBody o =
      if j.phase ≠ .admitted then d.complete o NO_SUCH_JOB 0 []
      else if d.barsBusy j then d.complete o BARS_BUSY 0 []
      else if byteAt o.entry 12 = 0 then
        if 64 * (d.minOmega j / 64) ≤ gridPhase (d.xAt d.tc) x0 (Machine.dpiOf j.pitch) then d.complete o START_PASSED 0 []
        else ((d.schedule j none).setOrigin id x0 false).keep o
      else if at_ < d.tc then d.complete o START_PASSED 0 []
      else (d.schedule j (some at_)).keep o := by
  simp only [runBody, known]
  exact if_neg fun standby => role standby.1

/-! ## JOB_ABORT and JOB_STATUS (R115, R131, R132) -/

section
variable {d : Dev} {o : Out}

theorem abortBody_of_live {j : Job} (live : d.findJob (numAt o.entry 8 4) = some j) :
    d.abortBody o = (d.abortJob (numAt o.entry 8 4)).complete o OK (abortResult j) (abortData j) := by
  simp only [abortBody, live]

theorem abortBody_of_ended {j : Job} (gone : d.findJob (numAt o.entry 8 4) = none) (ended : d.anyJob (numAt o.entry 8 4) = some j) :
    d.abortBody o = d.complete o OK (abortResult j) (abortData j) := by
  simp only [abortBody, gone, ended]

theorem abortBody_of_unknown (gone : d.findJob (numAt o.entry 8 4) = none) (absent : d.anyJob (numAt o.entry 8 4) = none) :
    d.abortBody o = d.complete o NO_SUCH_JOB 0 [] := by
  simp only [abortBody, gone, absent]

theorem statusBody_of_unknown (absent : d.anyJob (numAt o.entry 8 4) = none) : d.statusBody o = d.complete o NO_SUCH_JOB 0 [] := by
  simp only [statusBody, absent]

theorem statusBody_of_known {j : Job} (known : d.anyJob (numAt o.entry 8 4) = some j) :
    d.statusBody o = d.complete o OK (phaseCode j.phase + satU 28 j.defects * 16)
      ((List.range 8).flatMap (fun b => leBytes 3 (lastLine j 24 b)) ++ leBytes 4 (satU 32 j.skipped) ++
        leBytes 4 (satU 32 j.stripFaults)) := by
  simp only [statusBody, known]

end

end Dev

/-- A JOB_ABORT that runs does what its body gives; then the maps that wait for a bank are tried again and a STOP that waits is settled
(R118, R198). -/
theorem Does.of_jobAbort {s : State} {q : Fin 16} {o : Out} {d d' : Dev} (hs : s.dev.Runs q 0x0122 ⟨[], [], none⟩ o d)
    (body : d.abortBody o = d') : Does (.jobAbort q) s (d'.drain q).retryAll.settleStop :=
  Does.of_withDev (Dev.halted_of_Runs hs) rfl
    (congrArg (fun x => x.retryAll.settleStop) ((Dev.runMatched_of_Runs hs _).trans (by rw [body])))

namespace Dev

/-! ## STOP (R115) -/

section
variable {d : Dev} {o : Out}

theorem stopBody_of_now (now : byteAt o.entry 8 = 0) : d.stopBody o = (d.keep o).enterHold false id := if_pos now

variable (later : byteAt o.entry 8 ≠ 0)
include later

/-- A STOP with MODE 1 waits while a job is SCHEDULED or PRINTING. -/
theorem stopBody_of_active (active : d.anyActive = true) : d.stopBody o = d.keep o := by
  have printing : (d.keep o).anyActive = true := active
  exact (if_neg later).trans (if_neg (by simp [printing]))

theorem stopBody_of_idle (idle : d.anyActive = false) (stop : entOpcode o.entry = 0x0111) :
    d.stopBody o = (d.keep o).enterHold false id := by
  have still : (d.keep o).anyActive = false := idle
  have waits : (d.keep o).host.outs.any (fun x => entOpcode x.entry == 0x0111) = true := by simp [keep, stop]
  exact (if_neg later).trans (if_pos (by simp [still, waits]))

end

end Dev

/-! ## The obligation -/

/-- Settles O20: each command by the equation of its body, placement by the entry that is found. -/
theorem jobsArePlacedRunAndStopped : Obligations.JobsArePlacedRunAndStopped := by
  unfold Obligations.JobsArePlacedRunAndStopped
  refine ⟨fun s runs => ⟨fun j oldest live => ?placed, fun read => ?allPlaced⟩, fun s q o d hs role => ?run,
    ⟨fun s q o d hs => ?abort, fun s q o d hs => ?status⟩, fun s q o d hs => ?stop⟩
  case placed =>
    have unplaced : j.placed = false := by simpa using List.find?_some oldest
    exact Does.of_withDev runs rfl ((Dev.opPlacement_of_unread oldest).trans (Dev.place_of_unplaced live unplaced))
  case allPlaced => exact Does.of_withDev runs rfl (Dev.opPlacement_of_all_placed read)
  case run =>
    refine ⟨fun absent => Does.of_runMatched hs rfl (Dev.runBody_of_unknown absent), fun j known => ?_⟩
    have runs := Dev.runBody_of_known (o := o) role known
    have idle := fun (admitted : j.phase = .admitted) (free : d.barsBusy j = false) =>
      runs.trans ((if_neg (not_not.2 admitted)).trans (if_neg (ne_true_of_eq_false free)))
    exact ⟨fun other => Does.of_runMatched hs rfl (runs.trans (if_pos other)),
      fun admitted busy => Does.of_runMatched hs rfl (runs.trans ((if_neg (not_not.2 admitted)).trans (if_pos busy))),
      fun admitted free grid passed => Does.of_runMatched hs rfl ((idle admitted free).trans ((if_pos grid).trans (if_pos passed))),
      fun admitted free grid ahead => Does.of_runMatched hs rfl ((idle admitted free).trans ((if_pos grid).trans (if_neg ahead))),
      fun admitted free timed passed => Does.of_runMatched hs rfl ((idle admitted free).trans ((if_neg timed).trans (if_pos passed))),
      fun admitted free timed ahead => Does.of_runMatched hs rfl ((idle admitted free).trans
        ((if_neg timed).trans (if_neg (Nat.not_lt.2 ahead))))⟩
  case abort =>
    exact ⟨fun j live => Does.of_jobAbort hs (Dev.abortBody_of_live live),
      fun j gone ended => Does.of_jobAbort hs (Dev.abortBody_of_ended gone ended),
      fun gone absent => Does.of_jobAbort hs (Dev.abortBody_of_unknown gone absent)⟩
  case status =>
    exact ⟨fun absent => Does.of_runCmd hs rfl (Dev.statusBody_of_unknown absent),
      fun j known => Does.of_runCmd hs rfl (Dev.statusBody_of_known known)⟩
  case stop =>
    exact ⟨fun now => Does.of_runMatched hs rfl (Dev.stopBody_of_now now),
      fun later active => Does.of_runMatched hs rfl (Dev.stopBody_of_active later active),
      fun later idle opcode => Does.of_runMatched hs rfl (Dev.stopBody_of_idle later idle opcode)⟩

end Sys2Proof.Machine
end

section
/-!
PROOFS. Decompression lanes decode the strips of their bars, and one that fails hands its chain on; a re-plan that is due is done (R145,
R147, R149, R151, R163, R168, R172).
-/

namespace Sys2Proof.Machine

/-! ## What a change of role may write (R240, R416, R429, R431, R437) -/

/-- The blocks whose registers an event, the outputs and a change of role may write: HOSTQ, POS, CXP, PAIR, HLTH and NVM. -/
def roleBlocks : List Nat := [1, 7, 0x23, 0x26, 0x28, 0x29]

/-- No field of the list lies in a register of those blocks. -/
def RoleFree (F : List Field) : Prop := ∀ b ∈ roleBlocks, Apart F b

namespace RoleFree

variable {F : List Field} (free : RoleFree F)
include free

/-- A register of those blocks is none of the list. -/
theorem off {a : Nat} (block : a / 0x10000 ∈ roleBlocks) : ∀ f ∈ F, f.1 ≠ a := Dev.Spares.off_of_block (free _ block) rfl

theorem off_event : ∀ f ∈ F, ¬(logReg f.1 ∨ pbaReg f.1) := by
  unfold logReg pbaReg
  rintro f hf ((h | h | h | h | h | h) | h | h)
  all_goals exact free.off (by decide) f hf h

variable {d x : Dev} (h : Dev.Spares F d x)
include h

theorem wrF {a lo n v : Nat} (block : a / 0x10000 ∈ roleBlocks) : Dev.Spares F d (x.wrF a lo n v) := .wrF (free.off block) h

theorem wrBit {a i : Nat} {b : Bool} (block : a / 0x10000 ∈ roleBlocks) : Dev.Spares F d (x.wrBit a i b) := .wrBit (free.off block) h

theorem wr64 {a v : Nat} (block : a / 0x10000 ∈ roleBlocks) (block4 : (a + 4) / 0x10000 ∈ roleBlocks) :
    Dev.Spares F d (x.wr64 a v) := .wr64 (free.off block) (free.off block4) h

theorem event {origin : Nat} {ev : Ev} {p : List Byte} : Dev.Spares F d (x.event origin ev p) := .event free.off_event h

theorem emuAlign : Dev.Spares F d x.emuAlign := by
  refine .foldl (fun y e he => ?_) h
  have below := List.mem_range.1 he
  have off {a : Nat} (block : a / 0x10000 = 7) : ∀ f ∈ F, f.1 ≠ a := Dev.Spares.off_of_block (free _ (by decide)) block
  exact .wrBit (off (by unfold Reg.POS_EMU_STATUS; omega)) (.wr (off (by unfold Reg.POS_EMU_OWED; omega)) (.setEmu (.refl F y)))

theorem setRole {role step cause : Nat} : Dev.Spares F d (x.setRole role step cause) := by
  have aligned : Dev.Spares F d (if role = 2 then x.camsAway.emuAlign else x) :=
    .ite (free.emuAlign (free.wrF (.setCam h) (by decide))) h
  unfold Dev.setRole
  exact free.wr64 (.setPair (free.wrF (free.wrF (free.wrF aligned (by decide)) (by decide)) (by decide))) (by decide) (by decide)

omit free in
/-- A frame to the partner writes no register (R420). -/
theorem shank {kind : Nat} {body : List Byte} : Dev.Spares F d (x.shank kind body) := by
  obtain ⟨t, p, e⟩ := x.shank_frame kind body
  exact h.trans (e ▸ .of_rd rfl fun _ _ => rfl)

theorem resign {cause step : Nat} : Dev.Spares F d (x.resign cause step) := by
  unfold Dev.resign
  exact .ite (free.event (free.setRole (free.wrF (shank (.release (free _ (by decide)) (free _ (by decide)) h)) (by decide)))) h

theorem outOfStep {cause : Nat} : Dev.Spares F d (x.outOfStep cause) := by
  have left {ev bs} : Dev.Spares F d ((((x.wrF Reg.PAIR_STATUS 2 2 1).wrF Reg.PAIR_LAST_CAUSE 4 4 cause).wrBit Reg.PAIR_STATUS 10
      false).event 2 ev bs) :=
    free.event (free.wrBit (free.wrF (free.wrF h (by decide)) (by decide)) (by decide))
  unfold Dev.outOfStep
  exact .ite (.ite (shank (free.wr64 (free.wrF (.setPair left) (by decide)) (by decide) (by decide))) left) h

theorem printFault {b line : Nat} : Dev.Spares F d (x.printFault b line) := by
  unfold Dev.printFault
  exact .ite (free.resign (.setPair h)) (.ite (free.outOfStep (.setPair h)) (.setPair h))

end RoleFree

namespace Dev

/-! ## A broken chain (R169, R429) -/

/-- The count of broken chains, and the job of the newest one. -/
def brokenFields : List Field := [(Reg.DFL_CHAIN_BROKEN_COUNT, 0, 32), (Reg.DFL_LAST_ERR_JOB, 0, 32)]

theorem brokenFields_roleFree : RoleFree brokenFields := by
  unfold RoleFree
  decide

/-- A broken chain is counted, and its job is shown. -/
theorem rd_chainBroken (d : Dev) (job b strip lane detail line : Nat) :
    (d.chainBroken job b strip lane detail line).rd Reg.DFL_CHAIN_BROKEN_COUNT =
        min (d.rd Reg.DFL_CHAIN_BROKEN_COUNT + 1) 0xFFFFFFFF ∧
      (d.chainBroken job b strip lane detail line).rd Reg.DFL_LAST_ERR_JOB = job % 2 ^ 32 := by
  unfold chainBroken
  extract_lets d1 d2
  have told : Spares brokenFields ((d1.wr Reg.DFL_LAST_ERR_JOB job).bump Reg.DFL_CHAIN_BROKEN_COUNT)
      (if detail = 12 ∨ detail = 13 then d2.printFault b line else d2) :=
    have reported := brokenFields_roleFree.event (.refl _ _)
    .ite (brokenFields_roleFree.printFault reported) reported
  have before : (d1.wr Reg.DFL_LAST_ERR_JOB job).rd Reg.DFL_CHAIN_BROKEN_COUNT = d.rd Reg.DFL_CHAIN_BROKEN_COUNT := by
    rw [rd_wr_ne _ _ (by decide), rd_wr_ne _ _ (by decide), rd_wr_ne _ _ (by decide)]
  rw [told.rd (by decide), told.rd (by decide), rd_bump_same, before, rd_bump_ne _ (by decide), rd_wr_same]
  exact ⟨rfl, rfl⟩

theorem KeepsInner.strip {d x : Dev} (h : KeepsInner d x) : x.strip = d.strip :=
  (Prod.ext_iff.1 (Prod.ext_iff.1 (Prod.ext_iff.1 h).2).2).1

theorem KeepsInner.chainBroken {d x : Dev} {job b strip lane detail line : Nat} (h : KeepsInner d x) :
    KeepsInner d (x.chainBroken job b strip lane detail line) := by
  unfold Dev.chainBroken
  exact .ite (.printFault (.event (.bump (.wr (.wr (.wr h)))))) (.event (.bump (.wr (.wr (.wr h)))))

/-- Breaking a chain leaves the planes alone. -/
theorem plane_chainBroken (d : Dev) (job b strip lane detail line k c : Nat) :
    (d.chainBroken job b strip lane detail line).plane k c = d.plane k c :=
  congrArg (fun y : StripSt => mapGet {} y.planes (k * 8 + c)) (KeepsInner.strip (KeepsInner.chainBroken rfl))

theorem plane_setPlane_same (d : Dev) (job b : Nat) (p : PlaneSt) : (d.setPlane job b p).plane job b = p :=
  mapGet_mapSet_same _ _ _ _

/-! ## A lane decodes (R145, R147, R163, R168) -/

section
variable {d : Dev} {n : Nat}

theorem opStripDecode_of_out {poison : Option Nat} (out : d.bit Reg.PLACE_DFL_OK n = false) : d.opStripDecode n poison = d :=
  if_pos (.inl out)

/-- A healthy lane decodes the strip that is next on the plane it decodes, once its first line may be decoded. -/
theorem opStripDecode_of_next {poison : Option Nat} {b : Nat} {j : Job} {st : Strip} (healthy : d.bit Reg.PLACE_DFL_OK n = true)
    (bar : d.rdF (Reg.DFL_LANE n) 0 4 = b) (serves : b < 8) (job : d.decJob n b = some j)
    (next : (d.plane j.id b).strips.find? (fun x => x.no == (d.plane j.id b).decNext) = some st)
    (may : d.mayDecode j b ((d.plane j.id b).decCycle * j.lines + st.firstLine) = true) :
    d.opStripDecode n poison = (((d.decodeStrip n poison j b st).freeChains j b false).kick j.id b).assignLanes := by
  have works : ¬(d.bit Reg.PLACE_DFL_OK n = false ∨ 8 ≤ b) := by simp [healthy, serves]
  simp only [opStripDecode, bar, if_neg works, job, next, may, if_true]

/-! ## A lane fails (R151, R172) -/

/-- The module once lane n has left service: its chain is no longer the lane's, its bar is none, and a re-plan is due. -/
def laneGone (d : Dev) (n : Nat) : Dev :=
  let d1 := d.wrBit Reg.PLACE_DFL_OK n false
  ({ d1 with strip := { d1.strip with lanes := mapErase n d1.strip.lanes },
             job := { d1.job with replanDue := Nat.lor d1.job.replanDue 1 } } : Dev).wr (Reg.DFL_LANE n) 0xF

/-- A chain goes on on the spare lane, or is kept for its bar while none is free. -/
def handOn (d : Dev) (c : LaneCtx) : Option Nat → Dev
  | some t => (d.wrF (Reg.DFL_LANE t) 0 4 c.bar).setLane t c
  | none => d.setLane (24 + c.bar) c

theorem rd_laneGone {a : Nat} (place : a ≠ Reg.PLACE_DFL_OK) (lane : a ≠ Reg.DFL_LANE n) : (d.laneGone n).rd a = d.rd a :=
  (rd_wr_ne _ _ lane).trans (rd_wrBit_ne d n false place)

theorem opLaneFail_of_out {bad : Bool} (out : d.bit Reg.PLACE_DFL_OK n = false) : d.opLaneFail n bad = d := if_pos out

variable {bad : Bool} (healthy : d.bit Reg.PLACE_DFL_OK n = true)
include healthy

theorem opLaneFail_of_no_chain (none_held : (mapGet {} d.strip.lanes n : LaneCtx).histValid = false) :
    d.opLaneFail n bad = d.laneGone n :=
  (if_neg (ne_false_of_eq_true healthy)).trans (if_pos none_held)

variable (chain : (mapGet {} d.strip.lanes n : LaneCtx).histValid = true)
include chain

/-- A chain whose image is good goes on from it. -/
theorem opLaneFail_of_good_image : let c : LaneCtx := mapGet {} d.strip.lanes n
    d.opLaneFail n false = (d.laneGone n).handOn c ((d.laneGone n).spareLane c.bar) :=
  (if_neg (ne_false_of_eq_true healthy)).trans ((if_neg (ne_false_of_eq_true chain)).trans (if_neg Bool.false_ne_true))

/-- A chain whose image is bad is broken, at the strip held back or at the one in progress. -/
theorem opLaneFail_of_bad_image : let c : LaneCtx := mapGet {} d.strip.lanes n
    ∃ ls strip line, d.opLaneFail n true =
      ((d.laneGone n).setPlane c.job c.bar { (d.laneGone n).plane c.job c.bar with broken := true, lines := ls }).chainBroken
        c.job c.bar strip n 13 line :=
  ⟨_, _, _, (if_neg (ne_false_of_eq_true healthy)).trans ((if_neg (ne_false_of_eq_true chain)).trans (if_pos rfl))⟩

end

/-! ## Re-plans (R149) -/

/-- The causes of a re-plan are taken, and it is done for them. -/
def replanned (d : Dev) : Dev := ({ d with job := { d.job with replanDue := 0 } } : Dev).replan d.job.replanDue

theorem opReplan_of_none {d : Dev} (none_due : d.job.replanDue = 0) : d.opReplan = d := if_pos none_due

theorem opReplan_of_due {d : Dev} (due : d.job.replanDue ≠ 0) :
    d.opReplan = if d.replanned.inService then d.replanned.planSlots else d.replanned := if_neg due

end Dev

/-! ## The obligation -/

/-- Settles O24: each row by the equations of its operation, a broken chain by what breaking it shows and leaves alone. -/
theorem lanesDecodeAndHandOn : Obligations.LanesDecodeAndHandOn := by
  unfold Obligations.LanesDecodeAndHandOn
  refine ⟨fun s lane poison runs => ?decode, fun s lane bad runs => ?fail, fun s runs => ?replan⟩
  case decode =>
    exact ⟨fun out => Does.of_withDev runs rfl (Dev.opStripDecode_of_out out),
      fun j st healthy serves job next may => Does.of_withDev runs rfl (Dev.opStripDecode_of_next healthy rfl serves job next may)⟩
  case fail =>
    refine ⟨fun out => Does.of_withDev runs rfl (Dev.opLaneFail_of_out out),
      fun healthy none_held => Does.of_withDev runs rfl (Dev.opLaneFail_of_no_chain healthy none_held),
      fun t healthy chain good spare => ?_, fun healthy chain good no_spare => ?_, fun healthy chain broken => ?_⟩
    · subst good
      exact Does.of_withDev runs rfl ((Dev.opLaneFail_of_good_image healthy chain).trans (congrArg (Dev.handOn _ _) spare))
    · subst good
      exact Does.of_withDev runs rfl ((Dev.opLaneFail_of_good_image healthy chain).trans (congrArg (Dev.handOn _ _) no_spare))
    · subst broken
      obtain ⟨ls, strip, line, ends⟩ := Dev.opLaneFail_of_bad_image healthy chain
      obtain ⟨count, job⟩ := Dev.rd_chainBroken _ _ _ strip lane 13 line
      refine ⟨_, Does.of_withDev runs rfl ends, ?_, count.trans ?_, job⟩
      · rw [Dev.plane_chainBroken, Dev.plane_setPlane_same]
      · have same : (s.dev.laneGone lane).rd Reg.DFL_CHAIN_BROKEN_COUNT = s.dev.rd Reg.DFL_CHAIN_BROKEN_COUNT :=
          Dev.rd_laneGone (by decide) (by unfold Reg.DFL_CHAIN_BROKEN_COUNT Reg.DFL_LANE; omega)
        exact congrArg (fun n => min (n + 1) 0xFFFFFFFF) same
  case replan =>
    exact ⟨fun none_due => Does.of_withDev runs rfl (Dev.opReplan_of_none none_due),
      fun due => Does.of_withDev runs rfl (Dev.opReplan_of_due due)⟩

end Sys2Proof.Machine
end

section
/-!
PROOFS. The pre-transforms of strip data lose nothing: the plane split is put together again, and each line is undone against the line
before it (R160, R161).
-/

namespace Sys2Proof.Machine

/-! ## Numbers made of bits -/

/-- The number of the bits c 0 .. c (n - 1), the lowest first, as the plane split packs them. -/
def bitSum (c : Nat → Nat) (n : Nat) : Nat := ((List.range n).map (fun k => c k * 2 ^ k)).sum

theorem bitSum_succ (c : Nat → Nat) (n : Nat) : bitSum c (n + 1) = bitSum c n + c n * 2 ^ n := by
  simp [bitSum, List.range_succ]

section
variable {c : Nat → Nat} (bits : ∀ k, c k < 2)
include bits

theorem bitSum_lt (n : Nat) : bitSum c n < 2 ^ n := by
  induction n with
  | zero => simp [bitSum]
  | succ n ih =>
    have top : c n * 2 ^ n ≤ 1 * 2 ^ n := Nat.mul_le_mul_right _ (Nat.le_of_lt_succ (bits n))
    rw [bitSum_succ, Nat.pow_succ]
    omega

/-- Each bit is read back where it was put. -/
theorem fld_bitSum {k n : Nat} (h : k < n) : fld (bitSum c n) k 1 = c k := by
  induction n with
  | zero => omega
  | succ n ih =>
    rw [bitSum_succ]
    rcases Nat.lt_succ_iff_lt_or_eq.mp h with below | rfl
    · obtain ⟨j, rfl⟩ := Nat.exists_eq_add_of_lt below
      have shift : c (k + j + 1) * 2 ^ (k + j + 1) = 2 ^ k * (2 * (c (k + j + 1) * 2 ^ j)) := by ring
      rw [← ih below, fld, fld, shift, Nat.add_mul_div_left _ _ (Nat.two_pow_pos k), pow_one, Nat.add_mul_mod_self_left]
    · rw [fld, Nat.add_mul_div_right _ _ (Nat.two_pow_pos k), Nat.div_eq_of_lt (bitSum_lt bits k), Nat.zero_add]
      exact Nat.mod_eq_of_lt (bits k)

theorem fld_byte_bitSum {k : Nat} (h : k < 8) : fld (BitVec.ofNat 8 (bitSum c 8)).toNat k 1 = c k := by
  rw [BitVec.toNat_ofNat, Nat.mod_eq_of_lt (bitSum_lt bits 8), fld_bitSum bits h]

end

/-! ## The plane split of P2 (R160) -/

/-- The 2-bit code of column k of the 8 that two bytes of a P2 line hold. -/
def pairCode (a b : Byte) (k : Nat) : Nat := if k < 4 then fld a.toNat (2 * k) 2 else fld b.toNat (2 * (k - 4)) 2

theorem pairCode_lt (a b : Byte) (k : Nat) : pairCode a b k < 4 := by
  unfold pairCode
  split <;> exact fld_lt ..

/-- The low bits and the high bits of the 8 columns of two bytes. -/
def splitPair (a b : Byte) : Byte × Byte :=
  (BitVec.ofNat 8 (bitSum (fun k => pairCode a b k % 2) 8), BitVec.ofNat 8 (bitSum (fun k => pairCode a b k / 2) 8))

theorem splitPairs_cons (a b : Byte) (r : List Byte) : splitPairs (a :: b :: r) = splitPair a b :: splitPairs r := rfl

/-- A column's code is whole again when its low and its high bit are put together. -/
theorem splitCode_splitPair (a b : Byte) {k : Nat} (h : k < 8) :
    splitCode (splitPair a b).1 (splitPair a b).2 k = pairCode a b k := by
  have lo : fld (splitPair a b).1.toNat k 1 = pairCode a b k % 2 := fld_byte_bitSum (fun _ => Nat.mod_lt _ Nat.two_pos) h
  have hi : fld (splitPair a b).2.toNat k 1 = pairCode a b k / 2 :=
    fld_byte_bitSum (fun k => Nat.div_lt_of_lt_mul (pairCode_lt a b k)) h
  rw [splitCode, lo, hi, Nat.mod_add_div]

theorem packFour_codes (a : Byte) : packFour (fld a.toNat 0 2) (fld a.toNat 2 2) (fld a.toNat 4 2) (fld a.toNat 6 2) = a := by
  apply BitVec.eq_of_toNat_eq
  have byte := a.isLt
  simp only [packFour, fld, BitVec.toNat_ofNat]
  omega

/-- The two bytes whose columns have these low and high bits. -/
def joinPair (lo hi : Byte) : List Byte :=
  [packFour (splitCode lo hi 0) (splitCode lo hi 1) (splitCode lo hi 2) (splitCode lo hi 3),
   packFour (splitCode lo hi 4) (splitCode lo hi 5) (splitCode lo hi 6) (splitCode lo hi 7)]

theorem joinPair_splitPair (a b : Byte) : joinPair (splitPair a b).1 (splitPair a b).2 = [a, b] := by
  simp [joinPair, splitCode_splitPair, pairCode, packFour_codes]

theorem length_splitPairs : ∀ l : List Byte, (splitPairs l).length = l.length / 2
  | [] => rfl
  | [_] => by simp [splitPairs]
  | a :: b :: r => by simp only [splitPairs_cons, List.length_cons, length_splitPairs r]; omega

theorem joinPair_splitPairs : ∀ l : List Byte, l.length % 2 = 0 → (splitPairs l).flatMap (fun p => joinPair p.1 p.2) = l
  | [], _ => rfl
  | [_], odd => by simp at odd
  | a :: b :: r, even => by
    have rest : r.length % 2 = 0 := by rw [← even]; simp only [List.length_cons]; omega
    rw [splitPairs_cons, List.flatMap_cons, joinPair_splitPair, joinPair_splitPairs r rest]
    rfl

theorem length_splitP2 {l : List Byte} (even : l.length % 2 = 0) : (splitP2 l).length = l.length := by
  simp only [splitP2, List.length_append, List.length_map, length_splitPairs]
  omega

theorem unsplitP2_append {lo hi : List Byte} (h : lo.length = hi.length) :
    unsplitP2 (lo ++ hi) = (List.zipWith joinPair lo hi).flatten := by
  have half : (lo ++ hi).length / 2 = lo.length := by rw [List.length_append]; omega
  rw [unsplitP2, half, List.take_left, List.drop_left]
  rfl

theorem unsplitP2_splitP2 {l : List Byte} (even : l.length % 2 = 0) : unsplitP2 (splitP2 l) = l := by
  rw [splitP2, unsplitP2_append (by simp), List.zipWith_map, List.zipWith_self, ← List.flatMap_def, joinPair_splitPairs l even]

/-! ## Lines against the line before them (R160, R161) -/

/-- An operation on bytes that another undoes is undone by it line by line. -/
theorem zipWith_cancel {f g : Byte → Byte → Byte} (undo : ∀ x y, g (f x y) y = x) {xs ys : List Byte} (h : xs.length = ys.length) :
    List.zipWith g (List.zipWith f xs ys) ys = xs := by
  refine List.ext_getElem (by simp [h]) fun i _ _ => ?_
  simp [undo]

theorem xorBytes_cancel {xs ys : List Byte} (h : xs.length = ys.length) : xorBytes (xorBytes xs ys) ys = xs :=
  zipWith_cancel (fun x y => by rw [BitVec.xor_assoc, BitVec.xor_self, BitVec.xor_zero]) h

/-- What PRE = PLANE_XOR takes a line for: P2 is split into planes, another mode's line stays. -/
def planeLine (mode : Nat) (l : List Byte) : List Byte := if mode = 1 then splitP2 l else l

/-- The line that was taken for these planes. -/
def unplaneLine (mode : Nat) (s : List Byte) : List Byte := if mode = 1 then unsplitP2 s else s

theorem lineBytes_P2_even {mode : Nat} (P2 : mode = 1) : lineBytes mode % 2 = 0 := by
  subst P2
  rfl

section
variable {mode : Nat} {l : List Byte} (whole : l.length = lineBytes mode)
include whole

theorem length_planeLine : (planeLine mode l).length = lineBytes mode := by
  unfold planeLine
  split
  · next P2 => rw [length_splitP2 (whole ▸ lineBytes_P2_even P2), whole]
  · exact whole

theorem unplaneLine_planeLine : unplaneLine mode (planeLine mode l) = l := by
  unfold unplaneLine planeLine
  split
  · next P2 => exact unsplitP2_splitP2 (whole ▸ lineBytes_P2_even P2)
  · rfl

end

section
variable (mode : Nat) (prev l : List Byte) (ls : List (List Byte))

theorem forwardLines_planes : forwardLines mode 1 prev (l :: ls) =
    xorBytes (planeLine mode l) prev :: forwardLines mode 1 (planeLine mode l) ls := rfl

theorem inverseLines_planes : inverseLines mode 1 prev (l :: ls) =
    unplaneLine mode (xorBytes l prev) :: inverseLines mode 1 (xorBytes l prev) ls := rfl

theorem forwardLines_difference : forwardLines mode 2 prev (l :: ls) =
    List.zipWith (fun x y => x - y) l prev :: forwardLines mode 2 l ls := rfl

theorem inverseLines_difference : inverseLines mode 2 prev (l :: ls) =
    List.zipWith (fun x y => x + y) l prev :: inverseLines mode 2 (List.zipWith (fun x y => x + y) l prev) ls := rfl

end

/-- Line by line, the inverse comes to the same line before the next one as the pre-transform did. -/
theorem inverseLines_forwardLines {mode pre : Nat} (known : pre ≤ 2) {before : List Byte} {ls : List (List Byte)}
    (start : before.length = lineBytes mode) (whole : ∀ l ∈ ls, l.length = lineBytes mode) :
    inverseLines mode pre before (forwardLines mode pre before ls) = ls := by
  induction ls generalizing before with
  | nil => rfl
  | cons l ls ih =>
    obtain ⟨line, rest⟩ := List.forall_mem_cons.mp whole
    match pre, known with
    | 0, _ => exact congrArg (l :: ·) (ih start rest)
    | 1, _ =>
      have planes := length_planeLine line
      rw [forwardLines_planes, inverseLines_planes, xorBytes_cancel (planes.trans start.symm), unplaneLine_planeLine line,
        ih planes rest]
    | 2, _ =>
      have undone := zipWith_cancel (f := (· - ·)) (g := (· + ·)) BitVec.sub_add_cancel (line.trans start.symm)
      rw [forwardLines_difference, inverseLines_difference, undone, ih line rest]

/-! ## The obligation -/

/-- Settles O25: by induction over the lines, from the plane split that is put together again and the two operations that undo
themselves. -/
theorem preTransformsAreInvertible : Obligations.PreTransformsAreInvertible := by
  unfold Obligations.PreTransformsAreInvertible
  exact fun _ _ _ _ _ known start whole => inverseLines_forwardLines known start whole

end Sys2Proof.Machine
end

section
/-!
PROOFS. Engines take the lines of their bars in order, hand them on limited and packed, and hand their bar over when they fail
(R180, R182, R185, R196, R199, R200, R202, R205, R249).
-/

namespace Sys2Proof.Machine

namespace Dev

/-! ## The front half takes a line (R180, R196, R199) -/

/-- Item 7 of a resynchronisation goes to the partner once it is due (R438). -/
def sendErrorRows (d : Dev) (b l : Nat) : Dev := if d.itemDue b 7 l = true then d.sendItem b 7 (edItem (d.br b)) else d

/-- Nothing lets the front half take line n, which is line l of job j, with the ring and the lines handed on as in r. -/
abbrev FrontIdle (d : Dev) (r : BarRast) (b n l : Nat) (j : Job) : Prop :=
  d.inService = false ∨ d.hasEngine b = false ∨ j.has l = false ∨ (d.bf b).next + 1024 ≤ n ∨
    r.handed + ringLines j.mode ≤ n ∨ d.awaits b 7 = true

/-- What the ring holds of line n enters the pipeline. -/
def enterRing (d : Dev) (r : BarRast) (b n l : Nat) (j : Job) : Option LineData → Dev
  | none => d
  | some (.blank k) => d.frontBlank b n (some k)
  | some (.data bs) =>
    let o := lineCodes (d.lineIn b n l j (r.edReset || l == 0 || d.screenAt b n)) bs
    let d1 := d.setBr b { r with
      front := n + 1, mid := r.mid ++ [⟨n, o.heads⟩], ed := o.ed, edReset := !(decide (3 ≤ j.mode)) }
    (d1.bumpBy (Reg.RE_DNC_LOST b) o.lost).noteDead b n

/-- Line n enters the pipeline: blank when it is told to print so or its bar is lost to the job, else as the ring holds it. -/
def enterLine (d : Dev) (r : BarRast) (b n l : Nat) (j : Job) : Dev :=
  if mapGet none r.blanks n ≠ none then d.frontBlank b n (mapGet none r.blanks n)
  else if (d.lostCause j b).isSome = true then d.frontBlank b n (some 0)
  else d.enterRing r b n l j (d.ringLine j b l)

section
variable {d : Dev} {r : BarRast} {b n l : Nat} {j : Job}

theorem opFront_of_no_line (no_line : d.lineJob b (d.br b).front = none) : d.opFront b = d := by
  simp only [opFront, no_line]

theorem opFront_of_line (line : d.lineJob b (d.br b).front = some (j, l)) :
    d.opFront b = if (d.sendErrorRows b l).FrontIdle (d.br b) b (d.br b).front l j then d.sendErrorRows b l
      else (d.sendErrorRows b l).enterLine (d.br b) b (d.br b).front l j := by
  simp only [opFront, line]
  rfl

theorem enterLine_of_blanked (blanked : mapGet none r.blanks n ≠ none) :
    d.enterLine r b n l j = d.frontBlank b n (mapGet none r.blanks n) := if_pos blanked

variable (clear : mapGet none r.blanks n = none)
include clear

theorem enterLine_of_lost (lost : (d.lostCause j b).isSome = true) : d.enterLine r b n l j = d.frontBlank b n (some 0) :=
  (if_neg (not_not.2 clear)).trans (if_pos lost)

theorem enterLine_of_ring {held : Option LineData} (served : d.lostCause j b = none) (ring : d.ringLine j b l = held) :
    d.enterLine r b n l j = d.enterRing r b n l j held :=
  (if_neg (not_not.2 clear)).trans ((if_neg (by simp [served])).trans (congrArg _ ring))

end

/-! ## The back half hands a line on (R182, R185, R200, R249) -/

/-- Item 8 of a resynchronisation goes to the partner once it is due (R438). -/
def sendDuty (d : Dev) (b l : Nat) : Dev := if d.itemDue b 8 l = true then d.sendItem b 8 (dutyItem (d.br b)) else d

/-- Nothing lets the back half hand line n on. -/
abbrev BackIdle (d : Dev) (b n : Nat) : Prop :=
  d.inService = false ∨ d.hasEngine b = false ∨ (d.bf b).next + 4 ≤ n ∨ (n < (d.bf b).next ∧ d.syncing b = false) ∨
    d.awaits b 8 = true

/-- Stage 9 of the line m between the halves: a line set aside as late fires nothing. -/
def limitLine (d : Dev) (b l : Nat) (m : MidLine) : NMap (List Nat) × Dev :=
  d.dutyLine b m.line l (if mapGet none (d.br b).blanks m.line = some 5 then [] else m.heads)

/-- The packed lines of the rated heads. -/
def headLines (d : Dev) (b : Nat) (heads : NMap (List Nat)) : List (Nat × List Byte) :=
  (bitsOf 24 (d.rated b)).map (fun h => (h, headLine (mapGet [] heads h)))

/-- The line m has left the halves, and `rest` stays between them: its number shows, and the ring has dropped it. -/
def handOnLine (d : Dev) (b l : Nat) (m : MidLine) (rest : List MidLine) : Dev :=
  let q := d.limitLine b l m
  let r := q.2.br b
  let d1 := q.2.setBr b { r with
    mid := rest, handed := m.line + 1,
    out := mapSet [] r.out m.line ((d.headLines b q.1).map (fun x => (x.1, crc32c x.2))) }
  ((d1.wr (Reg.RE_LINE b) m.line).dropRing b m.line).joinAt b m.line l

/-- One LINE frame for each rated head: its packed line, or zeros for a head that is blanked. -/
def sendLines (d : Dev) (b job l n : Nat) (lines : List (Nat × List Byte)) : Dev :=
  lines.foldl (fun x y => x.sendLine b ⟨job, l, y.1, (d.omegaAt b n % 64).toNat, 0,
    if bitOf (d.blankedAt b n) y.1 then List.replicate 1024 0 else y.2⟩ false) d

section
variable {d : Dev} {b l : Nat} {m : MidLine} {rest : List MidLine} {j : Job}

theorem opBack_of_empty (empty : (d.br b).mid = []) : d.opBack b = d := by
  simp only [opBack, empty]

variable (oldest : (d.br b).mid = m :: rest)
include oldest

theorem opBack_of_no_line (no_line : d.lineJob b m.line = none) : d.opBack b = d := by
  simp only [opBack, oldest, no_line]

theorem opBack_of_line (line : d.lineJob b m.line = some (j, l)) :
    let x := d.sendDuty b l
    d.opBack b = if x.BackIdle b m.line then x
      else if (x.handOnLine b l m rest).mayDrive b = true then
        (x.handOnLine b l m rest).sendLines b j.id l m.line (x.headLines b (x.limitLine b l m).1)
      else x.handOnLine b l m rest := by
  simp only [opBack, oldest, line, decide_eq_true_eq]
  rfl

end

/-! ## An engine fails (R202, R205) -/

/-- The event of the failure of engine e is reported, with the engines as they now are. -/
def reportEngine (d : Dev) (e cause : Nat) : Dev := (d.event 1 .engineFault (vals [e, cause + 1])).partChanged 4

/-- The bar b that engine e leaves is served by none: it is lost. -/
def engineGone (d : Dev) (e cause b : Nat) : Dev :=
  let d1 := (d.wrF Reg.PLACE_RE_MAP (4 * b) 4 0xF).reportEngine e cause
  (d1.barLost b true).decision (d1.bf b).next b 0xFF 9 8 0

/-- A bar that prints reports a fault of its job at the next line. -/
def tellFault (d : Dev) (b : Nat) : Dev := if d.printingOn b = true then d.printFault b (d.bf b).next else d

section
variable {d : Dev} {e cause b : Nat}

/-- The watchdog fails an engine only while its bar prints; the other causes always do, once (R205). -/
theorem engineCan_iff : d.engineCan e cause = true ↔
    d.bit (Reg.RE_STATUS e) 4 = false ∧ (cause ≠ 0 ∨ ∃ b, d.servedBy e = some b ∧ d.printingOn b = true) := by
  unfold engineCan
  cases d.servedBy e <;> simp

theorem opEngineFault_of_not_can (not_can : d.engineCan e cause ≠ true) : d.opEngineFault e cause = d :=
  if_pos (Bool.eq_false_of_not_eq_true not_can)

variable (can : d.engineCan e cause = true)
include can

theorem opEngineFault_of_unserved (unserved : d.servedBy e = none) :
    d.opEngineFault e cause = (d.markEngine e cause).reportEngine e cause := by
  unfold opEngineFault
  simp only [can, Bool.true_eq_false, if_false, unserved]
  rfl

variable (served : d.servedBy e = some b)
include served

theorem opEngineFault_of_spare (free : (d.markEngine e cause).re8Free = true) (other : e ≠ 8) :
    d.opEngineFault e cause = (((d.markEngine e cause).handOver b).reportEngine e cause).tellFault b := by
  have spare : ((d.markEngine e cause).re8Free && e != 8) = true := by simp [free, other]
  unfold opEngineFault
  simp only [can, Bool.true_eq_false, if_false, served, spare, if_true]
  rfl

theorem opEngineFault_of_no_spare (no_spare : (d.markEngine e cause).re8Free = false ∨ e = 8) :
    d.opEngineFault e cause = ((d.markEngine e cause).engineGone e cause b).tellFault b := by
  have spare : ((d.markEngine e cause).re8Free && e != 8) = false := by
    rcases no_spare with taken | itself
    · simp [taken]
    · simp [itself]
  unfold opEngineFault
  simp only [can, Bool.true_eq_false, if_false, served, spare, Bool.false_eq_true]
  rfl

end

end Dev

/-! ## The obligation -/

/-- Settles O32: the halves and the failure by the equations of their operations. -/
theorem enginesTakeAndHandOnLines : Obligations.EnginesTakeAndHandOnLines := by
  unfold Obligations.EnginesTakeAndHandOnLines
  refine ⟨fun s b j l runs => ?front, fun s b runs => ?back, fun s e cause runs => ?fail⟩
  case front =>
    refine ⟨fun no_line => Does.of_withDev runs rfl (Dev.opFront_of_no_line no_line), fun line => ?_⟩
    have taken := Dev.opFront_of_line line
    have enters := fun busy => taken.trans (if_neg busy)
    exact ⟨fun idle => Does.of_withDev runs rfl (taken.trans (if_pos idle)),
      fun busy blanked => Does.of_withDev runs rfl ((enters busy).trans (Dev.enterLine_of_blanked blanked)),
      fun busy clear lost => Does.of_withDev runs rfl ((enters busy).trans (Dev.enterLine_of_lost clear lost)),
      fun busy clear served ring => Does.of_withDev runs rfl ((enters busy).trans (Dev.enterLine_of_ring clear served ring)),
      fun k busy clear served ring => Does.of_withDev runs rfl ((enters busy).trans (Dev.enterLine_of_ring clear served ring)),
      fun bs busy clear served ring => Does.of_withDev runs rfl ((enters busy).trans (Dev.enterLine_of_ring clear served ring))⟩
  case back =>
    refine ⟨fun empty => Does.of_withDev runs rfl (Dev.opBack_of_empty empty),
      fun m rest oldest no_line => Does.of_withDev runs rfl (Dev.opBack_of_no_line oldest no_line),
      fun m rest j l oldest line => ?_⟩
    have handed := Dev.opBack_of_line oldest line
    exact ⟨fun idle => Does.of_withDev runs rfl (handed.trans (if_pos idle)),
      fun busy silent => Does.of_withDev runs rfl (handed.trans ((if_neg busy).trans (if_neg (ne_true_of_eq_false silent)))),
      fun busy drives => Does.of_withDev runs rfl (handed.trans ((if_neg busy).trans (if_pos drives)))⟩
  case fail =>
    exact ⟨fun cannot => Does.of_withDev runs rfl (Dev.opEngineFault_of_not_can (mt Dev.engineCan_iff.1 cannot)),
      fun can unserved => Does.of_withDev runs rfl (Dev.opEngineFault_of_unserved (Dev.engineCan_iff.2 can) unserved),
      fun bar can served =>
        ⟨fun free other => Does.of_withDev runs rfl (Dev.opEngineFault_of_spare (Dev.engineCan_iff.2 can) served free other),
          fun no_spare => Does.of_withDev runs rfl (Dev.opEngineFault_of_no_spare (Dev.engineCan_iff.2 can) served no_spare)⟩⟩

end Sys2Proof.Machine
end

section
/-!
PROOFS. Duty limiting only lowers drops and keeps a head's allowance; packing keeps every code (R185, R200, R201).
-/

namespace Sys2Proof.Machine

open List (Forall₂)

/-! ## Lists compared place by place -/

theorem getD_of_forall₂ {α β : Type} {R : α → β → Prop} {xs : List α} {ys : List β} (h : Forall₂ R xs ys) {a : α} {b : β}
    (default : R a b) (i : Nat) : R (xs.getD i a) (ys.getD i b) := by
  induction h generalizing i with
  | nil => exact default
  | cons head _ ih =>
    cases i with
    | zero => exact head
    | succ i => exact ih i

theorem forall₂_rotate {α β : Type} {R : α → β → Prop} {xs : List α} {ys : List β} (h : Forall₂ R xs ys) (n : Nat) :
    Forall₂ R (xs.rotate n) (ys.rotate n) := by
  rw [List.rotate_eq_drop_append_take_mod, List.rotate_eq_drop_append_take_mod, h.length_eq]
  exact List.rel_append (List.forall₂_drop _ h) (List.forall₂_take _ h)

/-! ## The passes of a head's limit (R201) -/

/-- What a pass over drops of a code leaves of a drop when nothing stops it. -/
def lower (code v : Nat) : Nat := if v = code then v - 1 else v

/-- What passes over these codes leave of a drop when nothing stops them. -/
def lowerAll (codes : List Nat) (v : Nat) : Nat := codes.foldl (fun v code => lower code v) v

/-- Below what already lies place by place below `ys`, a pass stays below `ys`. -/
theorem dutyPass_le {code : Nat} {vs ys : List Nat} (h : Forall₂ (· ≤ ·) vs ys) (left : Nat) :
    Forall₂ (· ≤ ·) (dutyPass code left vs) ys := by
  induction h generalizing left with
  | nil => exact .nil
  | @cons v y _ _ head tail ih =>
    cases left with
    | zero => exact .cons head tail
    | succ left =>
      rw [dutyPass]
      split
      · exact .cons (by omega) (ih left)
      · exact .cons head (ih (left + 1))

theorem dutyPasses_le {allow : Nat} {codes ys : List Nat} {x : List Nat × Nat × Nat} (h : Forall₂ (· ≤ ·) x.1 ys) :
    Forall₂ (· ≤ ·) (dutyPasses allow codes x).1 ys := by
  induction codes generalizing x with
  | nil => exact h
  | cons code rest ih => exact ih (dutyPass_le h _)

/-- A pass either comes to the end of the line or takes as much as it may. -/
theorem dutyPass_spends {code : Nat} (drops : 0 < code) (left : Nat) (vs : List Nat) :
    dutyPass code left vs = vs.map (lower code) ∨ (dutyPass code left vs).sum + left = vs.sum := by
  induction vs generalizing left with
  | nil => exact .inl (by cases left <;> rfl)
  | cons v vs ih =>
    cases left with
    | zero => exact .inr rfl
    | succ left =>
      rw [dutyPass, List.map_cons, lower]
      split
      · next hit => exact (ih left).imp (congrArg _) fun spent => by simp only [List.sum_cons]; omega
      · exact (ih (left + 1)).imp (congrArg _) fun spent => by simp only [List.sum_cons]; omega

/-- The passes come down to the allowance, or none of them is stopped. -/
theorem dutyPasses_energy {allow : Nat} {codes : List Nat} (drops : ∀ code ∈ codes, 0 < code) (x : List Nat × Nat × Nat) :
    (dutyPasses allow codes x).1.sum ≤ allow ∨ (dutyPasses allow codes x).1 = x.1.map (lowerAll codes) := by
  induction codes generalizing x with
  | nil => exact .inr (List.map_id' _).symm
  | cons code rest ih =>
    obtain ⟨drop, drops⟩ := List.forall_mem_cons.mp drops
    rw [dutyPasses]
    rcases dutyPass_spends drop (x.1.sum - allow) x.1 with ended | spent
    · refine (ih drops _).imp_right fun unstopped => unstopped.trans ?_
      rw [ended, List.map_map]
      rfl
    · have tight : (dutyPass code (x.1.sum - allow) x.1).sum ≤ allow := by omega
      exact .inl ((dutyPasses_le (List.forall₂_refl _)).sum_le_sum.trans tight)

/-! ## A head's limit (R201) -/

/-- The codes of the passes, in turn. -/
def limitCodes : List Nat := [1, 2, 3, 1, 2, 3, 1, 2, 3]

theorem lowerAll_limitCodes {v : Nat} (code : v ≤ 3) : lowerAll limitCodes v = 0 := by
  interval_cases v <;> rfl

section
variable {allow s : Nat} {vs : List Nat} (whole : vs.length = 4096) (start : s < 4096)
include whole start

/-- The passes run over the line turned to start at nozzle s, and it is turned back. -/
theorem limitHead_codes :
    (limitHead allow s vs).1 = (dutyPasses allow limitCodes (vs.rotate s, 0, 0)).1.rotate (4096 - s) := by
  have kept : (dutyPasses allow limitCodes (vs.rotate s, 0, 0)).1.length = 4096 :=
    (dutyPasses_le (List.forall₂_refl _)).length_eq.trans ((List.length_rotate ..).trans whole)
  rw [List.rotate_eq_drop_append_take (by omega), List.rotate_eq_drop_append_take (by omega)]
  rfl

theorem limitHead_le : Forall₂ (· ≤ ·) (limitHead allow s vs).1 vs := by
  have back : (vs.rotate s).rotate (4096 - s) = vs := by
    rw [List.rotate_rotate, Nat.add_sub_cancel' start.le, ← whole, List.rotate_length]
  rw [limitHead_codes whole start]
  exact (congrArg (Forall₂ (· ≤ ·) _) back).mp (forall₂_rotate (dutyPasses_le (List.forall₂_refl _)) _)

/-- Passes that nothing stops leave no drop at all. -/
theorem limitHead_energy (codes : ∀ v ∈ vs, v ≤ 3) : (limitHead allow s vs).1.sum ≤ allow := by
  rw [limitHead_codes whole start, (List.rotate_perm _ _).sum_eq]
  refine (dutyPasses_energy (by decide) _).elim id fun unstopped => ?_
  have none_left : ∀ v ∈ (vs.rotate s).map (lowerAll limitCodes), v = 0 := by
    simp only [List.forall_mem_map, List.mem_rotate]
    exact fun v drop => lowerAll_limitCodes (codes v drop)
  rw [unstopped, List.sum_eq_zero none_left]
  exact Nat.zero_le _

end

/-! ## Credits (R200) -/

/-- A nozzle fires its code or nothing. -/
theorem spendCredit_le {w : Nat} : ∀ {codes cs : List Nat}, codes.length = cs.length →
    Forall₂ (fun fired code => fired.1 ≤ code) (spendCredit w codes cs) codes
  | [], [], _ => .nil
  | v :: codes, c :: cs, same => by
    refine .cons ?_ (spendCredit_le (Nat.succ.inj same))
    beta_reduce
    split
    · exact Nat.zero_le v
    · split
      · exact le_refl v
      · exact Nat.zero_le v

/-! ## Packing (R185) -/

/-- Each of the four codes of a byte is read back where it was put. -/
theorem fld_packFour {a b c e k : Nat} (ha : a ≤ 3) (hb : b ≤ 3) (hc : c ≤ 3) (he : e ≤ 3) (place : k < 4) :
    fld (packFour a b c e).toNat (2 * k) 2 = [a, b, c, e].getD k 0 := by
  have byte : (packFour a b c e).toNat = a + 4 * b + 16 * c + 64 * e :=
    (BitVec.toNat_ofNat ..).trans (Nat.mod_eq_of_lt (by omega))
  rw [byte, fld]
  interval_cases k <;> simp only [List.getD_cons_zero, List.getD_cons_succ] <;> omega

theorem length_packHead : ∀ vs : List Nat, (packHead vs).length = vs.length / 4
  | [] | [_] | [_, _] | [_, _, _] => by simp [packHead]
  | _ :: _ :: _ :: _ :: r => by simp only [packHead, List.length_cons, length_packHead r]; omega

theorem fld_packHead : ∀ {vs : List Nat} {i : Nat}, vs.length % 4 = 0 → (∀ v ∈ vs, v ≤ 3) → i < vs.length →
    fld (byteAt (packHead vs) (i / 4)) (2 * (i % 4)) 2 = vs.getD i 0
  | a :: b :: c :: e :: r, i, whole, codes, place => by
    simp only [List.forall_mem_cons] at codes
    obtain ⟨ha, hb, hc, he, codes⟩ := codes
    rw [List.length_cons, List.length_cons, List.length_cons, List.length_cons] at whole place
    rcases Nat.lt_or_ge i 4 with first | later
    · rw [Nat.div_eq_of_lt first, Nat.mod_eq_of_lt first]
      refine (fld_packFour ha hb hc he first).trans ?_
      exact (List.getD_append [a, b, c, e] r 0 i first).symm
    · obtain ⟨k, rfl⟩ := Nat.exists_eq_add_of_le' later
      rw [Nat.add_div_right k four_pos, Nat.add_mod_right]
      exact fld_packHead (by omega) codes (by omega)

/-! ## The obligation -/

/-- Settles O33: passes and credits stay place by place below the codes they are given, the passes spend what they may or come
to the end of every line, and a byte gives back its four codes. -/
theorem dutyLimitingOnlyLowersDrops : Obligations.DutyLimitingOnlyLowersDrops := by
  unfold Obligations.DutyLimitingOnlyLowersDrops
  refine ⟨fun allow s vs whole start codes => ?limit, fun w codes cs same => ?credit, fun vs whole codes => ?pack⟩
  case limit =>
    have below := limitHead_le (allow := allow) whole start
    exact ⟨below.length_eq.trans whole, getD_of_forall₂ below (le_refl 0), limitHead_energy whole start codes⟩
  case credit =>
    have below := spendCredit_le (w := w) same
    exact ⟨below.length_eq, getD_of_forall₂ below (le_refl 0)⟩
  case pack =>
    exact ⟨(length_packHead vs).trans (by rw [whole]),
      fun i place => fld_packHead (by rw [whole]) codes (by rw [whole]; exact place)⟩

end Sys2Proof.Machine
end

section
/-!
PROOFS. Rows that write one register: nothing else of the module or of the queue changes (R210, R224, R324, R405, R485, R490).
-/

namespace Sys2Proof.Machine

/-! ## Between two modules one register differs -/

theorem Dev.OnlyReg.refl (d : Dev) (a : Nat) : d.OnlyReg d a := ⟨⟨d.regs, rfl⟩, fun _ _ => rfl⟩

theorem Dev.onlyReg_wr (d : Dev) (a v : Nat) : d.OnlyReg (d.wr a v) a := ⟨⟨_, rfl⟩, fun _ hb => d.rd_wr_ne v hb⟩

theorem Dev.onlyReg_wrF (d : Dev) (a lo n v : Nat) : d.OnlyReg (d.wrF a lo n v) a := d.onlyReg_wr a _

theorem Dev.onlyReg_wrBit (d : Dev) (a i : Nat) (x : Bool) : d.OnlyReg (d.wrBit a i x) a := d.onlyReg_wr a _

/-- A write that depends on a condition touches its register at most. -/
theorem Dev.OnlyReg.ite {d d1 d2 : Dev} {a : Nat} {p : Prop} [Decidable p] (h1 : d.OnlyReg d1 a) (h2 : d.OnlyReg d2 a) :
    d.OnlyReg (if p then d1 else d2) a := by
  split
  · exact h1
  · exact h2

/-! ## The operations of the rows -/

/-- Hours count in every state but OFF (R485). -/
theorem Dev.onlyReg_opPoh (d : Dev) : d.OnlyReg d.opPoh Reg.NVM_POH := (Dev.OnlyReg.refl d _).ite (d.onlyReg_wr _ _)

/-- A retention test shows its result with the channel that it has tested (R490). -/
theorem Dev.onlyReg_opRetention (d : Dev) (c found : Nat) : d.OnlyReg (d.opRetention c found) (Reg.HLTH_DRAM c) :=
  (d.onlyReg_wrF _ _ _ _).ite (.refl d _)

/-- A rank that no access uses goes to power-down, shown with its channel (R405). -/
theorem Dev.onlyReg_opRankDown (d : Dev) (c r : Nat) : d.OnlyReg (d.opRankDown c r) (Reg.MEMC_CH_STATUS c) := by
  unfold Dev.opRankDown
  exact (Dev.OnlyReg.refl d _).ite (d.onlyReg_wrBit _ _ _)

/-! ## From the operation to the row -/

/-- A row whose operation writes one register changes no other, whether the module runs or is halted. -/
theorem Does.onlyReg_of_withDev {c : Instr} {s : State} {d : Dev} {a : Nat} (e : exec c s = s.withDev d)
    (h : s.dev.OnlyReg d a) : ∃ d', Does c s d' ∧ s.dev.OnlyReg d' a :=
  ⟨_, e, (Dev.OnlyReg.refl s.dev a).ite h⟩

/-- A host write whose operation writes one register changes no other of the module out of DOZE. -/
theorem Does.onlyReg_of_onWrite {c : Instr} {s : State} {f : Dev → Dev} {a : Nat} (h : s.dev.answers)
    (only : ∀ d : Dev, d.OnlyReg (f d) a) (e : exec c s = s.onWrite f) :
    ∃ d, Does c s d ∧ s.dev.dozeExit.OnlyReg d a :=
  ⟨_, .of_onWrite h e rfl, only _⟩

/-! ## The obligation -/

/-- Settles O8: each row's operation writes its register alone, and the row does what its operation gives. -/
theorem singleRegisterRowsChangeNothingElse : Obligations.SingleRegisterRowsChangeNothingElse := by
  unfold Obligations.SingleRegisterRowsChangeNothingElse
  refine ⟨fun s k pair runs => ⟨fun enc => ?encWire, fun pps => ?ppsWire⟩, fun s l ans => ?errRestart, fun s ans => ?snapshot,
    fun s => ?hours, fun s c found => ?retention, fun s c r => ?rankDown⟩
  case encWire => exact ⟨_, .of_withDev runs rfl (if_neg enc), s.dev.onlyReg_wrBit _ _ _⟩
  case ppsWire => exact .of_withDev runs rfl (if_pos pps)
  case errRestart => exact Does.onlyReg_of_onWrite ans (fun d => d.onlyReg_wr _ _) rfl
  case snapshot => exact Does.onlyReg_of_onWrite ans (fun d => d.onlyReg_wrBit _ _ _) rfl
  case hours => exact ⟨_, rfl, s.dev.onlyReg_opPoh⟩
  case retention => exact Does.onlyReg_of_withDev rfl (s.dev.onlyReg_opRetention c found)
  case rankDown => exact Does.onlyReg_of_withDev rfl (s.dev.onlyReg_opRankDown c r)

end Sys2Proof.Machine
end

section
/-!
PROOFS. Host writes to the position block, compare outputs, encoder emulation and the ADC (R224, R230-R243).
-/

namespace Sys2Proof.Machine

/-! ## Re-zero (R230) -/

theorem Dev.rezeroBusy_iff (d : Dev) (k : Nat) :
    (d.inService && (d.src == k || d.checkSrc == k)) = true ↔ d.inService = true ∧ (d.src = k ∨ d.checkSrc = k) := by
  simp

section
variable {d : Dev} {k : Nat}

/-- In SERVICE a re-zero on the source in use or the check source is refused. -/
theorem Dev.opRezeroArm_of_busy (busy : d.inService = true ∧ (d.src = k ∨ d.checkSrc = k)) :
    d.opRezeroArm k = (d.rezeroOff k).event 1 .rezeroRefused (vals [k]) := by
  have refused := (d.rezeroBusy_iff k).2 busy
  exact (if_pos refused).trans (if_pos refused)

theorem Dev.opRezeroArm_of_free (free : ¬(d.inService = true ∧ (d.src = k ∨ d.checkSrc = k))) :
    d.opRezeroArm k = (d.wrBit (Reg.POS_ENC_CTRL k) 0 true).wrBit (Reg.POS_ENC_STATUS k) 5 true :=
  if_neg (free ∘ (d.rezeroBusy_iff k).1)

end

/-! ## Compare outputs (R231-R234) -/

/-- An entry is not armed: it has no direction, is armed already, or waits for a time without the feature (R231). -/
def Dev.armRefused (d : Dev) (k j : Nat) : Bool :=
  d.entDir k j == 0 || d.entState k j == 1 || (d.entTimed k j && !d.feat 28)

/-- The module once the entries of an ARM word that are not refused are armed and checked (R231, R233). -/
def Dev.armed (d : Dev) (k : Nat) (js : List Nat) : Dev :=
  js.foldl (fun x j => if d.armRefused k j then x else (x.setEntState k j 1).entCheck k j) d

section
variable {d : Dev} {k : Nat} {hi : Bool} {v : Nat}

theorem Dev.opCmpArm_of_all (all : (armEntries hi v).any (d.armRefused k) = false) :
    d.opCmpArm k hi v = d.armed k (armEntries hi v) :=
  if_neg (Bool.eq_false_iff.1 all)

theorem Dev.opCmpArm_of_refused (refused : (armEntries hi v).any (d.armRefused k) = true) :
    d.opCmpArm k hi v =
      (d.armed k (armEntries hi v)).writeIgnored (if hi then Reg.POS_CMP_ARM_HI k else Reg.POS_CMP_ARM_LO k) v :=
  if_pos refused

theorem Dev.opCmpFire_of_disabled (off : d.cmpEn k = false) : d.opCmpFire k = d := if_neg (Bool.eq_false_iff.1 off)

theorem Dev.opCmpReturn_of_none (idle : (d.cmpSt k).ret = none) : d.opCmpReturn k = d := if_neg (by simp [idle])

theorem Dev.opCmpReturn_of_some {t : Nat} (due : (d.cmpSt k).ret = some t) :
    d.opCmpReturn k = (d.setLevel k false).setReturn k none :=
  if_pos (by simp [due])

end

/-! ## Encoder emulation (R239) -/

/-- The steps that an emulated encoder owes its target. -/
def Dev.emuOwed (d : Dev) (e : Nat) : Int := d.emuTarget e - (d.emuSt e).emitted

/-- The steps owed are more than an output resynchronises over. -/
def emuFar (owed : Int) : Prop := 1048576 < owed ∨ owed < -1048576

section
variable {d : Dev} {e : Nat}

theorem Dev.opEmuStep_of_disabled (off : d.emuEn e = false) : d.opEmuStep e = d := if_neg (Bool.eq_false_iff.1 off)

theorem Dev.opEmuStep_of_far (on : d.emuEn e = true) (far : emuFar (d.emuOwed e)) :
    let d1 := ((d.setEmu e { d.emuSt e with emitted := d.emuTarget e }).showOwed e).event 1 .emuResync
      (ivals [(e : Int), d.emuOwed e])
    d.opEmuStep e = if d1.fieldDriven then d1.send (.pin "EMU" e (d1.emuPins e)) else d1 :=
  (if_pos on).trans (if_pos far)

section
variable (near : ¬emuFar (d.emuOwed e))
include near

theorem Dev.opEmuStep_of_driven (on : d.emuEn e = true) (driven : d.fieldDriven = true) (owes : d.emuOwed e ≠ 0) :
    let d1 := (d.setEmu e { d.emuSt e with
      emitted := (d.emuSt e).emitted + (if 0 < d.emuOwed e then 1 else -1) }).showOwed e
    d.opEmuStep e = d1.send (.pin "EMU" e (d1.emuPins e)) := by
  have steps : ¬(d.fieldDriven = false ∨ d.emuOwed e = 0) := by simp [driven, owes]
  exact (if_pos on).trans ((if_neg near).trans (if_neg steps))

/-- An output that is not driven, or that has reached its target, takes no step. -/
theorem Dev.opEmuStep_of_resting (rests : d.fieldDriven = false ∨ d.emuOwed e = 0) : d.opEmuStep e = d := by
  cases on : d.emuEn e
  · exact Dev.opEmuStep_of_disabled on
  · exact (if_pos on).trans ((if_neg near).trans (if_pos rests))

end

end

/-! ## The obligation -/

/-- Settles O27: the rows of host writes, of the outputs and of the ADC by their equations. -/
theorem positionOutputsAndAdc : Obligations.PositionOutputsAndAdc := by
  unfold Obligations.PositionOutputsAndAdc
  refine ⟨fun s ans => ⟨fun k => ?rezero, ?snapshot, fun k hi v => ?entries⟩,
    fun s runs => ⟨fun k => ?compare, fun e => ?emulation⟩, fun s n code runs => ?adc⟩
  case rezero =>
    have arm : exec (.rezeroArm k) s = s.onWrite (fun d => d.opRezeroArm k) := rfl
    have cancel : exec (.rezeroCancel k) s = s.onWrite (fun d => d.rezeroOff k) := rfl
    exact ⟨fun busy => .of_onWrite ans arm (Dev.opRezeroArm_of_busy busy),
      fun free => .of_onWrite ans arm (Dev.opRezeroArm_of_free free), .of_onWrite ans cancel rfl⟩
  case snapshot =>
    have row : exec .posSnapshot s = s.onWrite (fun d => d.wrBit Reg.POS_CTRL 0 true) := rfl
    exact .of_onWrite ans row rfl
  case entries =>
    have arm : exec (.cmpArm k hi v) s = s.onWrite (fun d => d.opCmpArm k hi v.toNat) := rfl
    have disarm : exec (.cmpDisarm k hi v) s = s.onWrite (fun d => d.opCmpDisarm k hi v.toNat) := rfl
    exact ⟨.of_onWrite ans disarm rfl, fun all => .of_onWrite ans arm (Dev.opCmpArm_of_all all),
      fun refused => .of_onWrite ans arm (Dev.opCmpArm_of_refused refused)⟩
  case compare =>
    exact ⟨fun on => .of_withDev runs rfl (if_pos on), fun off => .of_withDev runs rfl (Dev.opCmpFire_of_disabled off),
      fun idle => .of_withDev runs rfl (Dev.opCmpReturn_of_none idle),
      fun _ due => .of_withDev runs rfl (Dev.opCmpReturn_of_some due)⟩
  case emulation =>
    refine ⟨fun on far => .of_withDev runs rfl (Dev.opEmuStep_of_far on far),
      fun on driven near owes => .of_withDev runs rfl (Dev.opEmuStep_of_driven near on driven owes), ?_⟩
    rintro (off | ⟨near, rests⟩)
    · exact .of_withDev runs rfl (Dev.opEmuStep_of_disabled off)
    · exact .of_withDev runs rfl (Dev.opEmuStep_of_resting near rests)
  case adc => exact ⟨fun due => .of_withDev runs rfl (if_pos due), fun idle => .of_withDev runs rfl (if_neg idle)⟩

end Sys2Proof.Machine
end

section
/-!
PROOFS. Serial frames: what is checked, how a good frame extends the count, the change of a position field and Gray code (R211-R216).
-/

namespace Sys2Proof.Machine

/-! ## The change of a position field (R214) -/

/-- The change leads from the previous value to the present one, modulo the field's range. -/
theorem add_ssiDelta_emod {b p p0 : Nat} (hp : p < 2 ^ b) : ((p0 : Int) + ssiDelta b p p0) % (2 ^ b : Nat) = (p : Int) := by
  have whole : (p0 : Int) + ssiDelta b p p0 =
      p + (2 ^ b : Nat) * -(((p : Int) - p0 + (2 ^ (b - 1) : Nat)) / (2 ^ b : Nat)) := by
    rw [ssiDelta, Int.emod_def]
    ring
  rw [whole, Int.add_mul_emod_self_left]
  exact Int.emod_eq_of_lt (Int.natCast_nonneg p) (Int.ofNat_lt.2 hp)

/-- The change is the least one: it lies within half the field's range. -/
theorem ssiDelta_mem_halfRange {b : Nat} (p p0 : Nat) (hb : 0 < b) :
    -((2 ^ (b - 1) : Nat) : Int) ≤ ssiDelta b p p0 ∧ ssiDelta b p p0 < ((2 ^ (b - 1) : Nat) : Int) := by
  have double : (2 ^ b : Nat) = 2 * 2 ^ (b - 1) := by rw [← Nat.pow_succ', Nat.succ_eq_add_one, Nat.sub_add_cancel hb]
  have range : (0 : Int) < (2 ^ b : Nat) := Int.natCast_pos.2 (Nat.two_pow_pos b)
  have lo := Int.emod_nonneg ((p : Int) - p0 + (2 ^ (b - 1) : Nat)) range.ne'
  have hi := Int.emod_lt_of_pos ((p : Int) - p0 + (2 ^ (b - 1) : Nat)) range
  unfold ssiDelta
  omega

/-! ## Gray code (R212) -/

/-- Gray code reads back: half of a value's code is the code of its half, which gives the bits above the lowest. -/
theorem grayBin_gray (n p : Nat) (hp : p < 2 ^ n) : grayBin n (Nat.xor p (p / 2)) = p := by
  induction n generalizing p with
  | zero => exact (Nat.lt_one_iff.1 hp).symm
  | succ n ih =>
    have half : p / 2 < 2 ^ n := Nat.div_lt_of_lt_mul (Nat.pow_succ' ▸ hp)
    have halves : Nat.xor p (p / 2) / 2 = Nat.xor (p / 2) (p / 2 / 2) := Nat.xor_div_two
    rw [grayBin, halves, ih (p / 2) half]
    exact Nat.xor_xor_cancel_right p (p / 2)

/-! ## Whether a frame runs, and what it begins with (R211, R216) -/

theorem Dev.ssiRuns_iff (d : Dev) (c : Nat) :
    d.ssiRuns c = true ↔ d.chanEn (4 + c) = true ∧ d.inService = true ∧ (d.driving = false ∨ d.ssiDue c = true) := by
  simp [Dev.ssiRuns, and_assoc]

/-- The module once a frame has begun: one that it clocks itself is served and its clock edges are sent (R211, R216). -/
def Dev.ssiBegun (d : Dev) (c : Nat) : Dev := if d.driving = true then (d.ssiServe c).ssiClocks c else d

/-- The error bit of a frame is at its error level (R212, R215). -/
def Dev.ssiErr (d : Dev) (c bits : Nat) : Prop :=
  d.cfB (Reg.POS_SSI_FIELDS c) 18 = true ∧ bitOf bits (d.cfF (Reg.POS_SSI_FIELDS c) 12 6) = d.cfB (Reg.POS_SSI_CFG c) 13

/-- The module after a good frame with position field p has set the count: the frame is counted and shown (R214). -/
def Dev.ssiTaken (d : Dev) (c p : Nat) : Dev :=
  (((d.bump (Reg.POS_SSI_FRAME_COUNT c)).wrF (Reg.POS_SSI_STATUS c) 6 8 0).wr (Reg.POS_SSI_RAW c) p).setSsi c
    { d.ssiSt c with prev := some p, fresh := some d.tc }

/-! ## A frame (R211-R215) -/

section
variable {d : Dev} {c : Nat}

theorem Dev.opSsiFrame_of_not_runs (bits : Nat) (wire : Bool) (off : ¬d.ssiRuns c = true) : d.opSsiFrame c bits wire = d :=
  if_neg off

theorem Dev.opSsiTimeout_of_not_clocked (clocked : Bool) (off : ¬d.ssiRuns c = true ∨ d.driving = false) :
    d.opSsiTimeout c clocked = d :=
  if_neg (by rcases off with h | h <;> simp [h])

theorem Dev.opSsiTimeout_of_clocked (clocked : Bool) (on : d.ssiRuns c = true) (drives : d.driving = true) :
    d.opSsiTimeout c clocked = (if clocked then d.ssiBegun c else d.ssiServe c).ssiBad c 3 := by
  unfold Dev.opSsiTimeout Dev.ssiBegun
  rw [if_pos (by simp [on, drives]), if_pos drives]

/-- The CRC, the error bit and the wire are checked in this order (R215). -/
theorem Dev.opSsiFrame_of_runs {bits : Nat} (wire : Bool) (on : d.ssiRuns c = true) :
    d.opSsiFrame c bits wire =
      if (d.ssiBegun c).ssiCrcOk c bits = false then (d.ssiBegun c).ssiBad c 1
      else if (d.cfB (Reg.POS_SSI_FIELDS c) 18 &&
        bitOf bits (d.cfF (Reg.POS_SSI_FIELDS c) 12 6) == d.cfB (Reg.POS_SSI_CFG c) 13) = true then (d.ssiBegun c).ssiBad c 2
      else if wire = true then (d.ssiBegun c).ssiBad c 5
      else (d.ssiBegun c).ssiGood c ((d.ssiBegun c).ssiPos c bits) :=
  if_pos on

section
variable {bits : Nat} {wire : Bool} (on : d.ssiRuns c = true)
include on

theorem Dev.opSsiFrame_of_badCrc (bad : (d.ssiBegun c).ssiCrcOk c bits = false) :
    d.opSsiFrame c bits wire = (d.ssiBegun c).ssiBad c 1 :=
  (Dev.opSsiFrame_of_runs wire on).trans (if_pos bad)

variable (crc : (d.ssiBegun c).ssiCrcOk c bits = true)
include crc

theorem Dev.opSsiFrame_of_err (err : d.ssiErr c bits) : d.opSsiFrame c bits wire = (d.ssiBegun c).ssiBad c 2 := by
  obtain ⟨has, level⟩ := err
  rw [Dev.opSsiFrame_of_runs wire on, if_neg (by simp [crc]), if_pos (by simp [has, level])]

variable (ok : ¬d.ssiErr c bits)
include ok

/-- A frame without a CRC error and an error bit is bad when its wires disagree, and good otherwise (R215). -/
theorem Dev.opSsiFrame_of_noErr :
    d.opSsiFrame c bits wire =
      if wire = true then (d.ssiBegun c).ssiBad c 5 else (d.ssiBegun c).ssiGood c ((d.ssiBegun c).ssiPos c bits) := by
  rw [Dev.opSsiFrame_of_runs wire on, if_neg (by simp [crc]), if_neg (by simpa [Dev.ssiErr] using ok)]

theorem Dev.opSsiFrame_of_wire (disagrees : wire = true) : d.opSsiFrame c bits wire = (d.ssiBegun c).ssiBad c 5 :=
  (Dev.opSsiFrame_of_noErr on crc ok).trans (if_pos disagrees)

theorem Dev.opSsiFrame_of_good (agrees : wire = false) :
    d.opSsiFrame c bits wire = (d.ssiBegun c).ssiGood c ((d.ssiBegun c).ssiPos c bits) :=
  (Dev.opSsiFrame_of_noErr on crc ok).trans (if_neg (by simp [agrees]))

end

/-! ## A good frame (R214) -/

theorem Dev.ssiGood_of_first (p : Nat) (first : (d.ssiSt c).prev = none) :
    d.ssiGood c p = ((d.wrBit (Reg.POS_SSI_STATUS c) 14 true).initTo (4 + c) (p : Int)).ssiTaken c p := by
  unfold Dev.ssiGood
  rw [first]
  rfl

section
variable {p p0 : Nat} (prev : (d.ssiSt c).prev = some p0)
include prev

theorem Dev.ssiGood_of_possible
    (possible : (ssiDelta (d.cfF (Reg.POS_SSI_FIELDS c) 6 6) p p0).natAbs ≤ d.cf (Reg.POS_SSI_MAX_STEP c)) :
    let dl := ssiDelta (d.cfF (Reg.POS_SSI_FIELDS c) 6 6) p p0
    d.ssiGood c p =
      (d.countTo (4 + c) (d.count (4 + c) + (if d.cfB (Reg.POS_SSI_CFG c) 14 = true then -dl else dl))).ssiTaken c p := by
  unfold Dev.ssiGood
  rw [prev]
  exact if_pos possible

theorem Dev.ssiGood_of_impossible
    (impossible : d.cf (Reg.POS_SSI_MAX_STEP c) < (ssiDelta (d.cfF (Reg.POS_SSI_FIELDS c) 6 6) p p0).natAbs) :
    d.ssiGood c p = d.ssiBad c 4 := by
  unfold Dev.ssiGood
  rw [prev]
  exact if_neg (Nat.not_le.2 impossible)

end

end

/-! ## The obligation -/

/-- Settles O28: the rows by the checks of a frame in their order and by the three ends of a good one, the change of a field by
modular arithmetic, Gray code by induction on the number of bits. -/
theorem serialFramesExtendTheCount : Obligations.SerialFramesExtendTheCount := by
  unfold Obligations.SerialFramesExtendTheCount
  refine ⟨fun s c runs => ?rows, fun b p p0 hb hp _ => ?change, grayBin_gray⟩
  case rows =>
    have gate := s.dev.ssiRuns_iff c
    refine ⟨fun on bits wire => ?frame, fun on drives clocked => ?timeout, fun off clocked => ?noTimeout, fun off bits wire => ?noFrame⟩
    case frame =>
      replace on := gate.2 on
      refine ⟨fun bad => .of_withDev runs rfl (Dev.opSsiFrame_of_badCrc on bad),
        fun crc err => .of_withDev runs rfl (Dev.opSsiFrame_of_err on crc err),
        fun crc ok disagrees => .of_withDev runs rfl (Dev.opSsiFrame_of_wire on crc ok disagrees),
        fun crc ok agrees first => ?_, fun p0 crc ok agrees prev => ⟨fun possible => ?_, fun impossible => ?_⟩⟩
      · exact .of_withDev runs rfl ((Dev.opSsiFrame_of_good on crc ok agrees).trans (Dev.ssiGood_of_first _ first))
      · exact .of_withDev runs rfl ((Dev.opSsiFrame_of_good on crc ok agrees).trans (Dev.ssiGood_of_possible prev possible))
      · exact .of_withDev runs rfl ((Dev.opSsiFrame_of_good on crc ok agrees).trans (Dev.ssiGood_of_impossible prev impossible))
    case timeout => exact .of_withDev runs rfl (Dev.opSsiTimeout_of_clocked clocked (gate.2 on) drives)
    case noTimeout => exact .of_withDev runs rfl (Dev.opSsiTimeout_of_not_clocked clocked (off.imp_left (· ∘ gate.1)))
    case noFrame => exact .of_withDev runs rfl (Dev.opSsiFrame_of_not_runs bits wire (off ∘ gate.1))
  case change => exact ⟨add_ssiDelta_emod hp, ssiDelta_mem_halfRange p p0 hb⟩

end Sys2Proof.Machine
end

section
/-!
PROOFS. The observer's update and the loss of position (R217-R225, R257).
-/

namespace Sys2Proof.Machine

namespace Dev

/-! ## The predictions of an update (R221) -/

/-- The position one update ahead, an update taking 1 us. -/
def predX (d : Dev) : Rat :=
  let ts : Rat := 1 / 1000000
  d.pos.x + d.pos.v * ts + d.pos.a * ts * ts / 2

/-- The speed one update ahead. -/
def predV (d : Dev) : Rat := d.pos.v + d.pos.a * (1 / 1000000)

/-- A measurement lies beyond the tracking limit (R223). -/
abbrev beyondTrack (d : Dev) (m : Rat) : Prop :=
  (d.cf Reg.POS_TRACK_ERR_MAX : Rat) < m - d.predX ∨ m - d.predX < -(d.cf Reg.POS_TRACK_ERR_MAX : Rat)

/-- Measurements beyond the limit in a row, this one included (R223). -/
def errRunAt (d : Dev) (m : Rat) : Nat := if d.beyondTrack m then d.pos.errRun + 1 else 0

theorem errRunAt_of_beyond {d : Dev} {m : Rat} (beyond : d.beyondTrack m) : d.errRunAt m = d.pos.errRun + 1 := if_pos beyond

theorem errRunAt_of_within {d : Dev} {m : Rat} (within : ¬d.beyondTrack m) : d.errRunAt m = 0 := if_neg within

/-- The position block once an update has looked at the serial frames: a good frame counts for one update only
(R214, R221). -/
def noFresh (d : Dev) : PosSt := { d.pos with ssi := d.pos.ssi.map (fun x => (x.1, { x.2 with fresh := none })) }

/-- The position block after a measurement has corrected the predictions by the gains of the bandwidth (R221, R222). -/
def corrected (d : Dev) (m : Rat) : PosSt :=
  let g := obsGains (d.cfF Reg.POS_OBS 0 4)
  let e := m - d.predX
  let ts : Rat := 1 / 1000000
  { d.noFresh with
    x := d.predX + g.1 * e, v := d.predV + g.2.1 * e / ts, a := d.pos.a + g.2.2 * e / (ts * ts), errRun := d.errRunAt m,
    sample := d.tc }

/-- The module after the estimates have started anew at the measured position (R223). -/
def restarted (d : Dev) : Dev :=
  let d1 := ({ d with pos := d.noFresh } : Dev).obsInit
  (d1.wrBit Reg.POS_STATUS 8 true).event 1 .trackReset (ivals [pubI ((d1.pos.x - d.predX) * 65536)])

/-! ## Showing and reporting keep the estimates -/

theorem showObs_pos (d : Dev) : d.showObs.pos = d.pos := by simp [showObs]

theorem showObs_log (d : Dev) : d.showObs.log = d.log := by simp [showObs]

theorem event_pos (d : Dev) (origin : Nat) (ev : Ev) (p : List Byte) : (d.event origin ev p).pos = d.pos := by
  obtain ⟨⟨_, _, _, _, _, e⟩, -⟩ := d.event_touches origin ev p
  rw [e]

/-! ## The update, case by case (R220-R223) -/

section
variable {d : Dev}

theorem obsCore_of_lost (lost : d.src = 7 ∨ d.lost = true) :
    d.obsCore = ({ d with pos := { d.noFresh with v := 0, a := 0, sample := d.tc } } : Dev).showObs :=
  if_pos lost

section
variable (inUse : d.src ≠ 7) (kept : d.lost = false)
include inUse kept

/-- Without a measurement the estimates follow their prediction. -/
theorem obsCore_of_unmeasured (unmeasured : d.obsMeas d.predV = none) :
    d.obsCore = ({ d with pos := { d.noFresh with x := d.predX, v := d.predV, sample := d.tc } } : Dev).showObs := by
  have follows : ¬(d.src = 7 ∨ d.lost = true) := by simp [inUse, kept]
  unfold predV at unmeasured
  unfold obsCore
  refine (if_neg follows).trans ?_
  dsimp only
  rw [unmeasured]
  rfl

variable {m : Rat} (measured : d.obsMeas d.predV = some m)
include measured

/-- The tenth measurement beyond the limit in a row starts the estimates anew, any other measurement corrects them. -/
theorem obsCore_of_measured :
    d.obsCore = if 10 ≤ d.errRunAt m then d.restarted else ({ d with pos := d.corrected m } : Dev).showObs := by
  have follows : ¬(d.src = 7 ∨ d.lost = true) := by simp [inUse, kept]
  unfold predV at measured
  unfold obsCore
  refine (if_neg follows).trans ?_
  dsimp only
  rw [measured]
  rfl

theorem obsCore_of_corrected (few : d.errRunAt m < 10) : d.obsCore = ({ d with pos := d.corrected m } : Dev).showObs :=
  (obsCore_of_measured inUse kept measured).trans (if_neg (Nat.not_le.2 few))

theorem obsCore_of_tenth (tenth : 10 ≤ d.errRunAt m) : d.obsCore = d.restarted :=
  (obsCore_of_measured inUse kept measured).trans (if_pos tenth)

end
end

/-! ## Estimates that start anew (R223) -/

theorem restarted_pos (d : Dev) :
    d.restarted.pos = { d.noFresh with x := d.measured, v := d.recentSpeed d.src, a := 0, errRun := 0, sample := d.tc } := by
  simp only [restarted, event_pos, wrBit_pos, obsInit, showObs_pos]
  rfl

/-! ## Loss of position (R220, R257) -/

theorem opPositionLost_of_done {d : Dev} (done : d.bit Reg.POS_STATUS 4 = false ∨ d.lost = true) : d.opPositionLost = d :=
  if_neg (by rcases done with h | h <;> simp [h])

/-- The module as it stops extrapolating: the estimate stands where coasting has brought it. -/
def standing (d : Dev) : Dev := { d with pos := { d.pos with x := d.xAt d.tc, v := 0, a := 0, sample := d.tc } }

theorem opPositionLost_of_coasted {d : Dev} (coasts : d.bit Reg.POS_STATUS 4 = true) (kept : d.lost = false) :
    let d1 := ((d.standing.wrBit Reg.POS_STATUS 4 false).setLost true).showObs.event 1 .positionLost
      (ivals [pubI (d.standing.pos.x * 65536)])
    d.opPositionLost = d1.abortPosition.speedReact :=
  if_pos (by simp [coasts, kept])

end Dev

/-! ## The obligation -/

/-- Settles O29: each clause on the estimates reads them from the equation of its case, and the rows are their operations. -/
theorem theObserverFollowsItsSource : Obligations.TheObserverFollowsItsSource := by
  unfold Obligations.TheObserverFollowsItsSource
  refine ⟨fun d => ⟨fun lost => ?lost, fun inUse kept unmeasured => ?unmeasured, fun m inUse kept measured within => ?corrected,
    fun m inUse kept measured beyond few => ?beyond, fun m inUse kept measured beyond tenth => ?restarted⟩,
    fun s runs => ⟨.of_withDev runs rfl rfl, fun coasts kept => ?coasted, fun done => ?notCoasting⟩⟩
  case lost =>
    rw [Dev.obsCore_of_lost lost, Dev.showObs_pos]
    exact ⟨rfl, rfl, rfl, rfl⟩
  case unmeasured =>
    rw [Dev.obsCore_of_unmeasured inUse kept unmeasured, Dev.showObs_pos]
    exact ⟨rfl, rfl, rfl, rfl⟩
  case corrected =>
    have run : d.errRunAt m = 0 := Dev.errRunAt_of_within within
    rw [Dev.obsCore_of_corrected inUse kept measured (by omega), Dev.showObs_pos]
    exact ⟨rfl, rfl, rfl, run⟩
  case beyond =>
    have run : d.errRunAt m = d.pos.errRun + 1 := Dev.errRunAt_of_beyond beyond
    rw [Dev.obsCore_of_corrected inUse kept measured (run ▸ few), Dev.showObs_pos, Dev.showObs_log]
    exact ⟨run, rfl⟩
  case restarted =>
    have run : d.errRunAt m = d.pos.errRun + 1 := Dev.errRunAt_of_beyond beyond
    rw [Dev.obsCore_of_tenth inUse kept measured (run ▸ tenth), Dev.restarted_pos]
    exact ⟨rfl, rfl, rfl⟩
  case coasted =>
    exact .of_withDev runs rfl (congrArg Dev.settleStop (Dev.opPositionLost_of_coasted coasts kept))
  case notCoasting => exact .of_withDev runs rfl (congrArg Dev.settleStop (Dev.opPositionLost_of_done done))

end Sys2Proof.Machine
end

section
/-!
PROOFS. Line ticks and the lines they issue, and the end of an overspeed stop (R248, R256, R257, R260, R434).
-/

namespace Sys2Proof.Machine

namespace Dev

/-! ## The tick that is due (R247, R248, R256, R257) -/

/-- The last reference tick that a job's grid phase has reached, for a grid with origin x0 (R247, R248). -/
def reachedTick (d : Dev) (j : Job) (x0 : Rat) : Int := gridPhase (d.xAt d.tc) x0 (Machine.dpiOf j.pitch) / 64

/-- A tick is due when it is the last one that the grid of an active job has reached, and it has not been issued, with the position
kept and in SERVICE. -/
theorem dueTick_eq_some_iff {d : Dev} {j : Job} {k : Nat} :
    d.dueTick j = some k ↔ ∃ x0, j.x0 = some x0 ∧
      ((j.nextTick : Int) ≤ d.reachedTick j x0 ∧ d.lost = false ∧ d.inService = true ∧ j.active = true) ∧
      (d.reachedTick j x0).toNat = k := by
  unfold dueTick
  cases j.x0 with
  | none => simp
  | some x0 => simp [reachedTick]

/-- What keeps every tick of a job back. -/
theorem dueTick_eq_none {d : Dev} {j : Job} (held : d.lost = true ∨ d.inService = false ∨ j.x0 = none) : d.dueTick j = none := by
  refine Option.eq_none_iff_forall_ne_some.2 fun k due => ?_
  obtain ⟨x0, origin, ⟨-, kept, serves, -⟩, -⟩ := dueTick_eq_some_iff.1 due
  rcases held with lost | outside | noOrigin
  · exact Bool.false_ne_true (kept.symm.trans lost)
  · exact Bool.false_ne_true (outside.symm.trans serves)
  · exact nomatch noOrigin.symm.trans origin

/-- Ticks are issued only forward (R256). -/
theorem nextTick_le_of_dueTick {d : Dev} {j : Job} {k : Nat} (due : d.dueTick j = some k) : j.nextTick ≤ k := by
  obtain ⟨x0, -, ⟨reached, -⟩, rfl⟩ := dueTick_eq_some_iff.1 due
  omega

/-! ## A line tick (R248, R434) -/

section
variable {d : Dev} {id : Nat}

theorem opLineTick_of_unknown (unknown : d.findJob id = none) : d.opLineTick id = d := by
  rw [opLineTick, unknown]

variable {j : Job} (found : d.findJob id = some j)
include found

theorem opLineTick_of_notDue (notDue : d.dueTick j = none) : d.opLineTick id = d := by
  simp only [opLineTick, found, notDue]

theorem opLineTick_of_due {k : Nat} (due : d.dueTick j = some k) :
    let bars := j.barList.filter (fun b => (d.bf b).job == id)
    d.opLineTick id =
      ((bars.foldl (fun x b => x.tickBar b k x.tc) (d.modJob id (fun x => { x with nextTick := k + 1 }))).countTakeover).tryTakeback := by
  simp only [opLineTick, found, due]

end

/-! ## The end of an overspeed stop (R260, R267) -/

/-- Firing may resume: the stop is in force, this module decides its end, and the web has advanced 1,000 pitches since x0. -/
abbrev ResumeDue (d : Dev) (x0 : Rat) : Prop :=
  d.bit Reg.FIRE_STATUS 1 = true ∧ d.role ≠ 2 ∧ (25400000 : Rat) / (d.dpi : Rat) ≤ d.pos.x - x0

/-- Every bar leaves suppression by a decision. -/
def unsuppressed (d : Dev) : Dev :=
  (List.range 8).foldl (fun x b => (x.setBf b { x.bf b with suppressed := false }).decision (x.bf b).next b 0xFF 3 0 0) d

/-- The overspeed stop has ended: every bar is out of suppression, the flag is clear and the end reported. -/
def resumed (d : Dev) : Dev :=
  let d2 := ({ d with fire := { d.fire with slowFrom := none } } : Dev).unsuppressed
  ((d2.wrBit Reg.FIRE_STATUS 1 false).event 1 .overspeedResume (vals [d2.lineRate])).speedLimit

theorem opOverspeedResume_of_notCalm {d : Dev} (notCalm : d.fire.slowFrom = none) : d.opOverspeedResume = d := by
  rw [opOverspeedResume, notCalm]

theorem opOverspeedResume_of_calm {d : Dev} {x0 : Rat} (calm : d.fire.slowFrom = some x0) :
    d.opOverspeedResume = if d.ResumeDue x0 then d.resumed else d := by
  rw [opOverspeedResume, calm]
  rfl

end Dev

/-! ## The obligation -/

/-- Settles O30: the rows by the cases of their operations, the clauses on the due tick from what makes a tick due. -/
theorem linesAreIssuedAsTheWebAdvances : Obligations.LinesAreIssuedAsTheWebAdvances := by
  unfold Obligations.LinesAreIssuedAsTheWebAdvances
  refine ⟨fun s id runs => ⟨fun j k found due => ?due, fun j found notDue => ?notDue, fun unknown => ?unknown,
      fun j held => Dev.dueTick_eq_none held, fun j k due => Dev.nextTick_le_of_dueTick due⟩,
    fun s runs => ⟨fun notCalm => ?notCalm, fun x0 calm => ⟨fun ends => ?ends, fun goesOn => ?goesOn⟩⟩⟩
  case due => exact .of_withDev runs rfl (congrArg Dev.settleStop (Dev.opLineTick_of_due found due))
  case notDue => exact .of_withDev runs rfl (congrArg Dev.settleStop (Dev.opLineTick_of_notDue found notDue))
  case unknown => exact .of_withDev runs rfl (congrArg Dev.settleStop (Dev.opLineTick_of_unknown unknown))
  case notCalm => exact .of_withDev runs rfl (Dev.opOverspeedResume_of_notCalm notCalm)
  case ends => exact .of_withDev runs rfl ((Dev.opOverspeedResume_of_calm calm).trans (if_pos ends))
  case goesOn => exact .of_withDev runs rfl ((Dev.opOverspeedResume_of_calm calm).trans (if_neg goesOn))

end Sys2Proof.Machine
end

section
/-!
PROOFS. The queue of commands: a command acts on the module alone, answers a next state and leaves the waiting commands as they are; the
queue runs in its order, and no run stops (R373, R374).
-/

namespace Sys2Proof.Machine

/-! ## One command -/

/-- A command takes the module to what it is after the command, whatever waits behind, and never stops it. -/
theorem exec_eq_next_after (c : Instr) (s : State) : exec c s = .next { s with dev := s.dev.after c } := by
  cases c
  case rasterLine bar part => cases part <;> rfl
  all_goals rfl

/-- Settles O2: the next state is the module after the command. -/
theorem everyCommandCompletes : Obligations.EveryCommandCompletes := by
  unfold Obligations.EveryCommandCompletes
  exact fun c s => ⟨_, exec_eq_next_after c s⟩

/-! ## One step -/

theorem step_of_front (c : Instr) (cs : List Instr) (s : State) :
    step { s with pending := c :: cs } = exec c { s with pending := cs } := rfl

theorem step_of_idle {s : State} (idle : s.pending = []) : step s = .next { s with dev := s.dev.idle } := by
  rw [step, idle]

/-- A step answers a next state, in which the front command waits no longer. -/
theorem step_next (s : State) : ∃ t, step s = .next t ∧ t.pending = s.pending.tail := by
  obtain ⟨d, pending⟩ := s
  cases pending with
  | nil => exact ⟨_, rfl, rfl⟩
  | cons c cs => exact ⟨_, exec_eq_next_after c ⟨d, cs⟩, rfl⟩

theorem runSteps_succ_of_next {n : Nat} {s t : State} (goes : step s = .next t) : runSteps (n + 1) s = runSteps n t := by
  rw [runSteps, goes]

/-- A clock edge shows the age of HOLDOVER; no other register changes (R373, R382). -/
theorem Dev.rd_clockEdge (d : Dev) {a : Nat} (age : a ≠ Reg.TIME_HO_AGE) (err : a ≠ Reg.TIME_EST_ERR) : d.clockEdge.rd a = d.rd a := by
  unfold Dev.clockEdge Dev.showAge
  split
  · exact (Dev.rd_wr_ne _ _ err).trans (Dev.rd_wr_ne _ _ age)
  · rfl

theorem Dev.clockEdge_tc (d : Dev) : d.clockEdge.tc = (d.tc + d.rdF Reg.TIME_STATUS 8 3) % 2 ^ 64 := by
  unfold Dev.clockEdge Dev.showAge
  split
  · simp
  · rfl

theorem Dev.entryStep_of_still {d : Dev} (still : d.entering = false) : d.entryStep = d := if_pos still

/-- A powered module in which no entry is in progress idles for one clock edge. -/
theorem Dev.idle_of_still {d : Dev} (powered : d.pwr.failing = false) (started : d.pwr.stuck = false) (still : d.entering = false) :
    d.idle = d.clockEdge := by
  have kept : d.clockEdge.entering = false := (congrArg (bitOf · 3) (d.rd_clockEdge (by decide) (by decide))).trans still
  rw [Dev.idle, powered, started]
  exact Dev.entryStep_of_still kept

/-- Settles O1: the front command by the definition of a step, the idle step by what it does outside an entry. -/
theorem stepRunsTheFrontCommandOrIdles : Obligations.StepRunsTheFrontCommandOrIdles := by
  unfold Obligations.StepRunsTheFrontCommandOrIdles
  refine ⟨step_of_front, fun s empty powered started still => ⟨?idle, s.dev.clockEdge_tc⟩⟩
  rw [step_of_idle empty, Dev.idle_of_still powered started still]

/-! ## A run -/

/-- Settles O4: by induction over the steps, of which each answers a next state. -/
theorem theModuleNeverStops : Obligations.TheModuleNeverStops := by
  unfold Obligations.TheModuleNeverStops
  intro n
  induction n with
  | zero => exact fun s => ⟨s, rfl, rfl⟩
  | succ n ih =>
    intro s
    obtain ⟨t, goes, rest⟩ := step_next s
    obtain ⟨u, runs, left⟩ := ih t
    refine ⟨u, (runSteps_succ_of_next goes).trans runs, ?_⟩
    rw [left, rest, List.drop_tail]

/-- Settles O3: by induction over the queue, of which each step takes the front command. -/
theorem queueRunsInOrder : Obligations.QueueRunsInOrder := by
  unfold Obligations.QueueRunsInOrder
  intro cs
  induction cs with
  | nil => exact fun rest s => rfl
  | cons c cs ih =>
    intro rest s
    have front : step { s with pending := c :: (cs ++ rest) } = .next { dev := s.dev.after c, pending := cs ++ rest } :=
      exec_eq_next_after c { s with pending := cs ++ rest }
    exact (runSteps_succ_of_next front).trans (ih rest { dev := s.dev.after c, pending := cs ++ rest })

end Sys2Proof.Machine
end

section
/-!
PROOFS. The state after reset, read from the reset values of its registers (R77, R80, R93, R373, R447).
-/

namespace Sys2Proof.Machine

namespace Dev

theorem reset_state : reset.rd Reg.SYS_ID = 0x08200A5E ∧ reset.inHold = true ∧ reset.halted = false := by decide +kernel

theorem reset_permitsOff : reset.permitsOff := by
  unfold permitsOff
  decide +kernel

/-- No feature is accepted after reset, and the set is unlocked (R77). -/
theorem reset_features : reset.featLocked = false ∧ ∀ i : Fin 8, reset.rd (Reg.SYS_FEAT_ACCEPT i) = 0 := by decide +kernel

/-- No queue pair is enabled or active after reset (R93). -/
theorem reset_queues : ∀ q : Fin 16, reset.qEnabled q = false ∧ reset.bit (Reg.HOSTQ_Q_STATUS q) 0 = false := by decide +kernel

theorem reset_mapsWf : reset.mapsWf := by
  have regs : mapWf 0 (resetRegs : NMap Word) = true := by decide +kernel
  have rwh : mapWf 0 (resetRwh : NMap Word) = true := by decide +kernel
  exact ⟨regs, rwh, mapWf_nil 0, mapWf_nil 0⟩

end Dev

/-- Settles O6: the registers by their reset values, the rest by the definition of the reset state. -/
theorem resetStateIsAsTheSpecSays : Obligations.ResetStateIsAsTheSpecSays := by
  unfold Obligations.ResetStateIsAsTheSpecSays
  obtain ⟨id, hold, runs⟩ := Dev.reset_state
  obtain ⟨unlocked, unaccepted⟩ := Dev.reset_features
  exact ⟨rfl, rfl, id, hold, runs, Dev.reset_permitsOff, unlocked, unaccepted, Dev.reset_queues, rfl, rfl, rfl, rfl,
    Dev.reset_mapsWf⟩

end Sys2Proof.Machine
end

section
/-!
PROOFS. A codeword of 40 symbols gives its 64 data bytes back (R398).
-/

namespace Sys2Proof.Machine

theorem rsStep_length {r : List Nat} (s : Nat) (len : r.length = 8) : (rsStep r s).length = 8 := by
  have gen : rsGen.length = 8 := by decide +kernel
  simp [rsStep, pScale, gen, len]

theorem rsCheck_length (ds : List Nat) : (rsCheck ds).length = 8 := by
  have run : ∀ r : List Nat, r.length = 8 → (ds.foldl rsStep r).length = 8 := by
    induction ds with
    | nil => exact fun r len => len
    | cons s ds ih => exact fun r len => ih _ (rsStep_length s len)
  exact run _ List.length_replicate

/-- The symbol of two neighbouring bytes, lower byte first (R398). -/
def rsSymbol (bs : List Byte) (s : Nat) : Nat := byteAt bs (2 * s) + 256 * byteAt bs (2 * s + 1)

theorem rsSymbol_lt (bs : List Byte) (s : Nat) : rsSymbol bs s < 2 ^ 16 := by
  have low : byteAt bs (2 * s) < 256 := (bs.getD _ 0).isLt
  have high : byteAt bs (2 * s + 1) < 256 := (bs.getD _ 0).isLt
  unfold rsSymbol
  omega

theorem leBytes_rsSymbol_zero (a b : Byte) (bs : List Byte) : leBytes 2 (rsSymbol (a :: b :: bs) 0) = [a, b] := by
  have pair := leBytes_leNat [a, b]
  simpa [leNat, rsSymbol, byteAt] using pair

/-- The bytes of the symbols of a string of bytes are that string. -/
theorem flatMap_rsSymbol (n : Nat) (bs : List Byte) (len : bs.length = 2 * n) :
    (List.range n).flatMap (fun s => leBytes 2 (rsSymbol bs s)) = bs := by
  induction n generalizing bs with
  | zero => exact (List.length_eq_zero_iff.1 len).symm
  | succ n ih =>
    match bs, len with
    | a :: b :: bs, len =>
      have shift : ∀ s, rsSymbol (a :: b :: bs) (s + 1) = rsSymbol bs s := fun _ => rfl
      rw [List.range_succ_eq_map, List.flatMap_cons, List.flatMap_map, leBytes_rsSymbol_zero]
      simp only [shift, ih bs (by simp at len; omega)]
      rfl
    | [], len => simp at len
    | [_], len => simp at len; omega

theorem rsEncode_eq (bs : List Byte) :
    rsEncode bs = (List.range 32).map (rsSymbol bs) ++ rsCheck ((List.range 32).map (rsSymbol bs)) := rfl

theorem take_rsEncode (bs : List Byte) : (rsEncode bs).take 32 = (List.range 32).map (rsSymbol bs) := by
  rw [rsEncode_eq, List.take_left' (by simp)]

/-- Settles O46: the data symbols stand in front of the check symbols, and each gives its two bytes back. -/
theorem codewordsCarryTheirData : Obligations.CodewordsCarryTheirData := by
  unfold Obligations.CodewordsCarryTheirData
  refine fun bs len => ⟨?length, ?data, ?symbols⟩
  case length => simp [rsEncode_eq, rsCheck_length]
  case data =>
    rw [rsData, take_rsEncode, List.flatMap_map]
    exact flatMap_rsSymbol 32 bs len
  case symbols =>
    rw [take_rsEncode]
    intro s hs
    obtain ⟨i, -, rfl⟩ := List.mem_map.1 hs
    exact rsSymbol_lt bs i

end Sys2Proof.Machine
end

section
/-!
PROOFS. The redundant pair: epochs (R417), and PAIR_CTRL by the role of the module (R440).
-/

namespace Sys2Proof.Machine

namespace Dev

/-! ## Epochs (R417) -/

theorem rd_seeEpoch_same (d : Dev) {e : Nat} (fits : e < 2 ^ 32) :
    (d.seeEpoch e).rd Reg.PAIR_EPOCH_MAX = max (d.rd Reg.PAIR_EPOCH_MAX) e := by
  rw [seeEpoch, rd_wr_same]
  exact Nat.mod_eq_of_lt (max_lt (d.rd_lt _) fits)

theorem rd_seeEpoch_ne (d : Dev) (e : Nat) {a : Nat} (h : a ≠ Reg.PAIR_EPOCH_MAX) : (d.seeEpoch e).rd a = d.rd a := d.rd_wr_ne _ h

/-! ## PAIR_CTRL (R440) -/

section
variable {d : Dev} (o : Out)

/-- A completion whose RESULT is the epoch. -/
def okWithEpoch (d : Dev) (o : Out) : Dev := d.complete o OK (d.rd Reg.PAIR_EPOCH) []

theorem pairCtrlBody_of_alone (alone : d.role = 0) : d.pairCtrlBody o = d.complete o NOT_IN_PAIR 0 [] := if_pos alone

section
variable {o} (asks : byteAt o.entry 8 = 1)
include asks

theorem pairCtrlBody_resign_of_standby (role : d.role = 2) : d.pairCtrlBody o = d.complete o NOT_ACTIVE 0 [] := by
  simp [pairCtrlBody, asks, role]

theorem pairCtrlBody_resign_of_active (role : d.role = 1) :
    d.pairCtrlBody o = if d.partnerInStep = false then d.complete o OUT_OF_STEP 0 [] else (d.resign 1 d.partnerStep).okWithEpoch o := by
  simp [pairCtrlBody, okWithEpoch, asks, role]

end

section
variable {o} (asks : byteAt o.entry 8 = 2)
include asks

theorem pairCtrlBody_resync_of_standby (role : d.role = 2) : d.pairCtrlBody o = d.startResync.okWithEpoch o := by
  simp [pairCtrlBody, okWithEpoch, asks, role]

theorem pairCtrlBody_resync_of_active (role : d.role = 1) : d.pairCtrlBody o = d.complete o NOT_IN_PAIR 0 [] := by
  simp [pairCtrlBody, asks, role]

end

/-- Takeback is asked for by the preferred module, as a STANDBY in step (R437). -/
theorem pairCtrlBody_takeback (asks : byteAt o.entry 8 = 3) (paired : d.role ≠ 0) :
    d.pairCtrlBody o = if d.role = 2 ∧ d.stepState = 0 ∧ d.preferred = true then (d.shank 0xC (leBytes 8 2)).okWithEpoch o
      else d.complete o TAKEBACK_REFUSED 0 [] := by
  simp [pairCtrlBody, okWithEpoch, asks, paired]

section
variable {o} (no1 : byteAt o.entry 8 ≠ 1) (no2 : byteAt o.entry 8 ≠ 2) (no3 : byteAt o.entry 8 ≠ 3)
include no1 no2 no3

theorem pairCtrlBody_leave_of_standby (role : d.role = 2) : d.pairCtrlBody o = (d.enterHold false id).okWithEpoch o := by
  simp [pairCtrlBody, okWithEpoch, no1, no2, no3, role]

theorem pairCtrlBody_leave_of_active (role : d.role = 1) :
    d.pairCtrlBody o = if d.partnerInStep = true then (d.enterHold true id).okWithEpoch o else d.complete o OUT_OF_STEP 0 [] := by
  simp [pairCtrlBody, okWithEpoch, no1, no2, no3, role]

end

end

end Dev

/-- Settles O49: EPOCH_MAX becomes the larger of the two, and a claim is one more. -/
theorem epochsOnlyGrow : Obligations.EpochsOnlyGrow := by
  unfold Obligations.EpochsOnlyGrow
  refine ⟨fun d e fits => ?_, fun d => Nat.lt_succ_self _⟩
  rw [d.rd_seeEpoch_same fits]
  exact ⟨le_max_left _ _, le_max_right _ _, fun a h => d.rd_seeEpoch_ne e h⟩

/-- Settles O48: the command's body by what it asks and the role of the module. -/
theorem pairControlActsByRole : Obligations.PairControlActsByRole := by
  unfold Obligations.PairControlActsByRole
  intro s q o d starts
  have does : ∀ {d' : Dev}, d.pairCtrlBody o = d' → Does (.pairCtrl q) s (d'.drain q) := fun e => .of_runCmd starts rfl e
  exact ⟨fun alone => does (Dev.pairCtrlBody_of_alone o alone),
    fun asks role => does (Dev.pairCtrlBody_resign_of_standby asks role),
    fun asks role apart => does ((Dev.pairCtrlBody_resign_of_active asks role).trans (if_pos apart)),
    fun asks role inStep => does ((Dev.pairCtrlBody_resign_of_active asks role).trans (if_neg (by simp [inStep]))),
    fun asks role => does (Dev.pairCtrlBody_resync_of_standby asks role),
    fun asks role => does (Dev.pairCtrlBody_resync_of_active asks role),
    fun asks paired unfit => does ((Dev.pairCtrlBody_takeback o asks paired).trans (if_neg unfit)),
    fun asks role inStep preferred => does ((Dev.pairCtrlBody_takeback o asks (by omega)).trans (if_pos ⟨role, inStep, preferred⟩)),
    fun no1 no2 no3 role => does (Dev.pairCtrlBody_leave_of_standby no1 no2 no3 role),
    fun no1 no2 no3 role inStep => does ((Dev.pairCtrlBody_leave_of_active no1 no2 no3 role).trans (if_pos inStep)),
    fun no1 no2 no3 role apart => does ((Dev.pairCtrlBody_leave_of_active no1 no2 no3 role).trans (if_neg (by simp [apart])))⟩

end Sys2Proof.Machine
end

section
/-!
PROOFS. The starts of the domains are admitted in their order within the budget (R481).
-/

namespace Sys2Proof.Machine

/-- Settles O53: by induction over the starts, each of which takes its cost from the budget or ends the admission. -/
theorem admittedStartsFitTheBudget : Obligations.AdmittedStartsFitTheBudget := by
  unfold Obligations.AdmittedStartsFitTheBudget
  intro budget ss
  induction ss generalizing budget with
  | nil => simp [admitSteps]
  | cons s ss ih =>
    by_cases fits : stepCost s.1 ≤ budget
    case pos =>
      obtain ⟨all, within, first⟩ := ih (budget - stepCost s.1)
      have e : admitSteps budget (s :: ss) =
          (s :: (admitSteps (budget - stepCost s.1) ss).1, (admitSteps (budget - stepCost s.1) ss).2) := if_pos fits
      simp only [e, List.cons_append, all, List.map_cons, List.sum_cons, true_and]
      exact ⟨by omega, fun x rest waits => by have := first x rest waits; omega⟩
    case neg =>
      have e : admitSteps budget (s :: ss) = ([], s :: ss) := if_neg fits
      simp only [e]
      exact ⟨rfl, Nat.zero_le _, fun x rest waits => by obtain ⟨rfl, -⟩ := List.cons.inj waits; simpa using fits⟩

end Sys2Proof.Machine
end

section
/-!
PROOFS. Local time: snapshots (R377), PPS (R391, R392), the servo and TIME_STEP (R378-R382), and a base that moves (R374, R375).
-/

namespace Sys2Proof.Machine

/-! ## Snapshots (R377) -/

/-- Settles O40: no register of the snapshot is written again after its own value. -/
theorem snapshotsCaptureOneEdge : Obligations.SnapshotsCaptureOneEdge := by
  unfold Obligations.SnapshotsCaptureOneEdge
  intro s answers d n d1 d2
  have frac : d1.rdF Reg.TIME_SNAP_FRAC 16 16 = d.rdF Reg.TIME_SNAP_FRAC 16 16 := congrArg (fld · 16 16)
    ((Dev.rd_wr_ne _ _ (by decide)).trans ((Dev.rd_wr64_ne _ _ (by decide) (by decide)).trans
      (Dev.rd_wr64_ne _ _ (by decide) (by decide))))
  have kept : ∀ a, a ≠ Reg.TIME_CTRL → a ≠ Reg.TIME_SNAP_FRAC → a ≠ Reg.TIME_SNAP_NS →
      d2.rd a = ((d.wr64 Reg.TIME_SNAP_CNT_LO d.tc).wr64 Reg.TIME_SNAP_SEC_LO (n / oneSec)).rd a := fun a ctrl frac ns =>
    (Dev.rd_wrBit_ne _ _ _ ctrl).trans ((Dev.rd_wr_ne _ _ frac).trans (Dev.rd_wr_ne _ _ ns))
  have fracs : d2.rd Reg.TIME_SNAP_FRAC =
      (n % 65536 + (d.rdF Reg.TIME_SNAP_FRAC 16 16 + 1) % 65536 * 65536) % 2 ^ 32 := by
    rw [← frac]
    exact (Dev.rd_wrBit_ne _ _ _ (by decide)).trans (Dev.rd_wr_same _ _ _)
  refine ⟨.of_onWrite answers rfl ?row, Dev.bit_wrBit_same _ _ _ _ (by decide), ?counter, ?seconds, ?ns, ?low, ?high⟩
  case row => simp only [d2, frac]; rfl
  case counter =>
    rw [Dev.rd64_congr (kept _ (by decide) (by decide) (by decide)) (kept _ (by decide) (by decide) (by decide)),
      Dev.rd64_congr (Dev.rd_wr64_ne _ _ (by decide) (by decide)) (Dev.rd_wr64_ne _ _ (by decide) (by decide)),
      Dev.rd64_wr64_same]
  case seconds =>
    rw [Dev.rd64_congr (kept _ (by decide) (by decide) (by decide)) (kept _ (by decide) (by decide) (by decide)),
      Dev.rd64_wr64_same]
  case ns =>
    refine (Dev.rd_wrBit_ne _ _ _ (by decide)).trans ((Dev.rd_wr_ne _ _ (by decide)).trans ((Dev.rd_wr_same _ _ _).trans ?_))
    exact Nat.mod_eq_of_lt (by omega)
  case low =>
    rw [Dev.rdF, fracs]
    unfold fld
    omega
  case high =>
    rw [Dev.rdF, fracs]
    unfold fld
    omega

namespace Dev

/-! ## PPS (R391, R392) -/

section
variable {d : Dev}

/-- The registers that a pulse of PPS_IN latches. -/
def ppsLatched (d : Dev) : Dev :=
  (d.wr64 Reg.TIME_PPS_IN_CNT_LO d.tc).wr Reg.TIME_PPS_IN_SEQ (d.rd Reg.TIME_PPS_IN_SEQ + 1)

theorem localNow_ppsLatched (d : Dev) : d.ppsLatched.localNow = d.localNow := by
  have rate : d.ppsLatched.rdS Reg.TIME_RATE = d.rdS Reg.TIME_RATE := congrArg (sgn 32)
    ((rd_wr_ne _ _ (by decide)).trans (rd_wr64_ne _ _ (by decide) (by decide)))
  unfold localNow localAt
  rw [rate]
  rfl

theorem opPpsIn_of_short {w : Nat} (short : w < 100) : d.opPpsIn w = d := if_pos short

theorem opPpsIn_of_long {w : Nat} (long : 100 ≤ w) :
    let n := d.ppsLatched.localNow % oneSec
    d.opPpsIn w = if d.cfF Reg.TIME_CFG 0 2 = 2 then
      d.ppsLatched.update (if 2 * n ≤ oneSec then (n : Int) else (n : Int) - (oneSec : Int)) 1 else d.ppsLatched := by
  intro n
  simp only [n, localNow_ppsLatched]
  exact if_neg (Nat.not_lt.2 long)

/-- What lets PPS_OUT rise: it is on, the time is set, the lock condition holds, the second is new, and the module drives its outputs. -/
abbrev PpsDue (d : Dev) : Prop :=
  d.cfB Reg.TIME_PPS_OUT 10 = true ∧ d.bit Reg.TIME_STATUS 4 = true ∧
    (d.cfB Reg.TIME_PPS_OUT 11 = false ∨ d.servoState = 2 ∨ d.servoState = 3) ∧
    (∀ k, d.time.ppsLast = some k → k < d.localNow / oneSec) ∧ d.fieldDriven = true ∧ d.role ≠ 2

/-- PPS_OUT has risen at the present second. -/
def ppsRisen (d : Dev) : Dev :=
  ({ d with time := { d.time with ppsHigh := true, ppsLast := some (d.localNow / oneSec) } } : Dev).send (.pin "PPS_OUT" 0 1)

theorem opPpsOut_eq (d : Dev) [Decidable d.PpsDue] : d.opPpsOut = if d.PpsDue then d.ppsRisen else d := by
  unfold opPpsOut
  have new : (match d.time.ppsLast with | some k => decide (k < d.localNow / oneSec) | none => true) = true ↔
      ∀ k, d.time.ppsLast = some k → k < d.localNow / oneSec := by
    cases d.time.ppsLast <;> simp
  have due : d.PpsDue ↔ (d.cfB Reg.TIME_PPS_OUT 10 && d.bit Reg.TIME_STATUS 4 &&
      (!d.cfB Reg.TIME_PPS_OUT 11 || d.servoState == 2 || d.servoState == 3) &&
      (match d.time.ppsLast with | some k => decide (k < d.localNow / oneSec) | none => true) && d.fieldDriven &&
      d.role != 2) = true := by
    simp only [Bool.and_eq_true, Bool.or_eq_true, new]
    simp [PpsDue, and_assoc, or_assoc]
  simp only [due]
  rfl

end

/-! ## The servo and TIME_STEP (R378-R382) -/

section
variable {d : Dev}

theorem sourceLive_iff (d : Dev) : d.sourceLive = true ↔
    (d.cfF Reg.TIME_CFG 0 2 = 1 ∧ d.feat 37 = true) ∨ d.cfF Reg.TIME_CFG 0 2 = 2 ∨ (d.cfF Reg.TIME_CFG 0 2 = 3 ∧ d.role = 2) := by
  simp [sourceLive, or_assoc]

theorem opServo_of_live {th : Int} {tau : Nat} (live : d.sourceLive = true) :
    d.opServo th tau = d.update th ((tau : Rat) / 1000000000) := if_pos live

theorem opServo_of_not_live {th : Int} {tau : Nat} (dead : ¬d.sourceLive = true) : d.opServo th tau = d := if_neg dead

theorem opHoldover_of_partner (cause : d.cfF Reg.TIME_CFG 0 2 = 3 ∧ d.role ≠ 2) : d.opHoldover 2 = d.toHoldover false := by
  simp [opHoldover, cause]

theorem opHoldover_of_no_partner (cause : ¬(d.cfF Reg.TIME_CFG 0 2 = 3 ∧ d.role ≠ 2)) : d.opHoldover 2 = d := by
  unfold opHoldover
  exact if_neg cause

/-! ## A base that moves (R374, R375) -/

theorem sgn_uns_32 {i : Int} (lo : -2147483648 ≤ i) (hi : i < 2147483648) : sgn 32 (uns 32 i % 2 ^ 32) = i := by
  unfold sgn uns
  split_ifs <;> omega

theorem rebase_rate {d : Dev} {step rate : Int} (lo : -2147483648 ≤ rate) (hi : rate < 2147483648) :
    (d.rebase step rate).rdS Reg.TIME_RATE = rate := by
  unfold rebase rdS wrS
  rw [rd_wr_same]
  exact sgn_uns_32 lo hi

theorem rebase_localAt (d : Dev) {step rate : Int} (start : 0 ≤ d.localAt d.tc + step) :
    (d.rebase step rate).localAt d.tc = d.localAt d.tc + step := by
  have nBase : (d.rebase step rate).time.nBase = (d.localAt d.tc + step).toNat := rfl
  have cBase : (d.rebase step rate).time.cBase = d.tc := rfl
  rw [localAt, nBase, cBase, sub_self, Int.toNat_of_nonneg start]
  simp

end

end Dev

/-- Settles O41: the rows by the cases of their operations, the move of the base by what it leaves of local time. -/
theorem localTimeFollowsItsSource : Obligations.LocalTimeFollowsItsSource := by
  unfold Obligations.LocalTimeFollowsItsSource
  refine ⟨fun s runs => ?pulses, ⟨fun s runs => ?source, fun s q o d starts => ⟨fun none => ?none, fun source => ?waits⟩⟩,
    fun d step rate start lo hi => ?base⟩
  case pulses =>
    intro d d1 n sec due
    have rise := d.opPpsOut_eq
    refine ⟨fun w short => .of_withDev runs rfl (Dev.opPpsIn_of_short short),
      fun w long pps => .of_withDev runs rfl ((Dev.opPpsIn_of_long long).trans (if_pos pps)),
      fun w long other => .of_withDev runs rfl ((Dev.opPpsIn_of_long long).trans (if_neg other)),
      fun rises => .of_withDev runs rfl (rise.trans (if_pos rises)), fun stays => .of_withDev runs rfl (rise.trans (if_neg stays)),
      fun high => .of_withDev runs rfl (if_pos high), fun low => .of_withDev runs rfl (if_neg (ne_true_of_eq_false low))⟩
  case source =>
    intro d src live
    refine ⟨fun th tau => ⟨fun inForce => .of_withDev runs rfl (Dev.opServo_of_live (d.sourceLive_iff.2 inForce)),
        fun dead => .of_withDev runs rfl (Dev.opServo_of_not_live (dead ∘ d.sourceLive_iff.1))⟩,
      .of_withDev runs rfl rfl, fun ptp => .of_withDev runs rfl (if_pos ptp), fun other => .of_withDev runs rfl (if_neg other),
      fun pair away => .of_withDev runs rfl (Dev.opHoldover_of_partner ⟨pair, away⟩),
      fun kept => .of_withDev runs rfl (Dev.opHoldover_of_no_partner (by tauto)),
      fun pending => .of_withDev runs rfl (if_pos pending), fun idle => .of_withDev runs rfl (if_neg (ne_true_of_eq_false idle))⟩
  case none => exact .of_runCmd starts rfl (if_pos none)
  case waits => exact .of_runCmd starts rfl (if_neg source)
  case base =>
    exact ⟨d.rebase_localAt start, rfl, Dev.rebase_rate lo hi, fun a other => Dev.rd_wr_ne _ _ other⟩

end Sys2Proof.Machine
end

section
/-!
PROOFS. Trigger units (R388-R390), and the network ports with the PTP exchanges that give offset and delay (R383-R387, R393).
-/

namespace Sys2Proof.Machine

namespace Dev

/-! ## Trigger units (R388-R390) -/

section
variable {d : Dev} {u : Nat}

/-- A unit is armed for firings that are counted anew. -/
def armedUnit (d : Dev) (u : Nat) : Dev :=
  ({ d with time := { d.time with fired := mapErase u d.time.fired } } : Dev).wrF (Reg.TIME_TRIG_STATUS u) 0 2 1

theorem armUnit_of_ahead (ahead : (d.armedUnit u).localNow < (d.armedUnit u).trigTarget u) : d.armUnit u = d.armedUnit u :=
  if_neg (Nat.not_le.2 ahead)

theorem armUnit_of_reached (reached : (d.armedUnit u).trigTarget u ≤ (d.armedUnit u).localNow) :
    d.armUnit u = ((d.armedUnit u).wrBit (Reg.TIME_TRIG_STATUS u) 2 true).fireUnit u := if_pos reached

theorem fireUnit_of_not_due (idle : d.trigState u ≠ 1 ∨ d.localNow < d.trigTarget u) : d.fireUnit u = d :=
  if_neg (by rintro ⟨armed, reached⟩; omega)

section
variable (d u)

/-- How often a unit has fired, counting the firing that is due. -/
def firings : Nat := mapGet 0 d.time.fired u + 1

/-- A firing is counted and serves its consumers. -/
def served : Dev :=
  (({ d with time := { d.time with fired := mapSet 0 d.time.fired u (d.firings u) } } : Dev).bump
    (Reg.TIME_TRIG_FIRE_COUNT u)).trigConsumers u

/-- The period of a unit in 2^-16 ns. -/
def trigPeriod : Nat := d.rd (Reg.TIME_TRIG_PERIOD u) * (if d.bit (Reg.TIME_TRIG_CFG u) 0 = true then 1000 else 1) * 65536

/-- No firing follows the one that is due (R389). -/
abbrev LastFiring : Prop :=
  d.trigPeriod u = 0 ∨ (0 < d.rd (Reg.TIME_TRIG_COUNT u) ∧ d.rd (Reg.TIME_TRIG_COUNT u) ≤ d.firings u)

/-- Firings whose time has passed beside the one that is due. -/
def passedFirings : Nat := (d.localNow - d.trigTarget u) / d.trigPeriod u

/-- A unit that has fired advances past the present and counts what it passed over (R389). -/
def advanced : Dev :=
  ((d.served u).setTarget u (d.trigTarget u + (d.passedFirings u + 1) * d.trigPeriod u)).wrF (Reg.TIME_TRIG_STATUS u) 16 16
    (satU 16 (d.rdF (Reg.TIME_TRIG_STATUS u) 16 16 + d.passedFirings u))

end

theorem fireUnit_of_due (armed : d.trigState u = 1) (reached : d.trigTarget u ≤ d.localNow) :
    d.fireUnit u = if d.LastFiring u then (d.served u).wrF (Reg.TIME_TRIG_STATUS u) 0 2 2 else d.advanced u :=
  if_pos ⟨armed, reached⟩

/-- The next target lies past the present (R389). -/
theorem localNow_lt_nextTarget (goesOn : d.trigPeriod u ≠ 0) :
    d.localNow < d.trigTarget u + (d.passedFirings u + 1) * d.trigPeriod u := by
  have past := Nat.lt_div_mul_add (a := d.localNow - d.trigTarget u) (Nat.pos_of_ne_zero goesOn)
  unfold passedFirings
  rw [Nat.succ_mul]
  omega

end

/-! ## Ports (R387, R393) -/

section
variable {d : Dev} {p : Nat}

theorem opNetUp_of_enabled (enabled : d.cfB (Reg.NET_PORT_CFG p) 0 = true) (down : d.bit (Reg.NET_PORT_STATUS p) 0 = false) :
    let u := d.wrBit (Reg.NET_PORT_STATUS p) 0 true
    d.opNetUp p = (if u.ptpOn p = true then u.setPortPtp p 4 else u).event 2 .netLinkUp (vals [p]) :=
  if_pos (by simp [enabled, down])

theorem opNetUp_of_other (other : d.cfB (Reg.NET_PORT_CFG p) 0 = false ∨ d.bit (Reg.NET_PORT_STATUS p) 0 = true) : d.opNetUp p = d :=
  if_neg (by rcases other with off | up <;> simp [*])

/-- Replacing a port shows the length of its time stamp queue and no more. -/
theorem bit_setNp (d : Dev) (p : Nat) (x : NetPort) {a i : Nat} (h : a = Reg.NET_PORT_TSQ_STATUS p → 5 ≤ i) :
    (d.setNp p x).bit a i = d.bit a i := by
  unfold setNp bit bitOf
  by_cases e : a = Reg.NET_PORT_TSQ_STATUS p
  · have beside := rdF_wrF_other ({ d with net := mapSet {} d.net p x } : Dev) a 0 5 x.tsq.length (lo' := i) (n' := 1) (by decide)
      (.inr (h e))
    rw [← e]
    exact congrArg (fun w => w == 1) beside
  · rw [rd_wrF_ne _ _ _ _ e]
    rfl

/-- A time stamp is lost, and with it the message that waits for one. -/
def tsqLost (d : Dev) (p : Nat) : Dev :=
  ((d.bump (Reg.NET_PORT_TSQ_DROP p)).bump (Reg.NET_PORT_TS_LOST p)).setNp p { d.np p with req := none }

theorem bit_tsqLost (d : Dev) (p : Nat) : (d.tsqLost p).bit (Reg.NET_PORT_TSQ_STATUS p) 5 = d.bit (Reg.NET_PORT_TSQ_STATUS p) 5 := by
  have dropped : Reg.NET_PORT_TSQ_STATUS p ≠ Reg.NET_PORT_TSQ_DROP p := by unfold Reg.NET_PORT_TSQ_STATUS Reg.NET_PORT_TSQ_DROP; omega
  have lost : Reg.NET_PORT_TSQ_STATUS p ≠ Reg.NET_PORT_TS_LOST p := by unfold Reg.NET_PORT_TSQ_STATUS Reg.NET_PORT_TS_LOST; omega
  exact (bit_setNp _ _ _ fun _ => le_refl 5).trans (congrArg (bitOf · 5) ((rd_bump_ne _ lost).trans (rd_bump_ne _ dropped)))

theorem opTsqOverflow_of_full (full : 16 ≤ (d.np p).tsq.length) :
    d.opTsqOverflow p = if (d.tsqLost p).bit (Reg.NET_PORT_TSQ_STATUS p) 5 = true then d.tsqLost p
      else ((d.tsqLost p).wrBit (Reg.NET_PORT_TSQ_STATUS p) 5 true).event 2 .tsqOverflow (vals [p]) := by
  rw [bit_tsqLost]
  exact if_pos full

theorem opTsqOverflow_of_room (room : (d.np p).tsq.length < 16) : d.opTsqOverflow p = d := if_neg (Nat.not_le.2 room)

section
variable {e : TsEntry} {rest : List TsEntry}

theorem opTsqPop_of_empty (empty : (d.np p).tsq = []) : d.opTsqPop p = d := by simp only [opTsqPop, empty]

theorem opTsqPop_of_awaited (oldest : (d.np p).tsq = e :: rest) (awaited : (d.np p).req = some (e.id, none)) :
    d.opTsqPop p = d.setNp p { d.np p with tsq := rest, req := some (e.id, some e.time) } := by
  simp only [opTsqPop, oldest, awaited, if_true]

theorem opTsqPop_of_unawaited (oldest : (d.np p).tsq = e :: rest) (unawaited : (d.np p).req ≠ some (e.id, none)) :
    d.opTsqPop p = d.setNp p { d.np p with tsq := rest } := by
  rcases asks : (d.np p).req with _ | ⟨s, _ | t⟩
  · simp only [opTsqPop, oldest, asks]
  · have other : s ≠ e.id := fun same => unawaited (asks.trans (same ▸ rfl))
    simp only [opTsqPop, oldest, asks, if_neg other]
  · simp only [opTsqPop, oldest, asks]

end

/-! ## PTP messages (R384-R386) -/

section
variable {h : PtpHead} {body : PtpBody}

/-- A message of another kind, domain or transport, or on a port without PTP. -/
abbrev PtpDiscards (d : Dev) (p : Nat) (h : PtpHead) (body : PtpBody) : Prop :=
  d.ptpOn p = false ∨ h.transportOk = false ∨ h.domain.toNat ≠ d.cfF Reg.NET_CFG 8 8 ∨ body = .other

theorem opPtp_of_link (link : d.bit (Reg.NET_PORT_STATUS p) 0 = true) :
    d.opPtp p h body = if d.PtpDiscards p h body then d.bump (Reg.NET_PORT_RX_DISCARD p)
      else (d.bump (Reg.NET_PORT_RX_COUNT p)).ptpBody p h body := if_neg (by simp [link])

/-- The port is the slave port, calibrated or not yet. -/
abbrev SlavePort (d : Dev) (p : Nat) : Prop := d.portPtp p = 8 ∨ d.portPtp p = 9

theorem ptpBody_sync {a : PtpAnnounce} (slave : d.SlavePort p) (parent : (d.np p).best = some (h.source.toNat, a)) (two : Bool)
    (origin : Nat) (li : Int) :
    d.ptpBody p h (.sync two origin li) =
      if two = true then d.setNp p { d.np p with sync := some (h.source.toNat, h.seq.toNat, d.ingress p, h.correction, li) }
      else d.syncDone p ((origin : Int) + h.correction) (d.ingress p) li := by
  rcases slave with s | s <;> simp [ptpBody, s, parent]

theorem ptpBody_sync_of_other (other : ¬d.SlavePort p) (two : Bool) (origin : Nat) (li : Int) :
    d.ptpBody p h (.sync two origin li) = d := by
  obtain ⟨n8, n9⟩ := not_or.1 other
  simp [ptpBody, n8, n9]

theorem ptpBody_delayResp {a : PtpAnnounce} {t3 : Nat} {ms : Int} (slave : d.SlavePort p)
    (parent : (d.np p).best = some (h.source.toNat, a)) (mine : h.requesting.toNat = d.portId p) (endToEnd : d.cfB Reg.NET_CFG 3 = false)
    (asked : (d.np p).req = some (h.seq.toNat, some t3)) (measured : (d.np p).ms = some ms) (rx : Nat) :
    d.ptpBody p h (.delayResp rx) = (d.setNp p { d.np p with req := none }).setDelay p
      ((((ms + ((rx : Int) - h.correction - (t3 : Int))) : Int) : Rat) / 2) := by
  rcases slave with s | s <;> simp [ptpBody, s, parent, mine, endToEnd, asked, measured]

theorem ptpBody_pdelayReq (endToEnd : d.cfB Reg.NET_CFG 3 = false) : d.ptpBody p h .pdelayReq = d := by
  simp [ptpBody, endToEnd]

end

end

end Dev

/-- Settles O42: the rows by their operations, a unit by whether its firing is the last. -/
theorem triggerUnitsFireAndAdvance : Obligations.TriggerUnitsFireAndAdvance := by
  unfold Obligations.TriggerUnitsFireAndAdvance
  refine ⟨fun s v answers => ⟨.of_onWrite (f := (·.opTrigArm v.toNat)) answers rfl rfl,
      .of_onWrite (f := (·.opTrigDisarm v.toNat)) answers rfl rfl⟩,
    fun d u => ⟨Dev.armUnit_of_ahead, Dev.armUnit_of_reached, Dev.fireUnit_of_not_due, fun armed reached => ⟨fun last => ?done, ?goesOn⟩⟩⟩
  case done => exact (Dev.fireUnit_of_due armed reached).trans (if_pos last)
  case goesOn =>
    intro period more
    have goesOn : ¬d.LastFiring u := by
      rintro (none | ⟨limited, used⟩)
      · exact period none
      · rcases more with unlimited | left
        · exact absurd unlimited (Nat.pos_iff_ne_zero.1 limited)
        · exact absurd used (Nat.not_le.2 left)
    exact ⟨(Dev.fireUnit_of_due armed reached).trans (if_neg goesOn), Dev.localNow_lt_nextTarget period⟩

/-- Settles O43: the rows by the state of the port, the messages by the equation of their kind. -/
theorem portsCarryPtp : Obligations.PortsCarryPtp := by
  unfold Obligations.PortsCarryPtp
  refine ⟨fun s p => ⟨fun runs => ?rows, fun answers => ?pops⟩, fun d p h => ?messages⟩
  case rows =>
    refine ⟨fun enabled down => .of_withDev runs rfl (Dev.opNetUp_of_enabled enabled down),
      fun other => .of_withDev runs rfl (Dev.opNetUp_of_other other),
      fun up => .of_withDev runs rfl (if_pos up), fun down => .of_withDev runs rfl (if_neg (ne_true_of_eq_false down)),
      fun full => ⟨fun known => ?again, fun first => ?first⟩, fun room => .of_withDev runs rfl (Dev.opTsqOverflow_of_room room),
      fun h body => ⟨fun down => .of_withDev runs rfl (if_pos down), fun link bad => ?discarded, fun link good => ?taken⟩⟩
    case again => exact .of_withDev runs rfl ((Dev.opTsqOverflow_of_full full).trans (if_pos known))
    case first => exact .of_withDev runs rfl ((Dev.opTsqOverflow_of_full full).trans (if_neg (ne_true_of_eq_false first)))
    case discarded => exact .of_withDev runs rfl ((Dev.opPtp_of_link link).trans (if_pos bad))
    case taken => exact .of_withDev runs rfl ((Dev.opPtp_of_link link).trans (if_neg good))
  case pops =>
    have pop : exec (.tsqPop p) s = s.onWrite (·.opTsqPop p) := rfl
    exact ⟨fun empty => .of_onWrite answers pop (Dev.opTsqPop_of_empty empty),
      fun e rest oldest awaited => .of_onWrite answers pop (Dev.opTsqPop_of_awaited oldest awaited),
      fun e rest oldest unawaited => .of_onWrite answers pop (Dev.opTsqPop_of_unawaited oldest unawaited)⟩
  case messages =>
    exact ⟨fun a slave parent origin li => Dev.ptpBody_sync slave parent false origin li,
      fun a slave parent origin li => Dev.ptpBody_sync slave parent true origin li,
      fun other two origin li => Dev.ptpBody_sync_of_other other two origin li,
      fun a t3 ms rx slave parent mine endToEnd asked measured => Dev.ptpBody_delayResp slave parent mine endToEnd asked measured rx,
      Dev.ptpBody_pdelayReq⟩

end Sys2Proof.Machine
end

section
/-!
PROOFS. The colour and register loops: their cycles (R355-R367, R376), ramps (R362, R363), LOOP_CTRL (R354), and a correction within its
limits (R360, R367).
-/

namespace Sys2Proof.Machine

namespace Dev

/-! ## Cycles (R355-R367, R376) -/

/-- A loop whose feature is number n runs no cycle at all (R354). -/
abbrev LoopOff (d : Dev) (n : Nat) : Prop := d.inService = false ∨ d.role = 2 ∨ d.feat n = false

theorem mulDue_eq_false_iff (d : Dev) (served per : Nat) :
    d.mulDue served per = false ↔ per = 0 ∨ d.localNow / per * per < served := by
  simp only [mulDue, Bool.and_eq_false_iff, bne_eq_false_iff_eq, decide_eq_false_iff_not, Nat.not_le]

/-- The colour cycle has nothing to do now. -/
abbrev ColourOff (d : Dev) : Prop :=
  let per := usLocal (d.cf Reg.LOOP_COL_CYCLE)
  d.LoopOff 35 ∨ per = 0 ∨ d.localNow / per * per < d.loop.colServed

/-- The register cycle has nothing to do now. -/
abbrev RegisterOff (d : Dev) : Prop :=
  let per := usLocal (d.cf Reg.LOOP_REG_CYCLE)
  d.LoopOff 36 ∨ per = 0 ∨ d.localNow / per * per < d.loop.regServed

theorem colourOff_iff (d : Dev) : d.ColourOff ↔
    d.inService = false ∨ d.role = 2 ∨ d.feat 35 = false ∨ d.mulDue d.loop.colServed (usLocal (d.cf Reg.LOOP_COL_CYCLE)) = false := by
  rw [mulDue_eq_false_iff]
  simp only [ColourOff, LoopOff, or_assoc]

theorem registerOff_iff (d : Dev) : d.RegisterOff ↔
    d.inService = false ∨ d.role = 2 ∨ d.feat 36 = false ∨ d.mulDue d.loop.regServed (usLocal (d.cf Reg.LOOP_REG_CYCLE)) = false := by
  rw [mulDue_eq_false_iff]
  simp only [RegisterOff, LoopOff, or_assoc]

section
variable {d : Dev}

theorem opColourCycle_of_off (off : d.ColourOff) : d.opColourCycle = d := if_pos (d.colourOff_iff.1 off)

theorem opColourCycle_of_due (due : ¬d.ColourOff) :
    let per := usLocal (d.cf Reg.LOOP_COL_CYCLE)
    d.opColourCycle = (List.range 8).foldl (fun x b => x.colourBar (d.framesFrom d.loop.colFrom) b)
      (({ d with loop := { d.loop with colFrom := d.rd64 Reg.NVM_LOG_NEXT_LO, colServed := d.localNow / per * per + 1 } } : Dev).bump
        Reg.LOOP_COL_CYCLES) := if_neg (mt d.colourOff_iff.2 due)

theorem opRegisterCycle_of_off (off : d.RegisterOff) : d.opRegisterCycle = d := if_pos (d.registerOff_iff.1 off)

theorem opRegisterCycle_of_due (due : ¬d.RegisterOff) :
    let per := usLocal (d.cf Reg.LOOP_REG_CYCLE)
    d.opRegisterCycle = (List.range 8).foldl
      (fun x b => x.registerBar (d.framesFrom d.loop.regFrom) (d.cfF Reg.LOOP_REG_CFG 0 3) b)
      (({ d with loop := { d.loop with regFrom := d.rd64 Reg.NVM_LOG_NEXT_LO, regServed := d.localNow / per * per + 1 } } : Dev).bump
        Reg.LOOP_REG_CYCLES) := if_neg (mt d.registerOff_iff.2 due)

end

/-! ## Ramps (R362, R363) -/

section
variable {d : Dev} {b : Nat}

theorem opRampStep_of_none (none : mapGet none d.loop.ramps b = none) : d.opRampStep b = d := by
  simp only [opRampStep, none]

variable {r : Ramp} (ramp : mapGet none d.loop.ramps b = some r)
include ramp

theorem opRampStep_of_waiting (waits : d.role = 2 ∨ (r.seq ≠ 0 ∧ ∃ p ∈ d.job.commits, p.cp.seq = r.seq)) : d.opRampStep b = d := by
  simp only [opRampStep, ramp]
  refine if_pos (waits.imp_right ?_)
  rintro ⟨posted, p, pending, mine⟩
  exact List.any_eq_true.2 ⟨p, pending, by simp [mine, posted]⟩

section
variable (goesOn : ¬(d.role = 2 ∨ (r.seq ≠ 0 ∧ ∃ p ∈ d.job.commits, p.cp.seq = r.seq)))
include goesOn

/-- A step that waits for nothing has taken effect, or has expired. -/
theorem opRampStep_of_not_waiting : d.opRampStep b =
    if r.seq = 0 ∨ d.activeBank b 1 0 ≠ r.bank then (if r.stop then d.setRamp b none else d.postStep b 0 r)
    else
      let d1 := (d.takeStep b r.k r).wrF (Reg.LOOP_BAR_RAMP b) 1 7 r.k
      if r.k = r.steps ∨ r.stop then d1.endRamp b r else d1.postStep b (r.line + r.dist) { r with k := r.k + 1 } := by
  simp only [opRampStep, ramp]
  refine if_neg (mt (Or.imp_right fun any => ?_) goesOn)
  obtain ⟨p, pending, mine⟩ := List.any_eq_true.1 any
  obtain ⟨same, posted⟩ : p.cp.seq = r.seq ∧ r.seq ≠ 0 := by simpa using mine
  exact ⟨posted, p, pending, same⟩

theorem opRampStep_of_expired (expired : ¬(r.seq ≠ 0 ∧ d.activeBank b 1 0 = r.bank)) :
    d.opRampStep b = if r.stop then d.setRamp b none else d.postStep b 0 r :=
  (opRampStep_of_not_waiting ramp goesOn).trans (if_pos (by tauto))

theorem opRampStep_of_taken (taken : r.seq ≠ 0 ∧ d.activeBank b 1 0 = r.bank) :
    let d1 := (d.takeStep b r.k r).wrF (Reg.LOOP_BAR_RAMP b) 1 7 r.k
    d.opRampStep b = if r.k = r.steps ∨ r.stop then d1.endRamp b r else d1.postStep b (r.line + r.dist) { r with k := r.k + 1 } :=
  (opRampStep_of_not_waiting ramp goesOn).trans (if_neg (by tauto))

end

end

/-! ## LOOP_CTRL (R354) -/

section
variable {d : Dev} {o : Out}

/-- The bars that LOOP_CTRL names. -/
def loopBars (d : Dev) (o : Out) : List Nat := if byteAt o.entry 10 = 0xFF then d.enBars else [byteAt o.entry 10]

/-- LOOP_CTRL names a bar that is not enabled. -/
abbrev LoopBarBad (d : Dev) (o : Out) : Prop := ∃ b ∈ d.loopBars o, 8 ≤ b ∨ d.barEn b = false

/-- LOOP_CTRL starts the colour loop of a bar for which a tone record waits or a tone table loads. -/
abbrev LoopLocked (d : Dev) (o : Out) : Prop :=
  byteAt o.entry 8 = 0 ∧ byteAt o.entry 9 = 1 ∧ ∃ b ∈ d.loopBars o, (∃ p ∈ d.pendOn b, p.cp.kind = 1) ∨ d.toneLoads b = true

/-- The loop of every named bar is switched. -/
def loopSwitched (d : Dev) (o : Out) : Dev :=
  (d.loopBars o).foldl
    (fun x b => if byteAt o.entry 8 = 0 then x.switchColour (byteAt o.entry 9) b else x.setLoopState 1 b (byteAt o.entry 9)) d

theorem loopBody_eq (d : Dev) (o : Out) [Decidable (d.LoopBarBad o)] [Decidable (d.LoopLocked o)] :
    d.loopBody o = if d.LoopBarBad o then d.complete o OUT_OF_RANGE 0 [] else if d.LoopLocked o then d.complete o TABLE_LOCKED 0 []
      else (d.loopSwitched o).complete o OK 0 [] := by
  have bad : d.LoopBarBad o ↔ (d.loopBars o).any (fun b => decide (8 ≤ b) || !d.barEn b) = true := by simp [LoopBarBad]
  have locked : d.LoopLocked o ↔ byteAt o.entry 8 = 0 ∧ byteAt o.entry 9 = 1 ∧
      (d.loopBars o).any (fun b => (d.pendOn b).any (fun p => p.cp.kind == 1) || d.toneLoads b) = true := by simp [LoopLocked]
  simp only [bad, locked]
  rfl

end

/-! ## A correction (R360, R367) -/

theorem clampI_mem {m : Int} (v : Int) (h : 0 ≤ m) : -m ≤ clampI m v ∧ clampI m v ≤ m := by
  unfold clampI
  omega

/-- A value within the limit that is moved and clamped lies between where it was and where it would have been. -/
theorem clampI_between {m old u : Int} (lo : -m ≤ old) (hi : old ≤ m) :
    min 0 u ≤ clampI m (old + u) - old ∧ clampI m (old + u) - old ≤ max 0 u := by
  unfold clampI
  omega

theorem roundAway_nonneg {q : Rat} (h : 0 ≤ q) : 0 ≤ roundAway q := by
  rw [roundAway, if_neg (not_lt.2 h)]
  exact Rat.le_floor_iff.2 (by push_cast; linarith)

section
variable (d : Dev)

/-- The dead band of the colour loop. -/
def colourDead : Rat := ((d.cfF Reg.LOOP_COL_DEADBAND 0 16 : Nat) : Rat) / 100

/-- The most that a correction may move, and the largest that it may be. -/
def colourRate : Int := ((d.cfF Reg.LOOP_COL_RATE 0 11 : Nat) : Int)
def colourLimit : Int := ((d.cfF Reg.LOOP_COL_RATE 16 12 : Nat) : Int)

/-- How far a variable moves for an error, before the limit of its value. -/
def colourMove (e : Rat) : Int :=
  let k := roundAway (((d.cfF Reg.LOOP_COL_GAIN 0 16 : Nat) : Rat) / 16 * ((if e < 0 then -e else e) - d.colourDead))
  clampI d.colourRate (if e < 0 then k else -k)

variable {d} {old : Int} {e : Rat}

theorem colourNew_of_dead (lo : -d.colourDead ≤ e) (hi : e ≤ d.colourDead) : d.colourNew old e = (old, false) := by
  refine if_pos ?_
  show (if e < 0 then -e else e) ≤ d.colourDead
  split <;> linarith

theorem colourNew_of_alive (alive : e < -d.colourDead ∨ d.colourDead < e) :
    (d.colourNew old e).1 = clampI d.colourLimit (old + d.colourMove e) := by
  have outside : ¬(if e < 0 then -e else e) ≤ d.colourDead := by
    have dead : 0 ≤ d.colourDead := by unfold colourDead; positivity
    split <;> rcases alive with low | high <;> linarith
  exact congrArg Prod.fst (if_neg outside)

theorem colourMove_le_rate (d : Dev) (e : Rat) : -d.colourRate ≤ d.colourMove e ∧ d.colourMove e ≤ d.colourRate :=
  clampI_mem _ (Int.natCast_nonneg _)

/-- A move is against its error. -/
theorem colourMove_against (alive : e < -d.colourDead ∨ d.colourDead < e) :
    (0 ≤ e → d.colourMove e ≤ 0) ∧ (e ≤ 0 → 0 ≤ d.colourMove e) := by
  have rate : 0 ≤ d.colourRate := Int.natCast_nonneg _
  have dead : 0 ≤ d.colourDead := by unfold colourDead; positivity
  have beyond : 0 ≤ (if e < 0 then -e else e) - d.colourDead := by
    split <;> rcases alive with low | high <;> linarith
  have k : 0 ≤ roundAway (((d.cfF Reg.LOOP_COL_GAIN 0 16 : Nat) : Rat) / 16 * ((if e < 0 then -e else e) - d.colourDead)) :=
    roundAway_nonneg (mul_nonneg (by positivity) beyond)
  unfold colourMove clampI
  refine ⟨fun up => ?_, fun down => ?_⟩
  · rw [if_neg (not_lt.2 up)] at k ⊢
    simp only [if_neg (not_lt.2 up)]
    omega
  · have below : e < 0 := lt_of_le_of_ne down fun zero => by subst zero; rcases alive with low | high <;> linarith
    simp only [if_pos below] at k ⊢
    omega

end

end Dev

/-- Settles O39: the rows by the cases of their operations, a correction by its move, which is against the error and limited. -/
theorem loopsCorrectWithinLimits : Obligations.LoopsCorrectWithinLimits := by
  unfold Obligations.LoopsCorrectWithinLimits
  refine ⟨⟨fun s runs => ⟨fun off => .of_withDev runs rfl (Dev.opColourCycle_of_off off),
      fun due => .of_withDev runs rfl (Dev.opColourCycle_of_due due), fun off => .of_withDev runs rfl (Dev.opRegisterCycle_of_off off),
      fun due => .of_withDev runs rfl (Dev.opRegisterCycle_of_due due), fun b => ⟨fun none => ?noRamp, fun r ramp => ?ramp⟩⟩,
    fun s q o d starts => ?switch⟩, fun d old e => ?correction⟩
  case noRamp => exact .of_withDev runs rfl (Dev.opRampStep_of_none none)
  case ramp =>
    exact ⟨fun waits => .of_withDev runs rfl (Dev.opRampStep_of_waiting ramp waits),
      fun goesOn expired stops => .of_withDev runs rfl ((Dev.opRampStep_of_expired ramp goesOn expired).trans (if_pos stops)),
      fun goesOn expired on => .of_withDev runs rfl ((Dev.opRampStep_of_expired ramp goesOn expired).trans
        (if_neg (ne_true_of_eq_false on))),
      fun goesOn taken last => .of_withDev runs rfl ((Dev.opRampStep_of_taken ramp goesOn taken).trans (if_pos last)),
      fun goesOn taken more on => .of_withDev runs rfl ((Dev.opRampStep_of_taken ramp goesOn taken).trans
        (if_neg (not_or.2 ⟨more, ne_true_of_eq_false on⟩)))⟩
  case switch =>
    classical
    have body := d.loopBody_eq o
    exact ⟨fun bad => .of_runMatched starts rfl (body.trans (if_pos bad)),
      fun fine locked => .of_runMatched starts rfl (body.trans ((if_neg fine).trans (if_pos locked))),
      fun fine free => .of_runMatched starts rfl (body.trans ((if_neg fine).trans (if_neg free)))⟩
  case correction =>
    refine ⟨Dev.colourNew_of_dead, fun alive => ?limit, fun lo hi => ?rate, fun lo hi => ?against⟩
    case limit =>
      rw [Dev.colourNew_of_alive alive]
      exact Dev.clampI_mem _ (Int.natCast_nonneg _)
    case rate =>
      by_cases alive : e < -d.colourDead ∨ d.colourDead < e
      · rw [Dev.colourNew_of_alive alive]
        have between := Dev.clampI_between (u := d.colourMove e) lo hi
        have rate := d.colourMove_le_rate e
        unfold Dev.colourRate at rate
        unfold Dev.colourLimit
        omega
      · obtain ⟨low, high⟩ := not_or.1 alive
        rw [Dev.colourNew_of_dead (not_lt.1 low) (not_lt.1 high)]
        omega
    case against =>
      by_cases alive : e < -d.colourDead ∨ d.colourDead < e
      · rw [Dev.colourNew_of_alive alive]
        have between := Dev.clampI_between (u := d.colourMove e) lo hi
        obtain ⟨down, up⟩ := Dev.colourMove_against alive
        unfold Dev.colourLimit
        exact ⟨fun h => by have := down h; omega, fun h => by have := up h; omega⟩
      · obtain ⟨low, high⟩ := not_or.1 alive
        rw [Dev.colourNew_of_dead (not_lt.1 low) (not_lt.1 high)]
        exact ⟨fun _ => le_rfl, fun _ => le_rfl⟩

end Sys2Proof.Machine
end

section
/-!
PROOFS. Serial lanes stop, train and slip (R315-R319, R324, R330).
-/

namespace Sys2Proof.Machine

namespace Dev

section
variable {d : Dev} {l : Nat}

/-! ## Training (R315-R319, R324) -/

/-- A lane that is up trains only in an open window, for a change that waits or as a PCIe lane. -/
abbrev LaneWaits (d : Dev) (l : Nat) : Prop :=
  d.laneUp l = true ∧ ¬(d.windowOpen l = true ∧ (d.laneChange l = true ∨ l < 8))

theorem laneWaits_iff (d : Dev) (l : Nat) :
    (d.laneUp l && !(d.windowOpen l && (d.laneChange l || decide (l < 8)))) = true ↔ d.LaneWaits l := by
  simp only [LaneWaits, Bool.and_eq_true, Bool.not_eq_true', ← Bool.not_eq_true, Bool.or_eq_true, decide_eq_true_iff]

theorem opLaneRetrain_of_waiting {res : LaneRes} (waits : d.LaneWaits l) : d.opLaneRetrain l res = d :=
  if_pos ((d.laneWaits_iff l).2 waits)

theorem opLaneRetrain_of_free {res : LaneRes} (free : ¬d.LaneWaits l) :
    let d1 := ((d.laneStop l).wrBit (Reg.LANE_LN_CTRL l) 1 false).applyRow l
    let a := d1.laneAlign l res
    let st := Reg.LANE_LN_STATUS l
    let d2 := ((d1.wrBit st 0 res.cdr).wrF st 8 7 a.1).wrF (Reg.LANE_LN_RATE l) 0 16 (if res.cdr = true then d1.laneRateOf l else 0)
    d.opLaneRetrain l res = (d2.laneErrs l res.syncErrs res.bitErrs).laneSettle l a.2 res :=
  if_neg (mt (d.laneWaits_iff l).1 free)

/-! ## BITSLIP and RETRAIN (R8, R316, R324) -/

theorem opBitslip_of_other {res : LaneRes} (other : isBlockLane l = false) : d.opBitslip l res = d := if_pos other

theorem opBitslip_of_block {res : LaneRes} (block : isBlockLane l = true) :
    let d0 := d.wrBit (Reg.LANE_LN_CTRL l) 0 false
    let st := Reg.LANE_LN_STATUS l
    let pos := (d0.rdF st 8 7 + 1) % 66
    let aligned := res.cdr && (res.slip.map Fin.val == some pos)
    let d1 := if aligned = true then d0 else d0.opLockLost l 0
    let d2 := (d1.wrF st 8 7 pos).wrBit st 0 res.cdr
    d.opBitslip l res = (d2.laneErrs l res.syncErrs res.bitErrs).laneSettle l aligned res := by
  cases slip : res.slip <;> simp only [opBitslip, block, slip, Bool.true_eq_false, if_false] <;> rfl

theorem opRetrain_of_service (service : d.inService = true) : d.opRetrain l = d.event 2 .laneTestRefused (vals [l]) := if_pos service

theorem opRetrain_of_no_service (outside : d.inService = false) :
    d.opRetrain l = if d.inHold = true then (d.wrBit (Reg.LANE_LN_CTRL l) 1 true).laneStop l else d :=
  if_neg (ne_true_of_eq_false outside)

end

end Dev

/-- Settles O36: each row by the cases of its operation. -/
theorem lanesStopTrainAndSlip : Obligations.LanesStopTrainAndSlip := by
  unfold Obligations.LanesStopTrainAndSlip
  refine ⟨fun s l runs => ⟨fun n up => ?lost, fun n down => ?down, fun res => ⟨fun waits => ?waits, fun free => ?trains⟩⟩,
    fun s l answers => ⟨fun res => ⟨fun block => ?slips, fun other => ?other⟩, fun service => ?refused, fun outside hold => ?hold,
      fun outside away => ?away, .of_onWrite (f := (·.wr (Reg.LANE_LN_PRBS_ERR_COUNT l) 0)) answers rfl rfl⟩⟩
  case lost => exact .of_withDev runs rfl (if_pos up)
  case down => exact .of_withDev runs rfl (if_neg (ne_true_of_eq_false down))
  case waits => exact .of_withDev runs rfl (Dev.opLaneRetrain_of_waiting waits)
  case trains => exact .of_withDev runs rfl (Dev.opLaneRetrain_of_free free)
  case slips => exact .of_onWrite (f := (·.opBitslip l res)) answers rfl (Dev.opBitslip_of_block block)
  case other => exact .of_onWrite (f := (·.opBitslip l res)) answers rfl (Dev.opBitslip_of_other other)
  case refused => exact .of_onWrite (f := (·.opRetrain l)) answers rfl (Dev.opRetrain_of_service service)
  case hold => exact .of_onWrite (f := (·.opRetrain l)) answers rfl ((Dev.opRetrain_of_no_service outside).trans (if_pos hold))
  case away =>
    exact .of_onWrite (f := (·.opRetrain l)) answers rfl
      ((Dev.opRetrain_of_no_service outside).trans (if_neg (ne_true_of_eq_false away)))

end Sys2Proof.Machine
end

section
/-!
PROOFS. Cameras: control accesses (R334), bring-up and loss (R335, R338, R352, R353), triggers and lines (R336-R341).
-/

namespace Sys2Proof.Machine

namespace Dev

/-! ## Control accesses (R334) -/

section
variable {d : Dev}

/-- A control access may go out: none is under way, and the camera that is selected is up. -/
abbrev CtlMay (d : Dev) : Prop := d.rd Reg.CXP_CTL_GO = 0 ∧ d.camUp (d.rdF Reg.CXP_CTL_SEL 0 1) = true

theorem opControl_of_free {write : Bool} {v : Nat} (may : d.CtlMay) :
    d.opControl write v = ((d.wr Reg.CXP_CTL_GO (if write = true then 2 else 1)).wrBit Reg.CXP_CTL_STAT 16 false).send
      (.camControl (d.rdF Reg.CXP_CTL_SEL 0 1) write (d.rd Reg.CXP_CTL_ADDR) (d.rd Reg.CXP_CTL_DATA)) :=
  if_neg (by simp [may])

theorem opControl_of_refused {write : Bool} {v : Nat} (refused : ¬d.CtlMay) :
    d.opControl write v = d.writeIgnored Reg.CXP_CTL_GO v := by
  refine if_pos ?_
  rw [← Bool.not_eq_true]
  exact Classical.not_and_iff_not_or_not.1 refused

/-- An access has ended: its code and data show, the record is published and the unit is free. -/
def ctlDone (d : Dev) (code data : Nat) : Dev :=
  (((d.tick.wr Reg.CXP_CTL_RDATA data).wrF Reg.CXP_CTL_STAT 17 8 code).publish Reg.CXP_CTL_STAT).wr Reg.CXP_CTL_GO 0

theorem opControlDone_of_idle {res : Option (BitVec 8 × Word)} (idle : d.rd Reg.CXP_CTL_GO = 0) : d.opControlDone res = d := if_pos idle

theorem opControlDone_of_timeout (busy : d.rd Reg.CXP_CTL_GO ≠ 0) :
    d.opControlDone none = d.ctlDone 0xFF (Config.freeWord d.freeCtr).toNat := if_neg busy

theorem opControlDone_of_acknowledged {code : BitVec 8} {w : Word} (busy : d.rd Reg.CXP_CTL_GO ≠ 0) :
    d.opControlDone (some (code, w)) =
      d.ctlDone code.toNat (if d.rd Reg.CXP_CTL_GO = 1 then w.toNat else (Config.freeWord d.freeCtr).toNat) := if_neg busy

end

/-! ## Bring-up (R335, R352) -/

section
variable {d : Dev} {c : Nat}

theorem opBringup_of_off {find : CamFind} (off : d.camEn c = false ∨ d.role = 2) : d.opBringup c find = d := if_pos off

/-- Before a camera is brought up its acquisition is stopped. -/
def acqStopped (d : Dev) (c : Nat) : Dev :=
  if d.streaming c = true then
    (d.send (.camControl c true (d.cf (Reg.CXP_CAM_STOP_ADDR c)) (d.cf (Reg.CXP_CAM_STOP_VAL c)))).stopAcq c false
  else d

section
variable (on : ¬(d.camEn c = false ∨ d.role = 2))
include on

theorem opBringup_of_absent : d.opBringup c .none = (d.acqStopped c).camDown c := if_neg on

theorem opBringup_of_wiring : d.opBringup c .wiring =
    (((d.acqStopped c).wrBit Reg.CXP_STATUS c false).wrBit Reg.CXP_STATUS (4 + c) true).event 1 .camWiring (vals [c]) := if_neg on

theorem opBringup_of_found (p : Nat) :
    let d1 := ((d.acqStopped c).wrBit Reg.CXP_STATUS (4 + c) false).send
      (.camConnect c (d.camLinks c) (d.cfF (Reg.CXP_CAM_CFG c) 3 3) (min p 16384))
    let d2 := (d1.wrBit Reg.CXP_STATUS c true).send
      (.camControl c true (d.cf (Reg.CXP_CAM_ACQ_ADDR c)) (d.cf (Reg.CXP_CAM_ACQ_VAL c)))
    let x : CamSt := { d2.cs c with gTop := some (d2.gridIndex c), lastTrig := none, fresh := true, prev := none }
    d.opBringup c (.ok p) = ((d2.setCs c x).wrBit Reg.CXP_STATUS (2 + c) true).bump (Reg.CXP_CAM_BRINGUP_COUNT c) := if_neg on

end

/-! ## Triggers (R336, R337) -/

/-- No trigger is due: the camera does not stream, the position is lost, or the grid index has had its trigger. -/
abbrev TrigIdle (d : Dev) (c : Nat) : Prop :=
  d.streaming c = false ∨ d.lost = true ∨ ∃ t, (d.cs c).gTop = some t ∧ d.gridIndex c ≤ t

/-- A trigger would come too soon after the last. -/
abbrev TrigSoon (d : Dev) (c : Nat) : Prop :=
  ∃ t, (d.cs c).lastTrig = some t ∧ (d.tc - t) * d.cf (Reg.CXP_CAM_RATE_MAX c) < 400000000

theorem trigIdle_iff (d : Dev) (c : Nat) :
    (!d.streaming c || d.lost || (match (d.cs c).gTop with | some t => decide (d.gridIndex c ≤ t) | none => false)) = true ↔
      d.TrigIdle c := by
  unfold TrigIdle
  cases (d.cs c).gTop <;> simp [or_assoc]

theorem trigSoon_iff (d : Dev) (c : Nat) :
    (match (d.cs c).lastTrig with | some t => decide ((d.tc - t) * d.cf (Reg.CXP_CAM_RATE_MAX c) < 400000000) | none => false) = true ↔
      d.TrigSoon c := by
  unfold TrigSoon
  cases (d.cs c).lastTrig <;> simp

/-- An index that comes too soon is counted as skipped. -/
def trigSkipped (d : Dev) (c : Nat) : Dev :=
  (d.setCs c { d.cs c with gTop := some (d.gridIndex c), trigs := addSkip (d.cs c).trigs }).bump (Reg.CXP_CAM_TRIG_SKIP c)

/-- The time that a trigger's stamp carries, after the latency, and the stamp. -/
def trigTime (d : Dev) (c : Nat) : Nat := d.tc + (pubI (((d.cf (Reg.CXP_CAM_TRIG_LAT c) : Nat) : Rat) * 2 / 5)).toNat
def trigStamp (d : Dev) (c : Nat) : Stamp := ⟨d.gridIndex c, d.xAt (d.trigTime c), d.trigTime c⟩

/-- The camera after a trigger, which may start a frame. -/
def trigNext (d : Dev) (c : Nat) (start : Bool) : CamSt :=
  let x := d.cs c
  { x with gTop := some (d.gridIndex c), lastTrig := some d.tc, fresh := false, armed := x.armed && !start,
           trigs := if start = true then x.trigs ++ [{ id := x.nextTrig, stamps := [d.trigStamp c] }] else
             addStamp (d.cf Reg.VPIPE_FRAME_LINES) (d.trigStamp c) x.trigs,
           nextTrig := if start = true then x.nextTrig + 1 else x.nextTrig }

theorem opLineTrigger_of_idle (idle : d.TrigIdle c) : d.opLineTrigger c = d := if_pos ((d.trigIdle_iff c).2 idle)

theorem opLineTrigger_of_due (due : ¬d.TrigIdle c) [Decidable (d.TrigSoon c)] :
    d.opLineTrigger c = if d.TrigSoon c then d.trigSkipped c
      else (d.setCs c (d.trigNext c (d.frameStarts c (d.cs c)))).send
        (.camTrigger c (d.frameStarts c (d.cs c)) (d.gridIndex c) (d.trigTime c)) := by
  refine (if_neg (mt (d.trigIdle_iff c).1 due)).trans ?_
  by_cases soon : d.TrigSoon c
  · exact (if_pos ((d.trigSoon_iff c).2 soon)).trans (if_pos soon).symm
  · exact (if_neg (mt (d.trigSoon_iff c).1 soon)).trans (if_neg soon).symm

/-! ## Lines (R337, R338, R341) -/

theorem opCameraItem_of_silent {item : CamItem} (silent : d.streaming c = false) : d.opCameraItem c item = d := if_pos silent

theorem opCameraItem_header (streams : d.streaming c = true) (w : Nat) (ok : Bool) :
    d.opCameraItem c (.header w ok) = (d.closeFrame c false).openFrame c (w == camPixels && ok) := by
  simp only [opCameraItem, streams, Bool.true_eq_false, if_false]

/-- The errors of the links that a line brings are counted. -/
def linkErrs (d : Dev) (c : Nat) (errs : List (Fin 4)) : Dev :=
  errs.foldl (fun acc (k : Fin 4) => acc.bump (Reg.CXP_CAM_LINK_CRC_ERR c k)) d

/-- The samples of a line, cut or filled with 0 to the width of the camera. -/
def lineSamples (ss : List (BitVec 12)) : List Nat := (ss.take 73728).map BitVec.toNat ++ List.replicate (73728 - ss.length) 0

section
variable {ss : List (BitVec 12)} {bad : Bool} {errs : List (Fin 4)} (streams : d.streaming c = true)
include streams

theorem opCameraItem_line_of_closed (closed : ((d.linkErrs c errs).cs c).frame = none) :
    d.opCameraItem c (.line ss bad errs) = d.linkErrs c errs := by
  unfold linkErrs at closed
  simp only [opCameraItem, streams, Bool.true_eq_false, if_false, closed]
  rfl

theorem opCameraItem_line_of_open {f : FrameSt} (opened : ((d.linkErrs c errs).cs c).frame = some f) :
    d.opCameraItem c (.line ss bad errs) = (d.linkErrs c errs).lineIn13 c f (lineSamples ss) bad := by
  unfold linkErrs at opened
  simp only [opCameraItem, streams, Bool.true_eq_false, if_false, opened]
  rfl

end

end

end Dev

/-- Settles O37: each row by the cases of its operation. -/
theorem camerasRunAndSendLines : Obligations.CamerasRunAndSendLines := by
  unfold Obligations.CamerasRunAndSendLines
  refine ⟨fun s => ⟨fun answers => ?starts, fun runs => ?ends⟩, fun s c runs => ?bringup, fun s c runs => ?lines⟩
  case starts =>
    have read : exec .cxpCtlRead s = s.onWrite (·.opControl false 1) := rfl
    have write : exec .cxpCtlWrite s = s.onWrite (·.opControl true 2) := rfl
    exact ⟨fun may => ⟨.of_onWrite answers read (Dev.opControl_of_free may), .of_onWrite answers write (Dev.opControl_of_free may)⟩,
      fun refused => ⟨.of_onWrite answers read (Dev.opControl_of_refused refused),
        .of_onWrite answers write (Dev.opControl_of_refused refused)⟩⟩
  case ends =>
    refine ⟨fun res idle => .of_withDev runs rfl (Dev.opControlDone_of_idle idle), fun code w reads => ?read, fun code w writes => ?write,
      fun busy => .of_withDev runs rfl (Dev.opControlDone_of_timeout busy)⟩
    case read =>
      have done := Dev.opControlDone_of_acknowledged (d := s.dev) (code := code) (w := w) (by omega)
      rw [if_pos reads] at done
      exact .of_withDev runs rfl done
    case write =>
      have done := Dev.opControlDone_of_acknowledged (d := s.dev) (code := code) (w := w) (by omega)
      rw [if_neg (by omega)] at done
      exact .of_withDev runs rfl done
  case bringup =>
    exact ⟨fun f off => .of_withDev runs rfl (Dev.opBringup_of_off off), fun on => .of_withDev runs rfl (Dev.opBringup_of_absent on),
      fun on => .of_withDev runs rfl (Dev.opBringup_of_wiring on), fun p on => .of_withDev runs rfl (Dev.opBringup_of_found on p),
      fun up => .of_withDev runs rfl (if_pos up), fun down => .of_withDev runs rfl (if_neg (ne_true_of_eq_false down))⟩
  case lines =>
    classical
    exact ⟨fun idle => .of_withDev runs rfl (Dev.opLineTrigger_of_idle idle),
      fun due soon => .of_withDev runs rfl ((Dev.opLineTrigger_of_due due).trans (if_pos soon)),
      fun due late => .of_withDev runs rfl ((Dev.opLineTrigger_of_due due).trans (if_neg late)),
      fun item silent => .of_withDev runs rfl (Dev.opCameraItem_of_silent silent),
      fun w ok streams => .of_withDev runs rfl (Dev.opCameraItem_header streams w ok),
      fun ss bad errs streams => ⟨fun closed => .of_withDev runs rfl (Dev.opCameraItem_line_of_closed streams closed),
        fun f opened => .of_withDev runs rfl (Dev.opCameraItem_line_of_open streams opened)⟩,
      .of_withDev runs rfl rfl, fun more => .of_withDev runs rfl (if_pos more),
      fun fewer => .of_withDev runs rfl (if_neg (Nat.not_lt.2 fewer))⟩

end Sys2Proof.Machine
end

section
/-!
PROOFS. What nodes report: FILL, STATUS and SENSE_DATA (R285, R291, R297, R298), and PORT_STATUS (R285, R298, R307, R418).
-/

namespace Sys2Proof.Machine

namespace Dev

section
variable {d : Dev} {b : Nat} {f : List Byte}

/-! ## FILL and STATUS (R285, R291, R298) -/

/-- Every value of a FILL fits the buffers of a node that is set up. -/
abbrev FillFits (d : Dev) (b : Nat) (f : List Byte) : Prop :=
  4 ≤ d.portState b ∧ ∀ h < 24, numAt f (8 + 2 * h) 2 ≤ d.rd (Reg.LACE_BUF_LINES b)

theorem fillBody_of_fits (fits : d.FillFits b f) : Dev.fillBody b d f = d := by
  obtain ⟨setUp, values⟩ := fits
  exact (if_neg (Nat.not_lt.2 setUp)).trans (if_pos (by simpa using values))

theorem fillBody_of_unfit (unfit : ¬d.FillFits b f) : Dev.fillBody b d f = d.impossible b := by
  by_cases early : d.portState b < 4
  · exact if_pos early
  · refine (if_neg early).trans (if_neg fun values => unfit ⟨Nat.not_lt.1 early, ?_⟩)
    simpa using values

theorem statusFrame_of_early (early : d.portState b < 4) : Dev.statusFrame b d f = d.impossible b := if_pos early

/-- A STATUS takes removed heads out of use and shows the heads present, the interlocks and the underflows. -/
theorem statusFrame_of_setUp (setUp : 4 ≤ d.portState b) :
    let hp := numAt f 0 4
    let gone := ((bitsOf 24 (d.present b)).filter (fun h => !bitOf hp h)).foldl (fun m h => m + 2 ^ h) 0
    let d1 := (d.removeHeads b gone).wr (Reg.LACE_HEADS_PRESENT b) hp
    let d2 := (d1.wrBit (Reg.LACE_STATUS b) 6 (byteAt f 8 != 0)).wrF (Reg.LACE_STATUS b) 7 1 (byteAt f 9)
    Dev.statusFrame b d f = d2.wr (Reg.LACE_NODE_UNDERFLOW b) (numAt f 12 4) := if_neg (Nat.not_lt.2 setUp)

/-! ## SENSE_DATA (R297) -/

theorem senseData_of_unasked (unasked : (d.ls b).senseReq = none) : d.senseData b f = d.impossible b := by
  simp only [senseData, unasked]

section
variable {h : Nat} (asked : (d.ls b).senseReq = some h)
include asked

theorem senseData_of_other (other : byteAt f 0 ≠ h ∨ bitOf (d.present b) h = false) : d.senseData b f = d.impossible b := by
  simp only [senseData, asked]
  exact if_pos other

/-- The sense map of the head that was asked shows, and its record is published. -/
def senseShown (d : Dev) (b h : Nat) (f : List Byte) : Dev :=
  (((d.setLs b { d.ls b with senseReq := none }).wrWords (Reg.LACE_SENSE_DATA b 0) (bytesWords (f.drop 8))).publish
    (Reg.LACE_SENSE_STAT b)).wrF (Reg.LACE_SENSE_STAT b) 17 5 h

section
variable (answer : byteAt f 0 = h) (fitted : bitOf (d.present b) h = true)
include answer fitted

theorem senseData_of_last (last : (d.ls b).senseWait = none) : d.senseData b f = d.senseShown b h f := by
  simp [senseData, senseShown, asked, answer, fitted, last]

theorem senseData_of_waiting {k : Nat} (waiting : (d.ls b).senseWait = some k) :
    d.senseData b f = (d.senseShown b h f).startSense b k := by
  simp [senseData, senseShown, asked, answer, fitted, waiting]

end

end

/-! ## PORT_STATUS (R285, R298, R307, R418) -/

/-- A port status that cannot be. -/
abbrev PortStatusBad (d : Dev) (f : List Byte) : Prop :=
  byteAt f 0 = 2 ∨ 3 < byteAt f 0 ∨ d.rd Reg.PAIR_EPOCH_MAX < numAt f (4 + 4 * d.slot) 4 ∨ 23 < byteAt f 24

section
variable (d b f)

/-- What the node follows, its bridged lines and the number of its mismatches show. -/
def followShown : Dev :=
  let fol := byteAt f 0
  let epoch := if fol = 0 then numAt f 4 4 else if fol = 1 then numAt f 8 4 else 0
  let d0 := ((d.wrF (Reg.LACE_STATUS b) 8 2 fol).wrBit (Reg.LACE_STATUS b) 10 (fol == d.slot)).wrF (Reg.LACE_STATUS b) 11 1
    (byteAt f 1 / 4)
  ((d0.wr (Reg.LACE_EPOCH_FOLLOWED b) epoch).wr (Reg.LACE_NODE_BRIDGED b) (numAt f 28 4)).wr (Reg.LACE_MISMATCH_COUNT b) (numAt f 12 4)

/-- The number of mismatches has grown. -/
abbrev MismatchGrown : Prop := d.rd (Reg.LACE_MISMATCH_COUNT b) < numAt f 12 4

/-- The line and the head of a new mismatch are kept. -/
def mismatchShown : Dev :=
  let d2 := d.followShown b f
  if d.MismatchGrown b f then (d2.wr64 (Reg.LACE_MM_LINE_LO b) (numAt f 16 8)).wr (Reg.LACE_MM_HEAD b) (byteAt f 24) else d2

/-- A new mismatch is resolved with the partner. -/
def mismatchTaken : Dev :=
  let d3 := d.mismatchShown b f
  if d.MismatchGrown b f ∧ d3.pairOn = true ∧ d3.role ≠ 0 then d3.mismatchAt b (numAt f 16 8) true else d3

/-- The node follows the partner with an epoch above the module's (R418). -/
abbrev FollowsPartner : Prop :=
  let d4 := d.mismatchTaken b f
  d4.pairOn = true ∧ byteAt f 0 + d4.slot = 1 ∧ d4.rd Reg.PAIR_EPOCH < numAt f (8 - 4 * d.slot) 4

end

theorem portStatus_of_bad (bad : d.PortStatusBad f) : Dev.portStatus b d f = d.impossible b := if_pos bad

theorem portStatus_of_good (good : ¬d.PortStatusBad f) :
    let d4 := d.mismatchTaken b f
    Dev.portStatus b d f = if d.FollowsPartner b f then d4.nodeFollows b (numAt f (8 - 4 * d.slot) 4)
      else { d4 with pair := { d4.pair with reports := mapErase b d4.pair.reports } } := by
  refine (if_neg good).trans ?_
  simp only [Bool.and_eq_true, decide_eq_true_eq, beq_iff_eq, bne_iff_ne, and_assoc]
  rfl

end

end Dev

/-- Settles O35: each frame by the equation of what its body does. -/
theorem nodesReportTheirState : Obligations.NodesReportTheirState := by
  unfold Obligations.NodesReportTheirState
  refine ⟨fun s b f body d runs => ⟨fun fill => ?fill, fun status => ?status, fun sense => ?sense⟩, fun s b f body d runs port => ?port⟩
  case fill =>
    exact ⟨fun fits => .of_Frame fill runs rfl (Dev.fillBody_of_fits fits),
      fun unfit => .of_Frame fill runs rfl (Dev.fillBody_of_unfit unfit)⟩
  case status =>
    exact ⟨fun setUp => .of_Frame status runs rfl (Dev.statusFrame_of_setUp setUp),
      fun early => .of_Frame status runs rfl (Dev.statusFrame_of_early early)⟩
  case sense =>
    exact ⟨fun unasked => .of_Frame sense runs rfl (Dev.senseData_of_unasked unasked),
      fun h asked other => .of_Frame sense runs rfl (Dev.senseData_of_other asked other),
      fun h asked answer fitted => ⟨fun last => .of_Frame sense runs rfl (Dev.senseData_of_last asked answer fitted last),
        fun k waiting => .of_Frame sense runs rfl (Dev.senseData_of_waiting asked answer fitted waiting)⟩⟩
  case port =>
    exact ⟨fun bad => .of_Frame port runs rfl (Dev.portStatus_of_bad bad),
      fun good follows => .of_Frame port runs rfl ((Dev.portStatus_of_good good).trans (if_pos follows)),
      fun good other => .of_Frame port runs rfl ((Dev.portStatus_of_good good).trans (if_neg other))⟩

end Sys2Proof.Machine
end

section
/-!
PROOFS. The Lace link: frames that are refused (R274, R275, R284, R300), link-up step by step (R282, R286-R292, R299), the flood
interval, RELINK and sense requests (R281, R296, R299, R301).
-/

namespace Sys2Proof.Machine

namespace Dev

section
variable {d : Dev} {b : Nat}

/-! ## Frames that are refused (R274, R275, R284, R300) -/

section
variable {bl : List Blk}

theorem laceRx_of_deaf (deaf : d.portState b < 2 ∨ d.portState b = 7) : d.laceRx b bl = d := if_pos deaf

/-- A frame takes its room from the bucket. -/
def drawn (d : Dev) (b : Nat) (bl : List Blk) : Dev :=
  let x := (d.refill b).ls b
  (d.refill b).setLs b { x with bucket := x.bucket - 16 * frameSize bl }

section
variable (linked : 2 ≤ d.portState b) (open_ : d.portState b ≠ 7)
include linked open_

theorem laceRx_of_flooded (flooded : ((d.refill b).ls b).bucket < 16 * frameSize bl) :
    d.laceRx b bl = ((d.refill b).setLs b { (d.refill b).ls b with flooded := true }).bump (Reg.LACE_RATE_DROP_COUNT b) :=
  (if_neg (not_or.2 ⟨Nat.not_lt.2 linked, open_⟩)).trans (if_pos flooded)

variable (room : 16 * frameSize bl ≤ ((d.refill b).ls b).bucket)
include room

theorem laceRx_of_room : d.laceRx b bl =
    match deframe bl with
    | some (t, f) => if 1 ≤ t ∧ t ≤ 4 then (d.drawn b bl).laceFrame b t f else (d.drawn b bl).bump (Reg.LACE_CRC_ERR_COUNT b)
    | none => (d.drawn b bl).bump (Reg.LACE_CRC_ERR_COUNT b) :=
  (if_neg (not_or.2 ⟨Nat.not_lt.2 linked, open_⟩)).trans (if_neg (Nat.not_lt.2 room))

theorem laceRx_of_block_error (error : deframe bl = none) : d.laceRx b bl = (d.drawn b bl).bump (Reg.LACE_CRC_ERR_COUNT b) := by
  rw [laceRx_of_room linked open_ room, error]

theorem laceRx_of_bad {t : Nat} {f : List Byte} (frame : deframe bl = some (t, f)) (bad : t = 0 ∨ 4 < t ∨ laceCrcOk f = false) :
    d.laceRx b bl = (d.drawn b bl).bump (Reg.LACE_CRC_ERR_COUNT b) := by
  rw [laceRx_of_room linked open_ room, frame]
  by_cases typed : 1 ≤ t ∧ t ≤ 4
  · have crc : laceCrcOk f = false := (bad.resolve_left (by omega)).resolve_left (by omega)
    exact (if_pos typed).trans (if_pos crc)
  · exact if_neg typed

end

end

/-! ## Link-up (R289, R290, R299) -/

/-- Link-up may start: the bar is enabled, the port is in training and a lane is up. -/
abbrev LinkReady (d : Dev) (b : Nat) : Prop := d.barEn b = true ∧ d.portState b = 1 ∧ d.upLanes b ≠ []

/-- A port at the start of a link-up: nothing is left but its bucket, its floods and the report of its loss. -/
def freshPort (x : LaceSt) : LaceSt :=
  { bucket := x.bucket, bucketAt := x.bucketAt, flooded := x.flooded, floodRun := x.floodRun, downLogged := x.downLogged }

theorem linkReady_iff (d : Dev) (b : Nat) : (d.barEn b && d.portState b == 1 && d.upLanes b != []) = true ↔ d.LinkReady b := by
  simp [LinkReady, and_assoc]

theorem opLinkUp_of_ready (ready : d.LinkReady b) :
    d.opLinkUp b = (((d.setLs b (freshPort (d.ls b))).setPortState b 2).wrF (Reg.LACE_STATUS b) 12 4 0).sendEcho b :=
  if_pos ((d.linkReady_iff b).2 ready)

theorem opLinkUp_of_unready (unready : ¬d.LinkReady b) : d.opLinkUp b = d := if_neg (mt (d.linkReady_iff b).1 unready)

theorem opStepTimeout_of_failing (step : d.portState b = 1 ∨ d.portState b = 2 ∨ d.portState b = 4 ∨ d.portState b = 5) :
    d.opStepTimeout b = d.linkFail b (d.portState b) := if_pos step

/-- A challenge has had no answer once more. -/
def challengedAgain (d : Dev) (b : Nat) : Dev := d.setLs b { d.ls b with authTries := (d.ls b).authTries + 1 }

theorem opStepTimeout_of_auth (step : d.portState b = 3) :
    d.opStepTimeout b = if (d.ls b).chal = true then
        if 3 ≤ ((d.challengedAgain b).ls b).authTries then (d.challengedAgain b).quarantine b 1
        else (d.challengedAgain b).sendChallenge b
      else d := by
  refine (if_neg (by omega)).trans ?_
  simp only [step, true_and]
  rfl

theorem opStepTimeout_of_idle (idle : d.portState b = 0 ∨ 6 ≤ d.portState b) : d.opStepTimeout b = d :=
  (if_neg (by omega)).trans (if_neg (by omega))

theorem laceRetry_iff (d : Dev) (b : Nat) : (d.barEn b && d.portState b == 0) = true ↔ d.barEn b = true ∧ d.portState b = 0 := by simp

theorem opLaceRetry_of_down (down : d.barEn b = true ∧ d.portState b = 0) : d.opLaceRetry b = d.setPortState b 1 :=
  if_pos ((d.laceRetry_iff b).2 down)

theorem opLaceRetry_of_other (other : ¬(d.barEn b = true ∧ d.portState b = 0)) : d.opLaceRetry b = d :=
  if_neg (mt (d.laceRetry_iff b).1 other)

/-! ## Echoes (R282, R286) -/

section
variable {f : List Byte}

theorem echoReply_of_unsent (unsent : (d.ls b).echoSent = none) : d.echoReply b f = d.impossible b := by
  simp only [echoReply, unsent]

section
variable {t : Nat} (sent : (d.ls b).echoSent = some t)
include sent

theorem echoReply_of_other (other : d.portState b ≠ 2 ∨ numAt f 0 8 ≠ t % 2 ^ 64) : d.echoReply b f = d.impossible b := by
  simp only [echoReply, sent]
  exact if_pos other

/-- The round trips measured so far, with that of an answer. -/
def echoTimes (d : Dev) (b t : Nat) (f : List Byte) : List Int :=
  (d.ls b).echoes ++ [5 * ((d.tc : Int) - (t : Int)) - 2 * (numAt f 8 4 : Int)]

theorem echoReply_of_answer (step : d.portState b = 2) (mine : numAt f 0 8 = t % 2 ^ 64) :
    let es := d.echoTimes b t f
    let d1 := d.setLs b { d.ls b with echoes := es, echoSent := none }
    d.echoReply b f = if es.length < 16 then d1.sendEcho b else d1.endEcho b es := by
  simp only [echoReply, sent]
  exact if_neg (by simp [step, mine])

end

/-! ## Authentication (R292) -/

theorem authBody_of_unasked (unasked : d.portState b ≠ 3 ∨ (d.ls b).chal = false) : d.authBody b f = d.impossible b := if_pos unasked

/-- The NODE_ID of a response shows. -/
def nodeShown (d : Dev) (b : Nat) (f : List Byte) : Dev := d.wrWords (Reg.LACE_NODE_ID b 0) (bytesWords ((f.drop 16).take 16))

/-- The response names the module's key and carries the right tag. -/
abbrev AuthGood (d : Dev) (b : Nat) (f : List Byte) : Prop :=
  numAt f 48 4 = (d.nodeShown b f).rd Reg.SAFE_KEY_ID ∧ (f.drop 32).take 16 =
    aesCmac d.safe.ki (leBytes 1 0x4E ++ (d.ls b).nm ++ f.take 16 ++ (f.drop 16).take 16 ++ leBytes 1 d.slot)

/-- The session key of a port whose node has answered. -/
def sessionKey (d : Dev) (b : Nat) (f : List Byte) : List Byte :=
  aesCmac d.safe.ki (leBytes 1 0x53 ++ (d.ls b).nm ++ f.take 16 ++ leBytes 1 d.slot)

/-- The module has answered a good response with its own tag. -/
def authConfirmed (d : Dev) (b : Nat) (f : List Byte) : Dev :=
  ((d.nodeShown b f).setLs b { d.ls b with chal := false }).laceSend b 2 0x03
    (aesCmac d.safe.ki (leBytes 1 0x4D ++ f.take 16 ++ (d.ls b).nm ++ leBytes 1 d.slot))

/-- The session has its key, and the port is in step 4. -/
def sessionBegun (d : Dev) (b : Nat) (f : List Byte) : Dev :=
  let d2 := d.authConfirmed b f
  (d2.setLs b { d2.ls b with key := some (d.sessionKey b f) }).setPortState b 4

section
variable (step : d.portState b = 3) (asked : (d.ls b).chal = true)
include step asked

theorem authBody_of_asked [Decidable (d.AuthGood b f)] : d.authBody b f =
    if d.AuthGood b f then (d.sessionBegun b f).laceSend b 2 0x04 ((d.sessionBegun b f).setupBody b)
    else (d.nodeShown b f).quarantine b 1 := by
  refine (if_neg (by simp [step, asked])).trans ?_
  by_cases good : d.AuthGood b f
  · exact (if_neg (not_or.2 ⟨not_not.2 good.1, not_not.2 good.2⟩)).trans (if_pos good).symm
  · exact (if_pos (Classical.not_and_iff_not_or_not.1 good)).trans (if_neg good).symm

end

/-! ## SETUP_ACK and HMEM_DATA (R287-R289, R298, R299) -/

theorem setupAck_of_other (other : d.portState b ≠ 4) : d.setupAck b f = d.impossible b := if_pos other

/-- What a node acknowledges shows: the heads present and the lines of its buffers. -/
def setupShown (d : Dev) (b : Nat) (f : List Byte) : Dev :=
  (d.wr (Reg.LACE_HEADS_PRESENT b) (numAt f 0 4)).wr (Reg.LACE_BUF_LINES b) (numAt f 4 2)

theorem setupAck_of_step (step : d.portState b = 4) : d.setupAck b f =
    if numAt f 4 2 < 256 then (d.setupShown b f).quarantine b 6 else ((d.setupShown b f).setPortState b 5).nextRead b :=
  if_neg (not_not.2 step)

theorem hmemData_of_unasked (unasked : (d.ls b).hmemReq = none) : d.hmemData b f = d.impossible b := by
  simp only [hmemData, unasked]

/-- The frame answers a read of n bytes at a of head h. -/
abbrev HmemAnswers (h a n : Nat) (f : List Byte) : Prop :=
  f.take 8 = leBytes 1 h ++ leBytes 1 0 ++ leBytes 2 a ++ leBytes 2 n ++ leBytes 2 0 ∧ f.length = 8 + n

theorem hmemData_of_asked {h a n : Nat} (asked : (d.ls b).hmemReq = some (h, a, n)) [Decidable (HmemAnswers h a n f)] :
    d.hmemData b f = if HmemAnswers h a n f then
        (d.setLs b { d.ls b with
          hmemReq := none, hmem := mapSet [] (d.ls b).hmem h (mapGet [] (d.ls b).hmem h ++ f.drop 8) }).nextRead b
      else d.impossible b := by
  simp only [hmemData, asked]
  by_cases mine : HmemAnswers h a n f
  · exact (if_neg (not_or.2 ⟨not_not.2 mine.1, not_not.2 mine.2⟩)).trans (if_pos mine).symm
  · exact (if_pos (Classical.not_and_iff_not_or_not.1 mine)).trans (if_neg mine).symm

end

/-! ## The INHIBIT token, RELINK and sense requests (R281, R296, R297, R301) -/

theorem opRelink_of_hold (hold : d.inHold = true) :
    let d1 := ((d.wrF (Reg.LACE_STATUS b) 12 4 0).setPortState b 1).portUp (12 + b)
    d.opRelink b = if d.quarantined b = true then d1.setLs b { bucketAt := d1.tc } else d := if_pos hold

theorem opRelink_of_no_hold (away : d.inHold = false) : d.opRelink b = d.laceEvent .laceRelinkRefused b [] :=
  if_neg (ne_true_of_eq_false away)

theorem opSenseReq_of_down (down : d.laceUp b = false) : d.opSenseReq b = d := if_pos down

/-- A request of the port is outstanding. -/
abbrev PortBusy (d : Dev) (b : Nat) : Prop := (d.ls b).senseReq.isSome = true ∨ (d.ls b).hmemReq.isSome = true

theorem opSenseReq_of_up (up : d.laceUp b = true) : d.opSenseReq b =
    if d.PortBusy b then
      (d.setLs b { d.ls b with senseWait := some (d.rdF (Reg.LACE_SENSE_HEAD b) 0 5) }).wrBit (Reg.LACE_CTRL b) 1 true
    else d.startSense b (d.rdF (Reg.LACE_SENSE_HEAD b) 0 5) := by
  refine (if_neg (by simp [up])).trans ?_
  simp only [PortBusy, Bool.or_eq_true]

end

end Dev

end Sys2Proof.Machine
end

section
/-!
PROOFS. Tests of serial lanes (R328-R330) and eye scans, one at a time (R326, R327, R491).
-/

namespace Sys2Proof.Machine

namespace Dev

/-! ## Tests (R328-R330) -/

section
variable {d : Dev} {l v : Nat}

/-- A lane whose test cannot be changed now: in SERVICE, and a PCIe lane. -/
abbrev TestFixed (d : Dev) (l : Nat) : Prop := d.inService = true ∨ l < 8

/-- A line loop is asked for with a pattern. -/
abbrev LoopWithPattern (v : Nat) : Prop := fld (v % 64) 0 2 = 3 ∧ 1 ≤ fld (v % 64) 2 3 ∧ fld (v % 64) 2 3 ≤ 3

/-- A loop that a camera's lanes do not have. -/
abbrev LoopReserved (l v : Nat) : Prop := 26 ≤ l ∧ l ≤ 33 ∧ fld (v % 64) 0 2 ≠ 0

/-- The loop that a write leaves, the pattern, and the whole test. -/
def testLoop (d : Dev) (l v : Nat) : Nat := if LoopReserved l v then fld (d.rd (Reg.LANE_LN_TEST l)) 0 2 else fld (v % 64) 0 2
def testPattern (d : Dev) (l v : Nat) : Nat :=
  if 3 < fld (v % 64) 2 3 then fld (d.rd (Reg.LANE_LN_TEST l)) 2 3 else fld (v % 64) 2 3
def testNew (d : Dev) (l v : Nat) : Nat := d.testLoop l v + d.testPattern l v * 4 + fld (v % 64) 5 1 * 32

/-- A test takes effect: it shows, and a lane that had or has one stops. -/
def testTaken (d x : Dev) (l new : Nat) : Dev :=
  let d1 := (x.wr (Reg.LANE_LN_TEST l) new).wrBit (Reg.LANE_LN_STATUS l) 15 (new != 0)
  if new = 0 ∧ d.rd (Reg.LANE_LN_TEST l) = 0 then d1 else d1.laneStop l

variable (answers : d.inRecovery = false)
include answers

theorem opLaneTest_of_fixed (fixed : d.TestFixed l) :
    d.opLaneTest l v = if v % 64 = 0 then d else d.writeIgnored (Reg.LANE_LN_TEST l) v := by
  refine (if_neg (ne_true_of_eq_false answers)).trans ?_
  by_cases service : d.inService = true
  · exact if_pos service
  · exact (if_neg service).trans (if_pos (fixed.resolve_left service))

variable (free : ¬d.TestFixed l)
include free

theorem opLaneTest_of_pattern (joined : LoopWithPattern v) : d.opLaneTest l v = d.writeIgnored (Reg.LANE_LN_TEST l) v := by
  obtain ⟨service, pcie⟩ := not_or.1 free
  exact (if_neg (ne_true_of_eq_false answers)).trans ((if_neg service).trans ((if_neg pcie).trans (if_pos joined)))

theorem opLaneTest_of_free (apart : ¬LoopWithPattern v) : d.opLaneTest l v =
    d.testTaken (if LoopReserved l v ∨ 3 < fld (v % 64) 2 3 then d.writeIgnored (Reg.LANE_LN_TEST l) v else d) l (d.testNew l v) := by
  obtain ⟨service, pcie⟩ := not_or.1 free
  refine (if_neg (ne_true_of_eq_false answers)).trans ((if_neg service).trans ((if_neg pcie).trans ((if_neg apart).trans ?_)))
  simp only [Bool.or_eq_true, decide_eq_true_eq]
  rfl

/-- A test that the lane has takes effect as asked. -/
theorem opLaneTest_of_all (apart : ¬LoopWithPattern v) (loop : ¬LoopReserved l v) (pattern : fld (v % 64) 2 3 ≤ 3) :
    d.opLaneTest l v = d.testTaken d l (fld (v % 64) 0 2 + fld (v % 64) 2 3 * 4 + fld (v % 64) 5 1 * 32) := by
  rw [opLaneTest_of_free answers free apart, if_neg (not_or.2 ⟨loop, Nat.not_lt.2 pattern⟩), testNew, testLoop, testPattern,
    if_neg loop, if_neg (Nat.not_lt.2 pattern)]

end

/-! ## Eye scans (R326, R327, R491) -/

section
variable {d : Dev}

/-- The lane that the host asks a scan of. -/
def eyeLane (d : Dev) : Nat := d.rdF Reg.LANE_EYE_CTRL 0 6

/-- A scan of the host's waits already, or the lane is none. -/
abbrev EyeBad (d : Dev) : Prop := d.bit Reg.LANE_EYE_STATUS 1 = true ∨ 36 ≤ d.eyeLane

theorem opEyeGo_of_bad {v : Nat} (bad : d.EyeBad) : d.opEyeGo v = d.writeIgnored Reg.LANE_EYE_GO v := if_pos bad

section
variable {v : Nat} (good : ¬d.EyeBad)
include good

theorem opEyeGo_of_good :
    let d1 := d.wrBit Reg.LANE_EYE_GO 0 true
    d.opEyeGo v = if d.lane.scan.isSome then
      ({ d1 with lane := { d1.lane with hostNext := some d.eyeLane } } : Dev).wrBit Reg.LANE_EYE_STATUS 1 true
      else d1.scanStart d.eyeLane true := if_neg good

theorem opEyeGo_of_idle (idle : d.lane.scan = none) :
    d.opEyeGo v = (d.wrBit Reg.LANE_EYE_GO 0 true).scanStart d.eyeLane true :=
  (opEyeGo_of_good good).trans (if_neg (by simp [idle]))

theorem opEyeGo_of_running (runs : d.lane.scan ≠ none) :
    let d1 := d.wrBit Reg.LANE_EYE_GO 0 true
    d.opEyeGo v = ({ d1 with lane := { d1.lane with hostNext := some d.eyeLane } } : Dev).wrBit Reg.LANE_EYE_STATUS 1 true :=
  (opEyeGo_of_good good).trans (if_pos (Option.isSome_iff_ne_none.2 runs))

end

theorem opEyeDone_of_idle {w h : Nat} (idle : d.lane.scan = none) : d.opEyeDone w h = d := by simp only [opEyeDone, idle]

/-- The eye of a scan shows, 0 by 0 of a lane that was down, and its record is published. -/
def eyeShown (d : Dev) (l w h : Nat) (down : Bool) : Dev :=
  ((d.wr (Reg.LANE_LN_EYE l) (w + h * 0x100)).wrBit (Reg.LANE_LN_EYE_STAT l) 17 down).publish (Reg.LANE_LN_EYE_STAT l)

theorem opEyeDone_of_running {l w h : Nat} {host : Bool} (runs : d.lane.scan = some (l, host)) :
    let down := d.lane.scanDown || !d.laneUp l
    let w' := if down = true then 0 else w
    let h' := if down = true then 0 else h
    let d1 := d.eyeShown l w' h' down
    let d2 := if host = true then d1 else d1.marginResult l w' h'
    let d3 : Dev := { d2 with lane := { d2.lane with scan := none, scanDown := false } }
    let d4 := if host = true ∧ d3.lane.hostNext = none then d3.wrBit Reg.LANE_EYE_GO 0 false else d3
    d.opEyeDone w h = (d4.wr Reg.LANE_EYE_STATUS (l * 0x100)).scanNext := by
  simp only [opEyeDone, runs, Bool.and_eq_true, Option.isNone_iff_eq_none]
  rfl

end

end Dev

end Sys2Proof.Machine
end

section
/-!
PROOFS. Lace links come up and lanes are tested (R274-R301, R326-R330, R491).
-/

namespace Sys2Proof.Machine

/-- Settles O34: the frames by what their bodies do, the rows by the cases of their operations. -/
theorem linksComeUpAndLanesAreTested : Obligations.LinksComeUpAndLanesAreTested := by
  unfold Obligations.LinksComeUpAndLanesAreTested
  refine ⟨fun s b bl => ?refused, fun s b runs => ?linkUp, fun s b f body d runs => ?frames, fun s => ⟨fun runs => ?flood, fun answers b => ?host⟩,
    fun s l v answers open_ => ?tests, fun s => ⟨fun answers => ?go, fun runs => ?done⟩⟩
  case refused =>
    exact ⟨Dev.laceRx_of_deaf, Dev.laceRx_of_flooded, Dev.laceRx_of_block_error,
      fun t f linked open_ room frame bad => Dev.laceRx_of_bad linked open_ room frame bad⟩
  case linkUp =>
    refine ⟨fun ready => .of_withDev runs rfl (Dev.opLinkUp_of_ready ready), fun unready => .of_withDev runs rfl (Dev.opLinkUp_of_unready unready),
      fun k step failing => ?fails, fun step asked => ⟨fun third => ?third, fun again => ?again⟩, fun step idle => ?unasked,
      fun idle => .of_withDev runs rfl (Dev.opStepTimeout_of_idle idle), fun down => .of_withDev runs rfl (Dev.opLaceRetry_of_down down),
      fun other => .of_withDev runs rfl (Dev.opLaceRetry_of_other other)⟩
    case fails =>
      subst step
      exact .of_withDev runs rfl (Dev.opStepTimeout_of_failing failing)
    case third =>
      exact .of_withDev runs rfl ((Dev.opStepTimeout_of_auth step).trans ((if_pos asked).trans (if_pos third)))
    case again =>
      exact .of_withDev runs rfl ((Dev.opStepTimeout_of_auth step).trans ((if_pos asked).trans (if_neg (Nat.not_le.2 again))))
    case unasked =>
      exact .of_withDev runs rfl ((Dev.opStepTimeout_of_auth step).trans (if_neg (ne_true_of_eq_false idle)))
  case frames =>
    classical
    refine ⟨fun echo => ?echo, fun auth => ?auth, fun setup => ?setup, fun hmem => ?hmem⟩
    case echo =>
      exact ⟨fun unsent => .of_Frame echo runs rfl (Dev.echoReply_of_unsent unsent),
        fun t sent other => .of_Frame echo runs rfl (Dev.echoReply_of_other sent other),
        fun t sent step mine => .of_Frame echo runs rfl (Dev.echoReply_of_answer sent step mine)⟩
    case auth =>
      exact ⟨fun unasked => .of_Frame auth runs rfl (Dev.authBody_of_unasked unasked),
        fun step asked bad => .of_Frame auth runs rfl ((Dev.authBody_of_asked step asked).trans (if_neg bad)),
        fun step asked good => .of_Frame auth runs rfl ((Dev.authBody_of_asked step asked).trans (if_pos good))⟩
    case setup =>
      exact ⟨fun other => .of_Frame setup runs rfl (Dev.setupAck_of_other other),
        fun step few => .of_Frame setup runs rfl ((Dev.setupAck_of_step step).trans (if_pos few)),
        fun step enough => .of_Frame setup runs rfl ((Dev.setupAck_of_step step).trans (if_neg (Nat.not_lt.2 enough)))⟩
    case hmem =>
      exact ⟨fun unasked => .of_Frame hmem runs rfl (Dev.hmemData_of_unasked unasked),
        fun h a n asked => ⟨fun mine => .of_Frame hmem runs rfl ((Dev.hmemData_of_asked asked).trans (if_pos mine)),
          fun other => .of_Frame hmem runs rfl ((Dev.hmemData_of_asked asked).trans (if_neg other))⟩⟩
  case flood =>
    refine ⟨.of_withDev runs rfl rfl, fun b => ⟨fun inhibits => ?repeated, fun free held => ?silent⟩⟩
    case repeated => exact .of_withDev runs rfl (if_pos (Bool.or_eq_true_iff.2 inhibits))
    case silent => exact .of_withDev runs rfl (if_neg (by simp [free, held]))
  case host =>
    have relink : exec (.relink b) s = s.onWrite (·.opRelink b) := rfl
    have sense : exec (.senseReq b) s = s.onWrite (·.opSenseReq b) := rfl
    exact ⟨fun hold held => .of_onWrite answers relink ((Dev.opRelink_of_hold hold).trans (if_pos held)),
      fun hold free => .of_onWrite answers relink ((Dev.opRelink_of_hold hold).trans (if_neg (ne_true_of_eq_false free))),
      fun away => .of_onWrite answers relink (Dev.opRelink_of_no_hold away),
      fun down => .of_onWrite answers sense (Dev.opSenseReq_of_down down),
      fun up busy => .of_onWrite answers sense ((Dev.opSenseReq_of_up up).trans (if_pos busy)),
      fun up free => .of_onWrite answers sense ((Dev.opSenseReq_of_up up).trans (if_neg free))⟩
  case tests =>
    have test : exec (.laneTest l v) s = s.onWrite (·.opLaneTest l v.toNat) := rfl
    refine ⟨fun fixed zero => .of_onWrite answers test ((Dev.opLaneTest_of_fixed open_ fixed).trans (if_pos zero)),
      fun fixed some => .of_onWrite answers test ((Dev.opLaneTest_of_fixed open_ fixed).trans (if_neg some)),
      fun free loop low high => .of_onWrite answers test (Dev.opLaneTest_of_pattern open_ free ⟨loop, low, high⟩),
      fun free apart loop pattern => .of_onWrite answers test (Dev.opLaneTest_of_all open_ free apart loop pattern),
      fun free apart reserved => .of_onWrite answers test ((Dev.opLaneTest_of_free open_ free apart).trans ?_)⟩
    rw [if_pos reserved]
    rfl
  case go =>
    have go : exec .eyeScanGo s = s.onWrite (·.opEyeGo 1) := rfl
    exact ⟨fun bad => .of_onWrite answers go (Dev.opEyeGo_of_bad bad), fun good idle => .of_onWrite answers go (Dev.opEyeGo_of_idle good idle),
      fun good busy => .of_onWrite answers go (Dev.opEyeGo_of_running good busy)⟩
  case done =>
    exact ⟨fun w h idle => .of_withDev runs rfl (Dev.opEyeDone_of_idle idle),
      fun w h l host scan => .of_withDev runs rfl (Dev.opEyeDone_of_running scan), .of_withDev runs rfl rfl⟩

end Sys2Proof.Machine
end

section
/-!
PROOFS. Memory requests and the fabric arbiter (R405-R409).
-/

namespace Sys2Proof.Machine

namespace Dev

section
variable {d : Dev} {x : ChanSt} {p q : Nat}

/-! ## The decision (R408) -/

/-- Ports that may be granted and have a request at a channel. -/
def asking (d : Dev) (x : ChanSt) : List Nat := (List.range 32).filter (fun p => d.portOpen p && !(x.queue p).isEmpty)

theorem mem_asking : p ∈ d.asking x ↔ p < 32 ∧ d.portOpen p = true ∧ x.queue p ≠ [] := by
  simp [asking]

theorem slotOwner_eq_some (h : d.slotOwner x = some p) :
    d.portOpen p = true ∧ d.portRt p = true ∧ x.queue p ≠ [] ∧ byteAt x.table x.slot % 32 = p := by
  unfold slotOwner at h
  simp only [Option.ite_none_right_eq_some, Option.some.injEq, Bool.and_eq_true, Bool.not_eq_true', List.isEmpty_eq_false_iff] at h
  obtain ⟨⟨⟨⟨-, rt⟩, opened⟩, asks⟩, rfl⟩ := h
  exact ⟨opened, rt, asks, rfl⟩

/-- Ports in the order in which a level serves them: from the one after the last granted. -/
def turnFrom (last : Nat) : List Nat := (List.range 32).map (fun i => (last + 1 + i) % 32)

theorem mem_turnFrom (last : Nat) (small : q < 32) : q ∈ turnFrom last :=
  List.mem_map.2 ⟨(q + 32 - (last + 1) % 32) % 32, List.mem_range.2 (by omega), by omega⟩

theorem prioOwner_eq (d : Dev) (x : ChanSt) : d.prioOwner x = ((d.asking x).map d.portPrio).max?.bind (fun lv =>
    (turnFrom (mapGet 31 x.lastGrant lv)).find? (fun p => (d.asking x).contains p && d.portPrio p == lv)) := by
  unfold prioOwner asking
  dsimp only
  split <;> next e => rw [e]; rfl

/-- The port that is served asks, and none that asks has a higher level. -/
theorem prioOwner_eq_some (h : d.prioOwner x = some p) : p ∈ d.asking x ∧ ∀ q ∈ d.asking x, d.portPrio q ≤ d.portPrio p := by
  rw [prioOwner_eq, Option.bind_eq_some_iff] at h
  obtain ⟨lv, top, found⟩ := h
  obtain ⟨asks, level⟩ : p ∈ d.asking x ∧ d.portPrio p = lv := by simpa using List.find?_some found
  refine ⟨asks, fun q hq => level ▸ (List.max?_eq_some_iff.1 top).2 _ (List.mem_map_of_mem hq)⟩

/-- A port that asks is served: one of the highest level is in its turn. -/
theorem asking_of_prioOwner_none (h : d.prioOwner x = none) : d.asking x = [] := by
  rw [prioOwner_eq] at h
  cases top : ((d.asking x).map d.portPrio).max? with
  | none => exact List.map_eq_nil_iff.1 (List.max?_eq_none_iff.1 top)
  | some lv =>
    obtain ⟨q, asks, level⟩ := List.mem_map.1 (List.max?_eq_some_iff.1 top).1
    rw [top, Option.bind_some, List.find?_eq_none] at h
    exact absurd (by simp [asks, level]) (h q (mem_turnFrom _ (mem_asking.1 asks).1))

/-! ## Requests and grants (R405, R406, R409) -/

variable {c a : Nat} {w : Option (Nat × List Byte)}

/-- A port that is not alive, or has eight requests at a channel, places none. -/
abbrev RequestBarred (d : Dev) (c p : Nat) : Prop := d.portAlive p = false ∨ 8 ≤ ((d.chan c).queue p).length

theorem opMemRequest_of_barred {opp : Bool} (barred : d.RequestBarred c p) : d.opMemRequest c p a w opp = d := if_pos barred

theorem opMemRequest_of_free {opp : Bool} (free : ¬d.RequestBarred c p) :
    let d1 := (d.wakeSr c).wakeRank c a
    let d2 := d1.setChan c { d1.chan c with pend := mapSet [] (d1.chan c).pend p ((d1.chan c).queue p ++ [⟨p, a, w, none⟩]) }
    d.opMemRequest c p a w opp = if opp = true then d2.opGrant c else d2 :=
  if_neg free

theorem opGrant_of_none (h : (d.nextPort c).2 = none) : d.opGrant c = (d.nextPort c).1 := by
  simp only [opGrant, h]

theorem opGrant_of_empty (h : (d.nextPort c).2 = some p) (empty : ((d.nextPort c).1.chan c).queue p = []) :
    d.opGrant c = (d.nextPort c).1 := by
  simp only [opGrant, h, empty]

theorem opGrant_of_request {r : MemReq} {rs : List MemReq} (h : (d.nextPort c).2 = some p)
    (front : ((d.nextPort c).1.chan c).queue p = r :: rs) :
    d.opGrant c = ((d.nextPort c).1.setChan c { (d.nextPort c).1.chan c with
      pend := mapSet [] ((d.nextPort c).1.chan c).pend p rs }).serve c r := by
  simp only [opGrant, h, front]

end

end Dev

/-- Settles O44: a request and a grant by the cases of their operations; the arbiter's choice is among the ports that ask. -/
theorem requestsAreGrantedByTheArbiter : Obligations.RequestsAreGrantedByTheArbiter := by
  unfold Obligations.RequestsAreGrantedByTheArbiter
  refine ⟨fun s c runs => ⟨fun p a w opp => ⟨fun full => ?_, fun free off => ?_, fun free on => ?_⟩,
    fun none_ => ?_, fun p port empty => ?_, fun p q qs port front => ?_⟩, fun d x p => ⟨Dev.slotOwner_eq_some, fun h => ?_, fun h q small opened => ?_⟩⟩
  · exact .of_withDev runs rfl (Dev.opMemRequest_of_barred full)
  · exact .of_withDev runs rfl ((Dev.opMemRequest_of_free free).trans (if_neg (ne_true_of_eq_false off)))
  · exact .of_withDev runs rfl ((Dev.opMemRequest_of_free free).trans (if_pos on))
  · exact .of_withDev runs rfl (Dev.opGrant_of_none none_)
  · exact .of_withDev runs rfl (Dev.opGrant_of_empty port empty)
  · exact .of_withDev runs rfl (Dev.opGrant_of_request port front)
  · obtain ⟨asks, top⟩ := Dev.prioOwner_eq_some h
    obtain ⟨small, opened, waits⟩ := Dev.mem_asking.1 asks
    exact ⟨small, opened, waits, fun q small opened waits => top q (Dev.mem_asking.2 ⟨small, opened, waits⟩)⟩
  · by_contra waits
    exact List.not_mem_nil (Dev.asking_of_prioOwner_none h ▸ Dev.mem_asking.2 ⟨small, opened, waits⟩)

end Sys2Proof.Machine
end

section
/-!
PROOFS. DRAM channels decode, fail and rest; ports are masked (R397-R406, R411-R413).
-/

namespace Sys2Proof.Machine

namespace Dev

section
variable {d : Dev} {c : Nat}

/-! ## Burst reads (R399-R401) -/

variable {err : List (Fin 40 × BitVec 16)}

theorem opDramRead_of_none (none_ : (d.chan c).reads = []) : d.opDramRead c err = d := by simp only [opDramRead, none_]

theorem opDramRead_of_front {r : MemReq} {rs : List MemReq} (front : (d.chan c).reads = r :: rs) :
    let res := (d.setChan c { d.chan c with reads := rs }).readWord c r.addr r.port err
    d.opDramRead c err = if res.2.2 = true then res.1.readGood c r res.2.1 else res.1.readBad c r res.2.1 := by
  simp only [opDramRead, front]

/-- The scrub runs on a channel in service with nothing to do, outside self-refresh (R399). -/
abbrev Scrubs (d : Dev) (c : Nat) : Prop :=
  d.chanOk c = true ∧ d.chanIdle c = true ∧ d.bit (Reg.MEMC_CH_STATUS c) 2 = false

theorem scrubs_iff : (d.chanOk c && d.chanIdle c && !d.bit (Reg.MEMC_CH_STATUS c) 2) = true ↔ d.Scrubs c := by
  simp [Scrubs, and_assoc]

theorem opScrub_of_scrubs (may : d.Scrubs c) : d.opScrub c err =
    ((d.setChan c { d.chan c with scrub := ((d.chan c).scrub + 1) % 0x10000000 }).readWord c (64 * (d.chan c).scrub) 0xFF err).1 :=
  if_pos (scrubs_iff.2 may)

theorem opScrub_of_not_scrubs (may : ¬d.Scrubs c) : d.opScrub c err = d := if_neg (mt scrubs_iff.1 may)

/-! ## Failures, alerts and calibration (R402-R404) -/

theorem chanFail_of_failed {cause : Nat} (failed : d.chanOk c = false) : d.chanFail c cause = d := if_neg (ne_true_of_eq_false failed)

theorem opAlert_of_failed {again : Bool} (failed : d.chanOk c = false) : d.opAlert c again = d := if_neg (ne_true_of_eq_false failed)

theorem opAlert_of_ok {again : Bool} (ok : d.chanOk c = true) :
    let n := if again = true then (d.chan c).alertRun + 1 else 0
    let d1 := (d.setChan c { d.chan c with alertRun := n }).bump (Reg.MEMC_CH_CAPAR_COUNT c)
    d.opAlert c again = if 3 ≤ n then d1.chanFail c 2
      else (d.chan c).retry.reverse.foldl (fun y e => y.send (.memCmd c e.1 e.2)) d1 :=
  if_pos ok

theorem opCalib_of_failed {drift : Int} {good : Bool} (failed : d.chanOk c = false) : d.opCalib c drift good = d := if_pos failed

theorem opCalib_of_bad {drift : Int} (ok : d.chanOk c = true) : d.opCalib c drift false = d.chanFail c 1 :=
  if_neg (ne_false_of_eq_true ok)

theorem opCalib_of_good {drift : Int} (ok : d.chanOk c = true) :
    let d1 := d.setChan c { d.chan c with taps := (d.chan c).taps + drift }
    d.opCalib c drift true =
      if 2 ≤ drift.natAbs then { d1 with hlth := { d1.hlth with drifted := putFld d1.hlth.drifted c 1 1 } } else d1 :=
  if_neg (ne_false_of_eq_true ok)

/-! ## Power-down and self-refresh (R405, R406) -/

/-- A rank stays awake while power-down is off, its channel has failed, or something is queued for it. -/
abbrev RankBusy (d : Dev) (c r : Nat) : Prop :=
  d.cf Reg.MEMC_PD_IDLE = 0 ∨ d.chanOk c = false ∨
    ∃ q ∈ (d.chan c).reads ++ ((d.chan c).pend.map Prod.snd).flatten, rankOf q.addr = r

theorem rankBusy_iff {r : Nat} : (d.cf Reg.MEMC_PD_IDLE = 0 ∨
    ((d.chan c).reads ++ ((d.chan c).pend.map Prod.snd).flatten).any (fun q => rankOf q.addr == r) = true ∨
      d.chanOk c = false) ↔ d.RankBusy c r := by
  simp only [RankBusy, List.any_eq_true, beq_iff_eq]
  exact or_congr_right or_comm

theorem opRankDown_of_busy {r : Nat} (busy : d.RankBusy c r) : d.opRankDown c r = d := if_pos (rankBusy_iff.2 busy)

theorem opRankDown_of_idle {r : Nat} (idle : ¬d.RankBusy c r) :
    d.opRankDown c r = d.wrBit (Reg.MEMC_CH_STATUS c) (3 + r) true := if_neg (mt rankBusy_iff.1 idle)

/-- An idle channel in service that has been asked enters self-refresh. -/
abbrev EntersSr (d : Dev) (c : Nat) : Prop :=
  (d.chan c).srAsked = true ∧ d.chanIdle c = true ∧ d.chanOk c = true ∧ d.bit (Reg.MEMC_CH_STATUS c) 2 = false

theorem entersSr_iff :
    ((d.chan c).srAsked && d.chanIdle c && d.chanOk c && !d.bit (Reg.MEMC_CH_STATUS c) 2) = true ↔ d.EntersSr c := by
  simp [EntersSr, and_assoc]

theorem opSrEntry_of_enters (may : d.EntersSr c) :
    d.opSrEntry c = (d.wrBit (Reg.MEMC_CH_STATUS c) 2 true).keepCmd c 2 0 := if_pos (entersSr_iff.2 may)

theorem opSrEntry_of_not_enters (may : ¬d.EntersSr c) : d.opSrEntry c = d := if_neg (mt entersSr_iff.1 may)

/-! ## The rebuilt system region (R397) -/

theorem opRebuilt_of_whole (whole : d.bit Reg.MEMC_STATUS 4 = false) : d.opRebuilt = d := if_neg (ne_true_of_eq_false whole)

/-- The module with the same registers and the system region under a list. -/
def SysUnder (d : Dev) (list : List Nat) (x : Dev) : Prop := x.regs = d.regs ∧ x.mem.sysList = list

/-- A rebuild moves words, takes the healthy list and clears the degraded mark. -/
theorem opRebuilt_of_degraded (degraded : d.bit Reg.MEMC_STATUS 4 = true) :
    ∃ x, d.SysUnder (bitsOf 4 (d.rd Reg.PLACE_CH_OK)) x ∧ d.opRebuilt = x.wrBit Reg.MEMC_STATUS 4 false := by
  refine ⟨_, ?_, if_pos degraded⟩
  exact List.foldlRecOn _ _ ⟨rfl, rfl⟩ fun _ same _ _ => same

/-! ## A port that is masked (R411) -/

variable {p : Nat}

theorem portDown_of_dead (dead : d.portAlive p = false) : d.portDown p = d := if_neg (ne_true_of_eq_false dead)

/-- A channel without what a port has waiting and holds there. -/
def withoutPort (x : ChanSt) (p : Nat) : ChanSt :=
  let hold := match x.holder with | some (q, r, k) => if q = p then none else some (q, r, k) | none => none
  { x with pend := mapErase p x.pend, holder := hold }

/-- Requests that a port has waiting at the four channels. -/
def waitingAt (d : Dev) (p : Nat) : Nat := ((List.range 4).map (fun c => ((d.chan c).queue p).length)).sum

/-- The module with the port's requests discarded. -/
def discarded (d : Dev) (p : Nat) : Dev := (List.range 4).foldl (fun y c => y.setChan c (withoutPort (y.chan c) p)) d

theorem discarded_regs : (d.discarded p).regs = d.regs :=
  List.foldlRecOn (motive := fun y : Dev => y.regs = d.regs) _ _ rfl fun _ same _ _ => same

theorem portDown_eq_of_alive (alive : d.portAlive p = true) : d.portDown p =
    (((d.discarded p).wrBit Reg.ARB_ALIVE p false).bumpBy (Reg.ARB_PORT_DISCARD_COUNT p) (d.waitingAt p)).event 1
      .arbPortMasked (vals [p]) := if_pos alive

/-- The log and the interrupts write no register of the arbiter. -/
theorem not_logReg_or_pbaReg_of_arb {a : Nat} (low : 0xA0000 ≤ a) (high : a < 0xA1000) : ¬(logReg a ∨ pbaReg a) := by
  simp (decide := true) only [logReg, pbaReg, Reg.NVM_LOG_NEXT_LO, Reg.NVM_LOG_OLDEST_LO, Reg.HLTH_STATUS, Reg.HLTH_LOG_DROP,
    Reg.HOSTQ_MSIX_PBA]
  omega

/-- An event leaves the registers of the arbiter alone. -/
theorem rd_event_of_arb (x : Dev) (origin : Nat) (ev : Ev) (bs : List Byte) {a : Nat} (low : 0xA0000 ≤ a) (high : a < 0xA1000) :
    (x.event origin ev bs).rd a = x.rd a := (event_touches ..).2 a (not_logReg_or_pbaReg_of_arb low high)

/-- A port that goes down writes the alive ports and its count alone of the arbiter's registers. -/
theorem rd_portDown_of_arb {a : Nat} (low : 0xA0000 ≤ a) (high : a < 0xA1000) (alive : a ≠ Reg.ARB_ALIVE)
    (count : a ≠ Reg.ARB_PORT_DISCARD_COUNT p) : (d.portDown p).rd a = d.rd a := by
  unfold portDown
  split
  · refine (rd_event_of_arb _ _ _ _ low high).trans ((rd_wr_ne _ _ count).trans ((rd_wrBit_ne _ _ _ alive).trans ?_))
    exact congrArg (fun m => (mapGet 0 m a).toNat) (d.discarded_regs (p := p))
  · rfl

/-- A port that goes down clears its own bit of the alive ports, and counts what it had waiting. -/
theorem portDown_of_alive (small : p < 32) (alive : d.portAlive p = true) :
    (d.portDown p).portAlive p = false ∧ (∀ q ≠ p, (d.portDown p).portAlive q = d.portAlive q) ∧
      (d.portDown p).rd (Reg.ARB_PORT_DISCARD_COUNT p) =
        min (d.rd (Reg.ARB_PORT_DISCARD_COUNT p) + d.waitingAt p) 0xFFFFFFFF := by
  have reads : ∀ a, (d.discarded p).rd a = d.rd a := fun a => congrArg (fun m => (mapGet 0 m a).toNat) discarded_regs
  have apart : Reg.ARB_ALIVE ≠ Reg.ARB_PORT_DISCARD_COUNT p := by unfold Reg.ARB_ALIVE Reg.ARB_PORT_DISCARD_COUNT; omega
  have aliveBit : ∀ q, (d.portDown p).portAlive q = ((d.discarded p).wrBit Reg.ARB_ALIVE p false).bit Reg.ARB_ALIVE q := fun q => by
    unfold portAlive bit
    rw [portDown_eq_of_alive alive, rd_event_of_arb _ _ _ _ (by decide) (by decide), bumpBy, rd_wr_ne _ _ apart]
  refine ⟨?_, fun q other => ?_, ?_⟩
  · rw [aliveBit, bit_wrBit_same _ _ _ _ small]
  · rw [aliveBit, bit_wrBit_other _ _ _ _ small other, portAlive, bit, reads]
    rfl
  · rw [portDown_eq_of_alive alive, rd_event_of_arb _ _ _ _ (by unfold Reg.ARB_PORT_DISCARD_COUNT; omega)
      (by unfold Reg.ARB_PORT_DISCARD_COUNT; omega), bumpBy, rd_wr_same, rd_wrBit_ne _ _ _ apart.symm, reads]
    omega

end

end Dev

/-- Settles O45: each row by the cases of its operation. -/
theorem channelsDecodeFailAndRest : Obligations.ChannelsDecodeFailAndRest := by
  unfold Obligations.ChannelsDecodeFailAndRest
  refine ⟨fun s c err runs => ⟨fun none_ => ?_, fun r rs front => ⟨fun good => ?_, fun bad => ?_⟩, fun may => ?_, fun may => ?_⟩,
    fun s c runs => ⟨fun cause failed => ?_, fun cause ok => ?_, fun again failed => ?_, fun again ok => ⟨fun third => ?_, fun early => ?_⟩,
      fun good failed => ⟨?_, fun drift => ?_⟩, fun ok => ⟨?_, fun drift => ?_⟩, fun ok => ⟨?_, fun drift => ⟨fun little => ?_, fun large => ?_⟩⟩⟩,
    fun s => ⟨fun runs => ⟨fun c r => ⟨fun busy => ?_, fun idle => ?_⟩, fun c => ⟨fun may => ?_, fun may => ?_⟩, fun whole => ?_,
      fun degraded => ?_, fun p dead => ?_, fun p alive => ?_⟩, fun answers => ?swap⟩⟩
  · exact .of_withDev runs rfl (Dev.opDramRead_of_none none_)
  · exact .of_withDev runs rfl ((Dev.opDramRead_of_front front).trans (if_pos good))
  · exact .of_withDev runs rfl ((Dev.opDramRead_of_front front).trans (if_neg (ne_true_of_eq_false bad)))
  · exact .of_withDev runs rfl (Dev.opScrub_of_scrubs may)
  · exact .of_withDev runs rfl (Dev.opScrub_of_not_scrubs may)
  · exact .of_withDev runs rfl (Dev.chanFail_of_failed failed)
  · exact .of_withDev runs rfl (if_pos ok)
  · exact .of_withDev runs rfl (Dev.opAlert_of_failed failed)
  · exact .of_withDev runs rfl ((Dev.opAlert_of_ok ok).trans (if_pos third))
  · exact .of_withDev runs rfl ((Dev.opAlert_of_ok ok).trans (if_neg (Nat.not_le.2 early)))
  · exact .of_withDev runs rfl (Dev.opCalib_of_failed failed)
  · exact .of_withDev runs rfl (Dev.opCalib_of_failed failed)
  · exact .of_withDev runs rfl (Dev.opCalib_of_bad ok)
  · exact .of_withDev runs rfl (Dev.opCalib_of_bad ok)
  · exact .of_withDev runs rfl ((Dev.opCalib_of_good ok).trans (if_neg (by decide)))
  · exact .of_withDev runs rfl ((Dev.opCalib_of_good ok).trans (if_neg (Nat.not_le.2 little)))
  · exact .of_withDev runs rfl ((Dev.opCalib_of_good ok).trans (if_pos large))
  · exact .of_withDev runs rfl (Dev.opRankDown_of_busy busy)
  · exact .of_withDev runs rfl (Dev.opRankDown_of_idle idle)
  · exact .of_withDev runs rfl (Dev.opSrEntry_of_enters may)
  · exact .of_withDev runs rfl (Dev.opSrEntry_of_not_enters may)
  · exact .of_withDev runs rfl (Dev.opRebuilt_of_whole whole)
  · obtain ⟨x, ⟨same, list⟩, rebuilt⟩ := Dev.opRebuilt_of_degraded degraded
    refine ⟨_, .of_withDev runs rfl rebuilt, x.bit_wrBit_same _ _ _ (by decide), list, fun a other => ?_⟩
    exact (x.rd_wrBit_ne _ _ other).trans (congrArg (fun m => (mapGet 0 m a).toNat) same)
  · exact .of_withDev runs rfl (Dev.portDown_of_dead dead)
  · obtain ⟨down, others, counted⟩ := Dev.portDown_of_alive p.isLt alive
    exact ⟨_, .of_withDev runs rfl rfl, down, fun q _ other => others q other, counted⟩
  case swap =>
    have row : exec .swap s = s.onWrite (fun d => d.opSwap 1) := rfl
    refine ⟨fun service => ?_, fun outside pending => ?_, fun outside free => ?_⟩
    · exact .of_onWrite answers row (if_pos service)
    · exact .of_onWrite answers row ((if_neg (ne_true_of_eq_false outside)).trans (if_pos pending))
    · exact .of_onWrite answers row ((if_neg (ne_true_of_eq_false outside)).trans (if_neg (ne_true_of_eq_false free)))

end Sys2Proof.Machine
end

section
/-!
PROOFS. Power states are entered and left: entries, wakes, the sequencer and the shelf (R49, R470-R483).
-/

namespace Sys2Proof.Machine

namespace Dev

section
variable {d : Dev}

/-! ## POWER_SET and entries (R125, R470, R473-R476) -/

section
variable {o : Out}

theorem powerBody_of_active (sleep : 2 ≤ byteAt o.entry 8) (active : d.anyActive = true) :
    d.powerBody o = d.complete o JOB_ACTIVE 0 [] := if_pos ⟨sleep, active⟩

/-- What is asked may begin beside the jobs. -/
theorem not_sleep_and_active (may : byteAt o.entry 8 < 2 ∨ d.anyActive = false) : ¬(2 ≤ byteAt o.entry 8 ∧ d.anyActive = true) := by
  rintro ⟨sleep, active⟩
  rcases may with awake | still
  · omega
  · exact ne_true_of_eq_false still active

theorem powerBody_of_entering (may : byteAt o.entry 8 < 2 ∨ d.anyActive = false) (entering : d.entering = true) :
    d.powerBody o = d.complete o SLEEP_ABORT 0 [] := (if_neg (not_sleep_and_active may)).trans (if_pos entering)

theorem powerBody_of_there (may : byteAt o.entry 8 < 2 ∨ d.anyActive = false) (idle : d.entering = false)
    (there : byteAt o.entry 8 = d.pState) : d.powerBody o = d.complete o OK 0 [] :=
  (if_neg (not_sleep_and_active may)).trans ((if_neg (ne_true_of_eq_false idle)).trans (if_pos there))

end

section
variable {a : Nat}

theorem opAgentTimeout_of_idle (idle : d.entering = false) : d.opAgentTimeout a = d := if_pos idle

theorem opAgentTimeout_of_asking (entering : d.entering = true) (asking : d.phase = 1) :
    d.opAgentTimeout a = d.refuseEntry a true := (if_neg (ne_false_of_eq_true entering)).trans (if_pos asking)

theorem opAgentTimeout_of_later (entering : d.entering = true) (later : d.phase ≠ 1) :
    d.opAgentTimeout a = if d.pwr.agents.head? = some a then d.abortEntry a d.phase true else d :=
  (if_neg (ne_false_of_eq_true entering)).trans (if_neg later)

end

section
variable {p : Nat}

/-- The module without the requests of a port. -/
def withoutRequests (d : Dev) (p : Nat) : Dev :=
  (List.range 4).foldl (fun x c => x.setChan c { x.chan c with pend := mapErase p (x.chan c).pend }) d

theorem withoutRequests_regs : (d.withoutRequests p).regs = d.regs :=
  List.foldlRecOn (motive := fun y : Dev => y.regs = d.regs) _ _ rfl fun _ same _ _ => same

/-- What a port that has not drained leaves: its requests are gone and counted, and it is down. -/
def drainCut (d : Dev) (p : Nat) : Dev :=
  let n := ((List.range 4).map (fun c => ((d.chan c).queue p).length)).sum
  ((((d.withoutRequests p).bumpBy Reg.PWR_DRAIN_ABORT_COUNT n).append 4 .drainAbort (vals [p, n])).portDown p).wrBit Reg.ARB_DRAINING p false

/-- The end of the drain at one port. -/
def drainEnd (d : Dev) (p : Nat) : Dev :=
  if (d.portDraining p && ((List.range 4).map (fun c => ((d.chan c).queue p).length)).sum != 0) = true then d.drainCut p else d

theorem drainEnd_of_not_draining (h : d.portDraining p = false) : d.drainEnd p = d := if_neg (by simp [h])

theorem drainEnd_of_none (none_ : ((List.range 4).map (fun c => ((d.chan c).queue p).length)).sum = 0) : d.drainEnd p = d :=
  if_neg (by simp [none_])

theorem drainEnd_of_waiting (h : d.portDraining p = true)
    (some_ : ((List.range 4).map (fun c => ((d.chan c).queue p).length)).sum ≠ 0) : d.drainEnd p = d.drainCut p :=
  if_pos (by simp [h, some_])

theorem opDrainAbort_of_elsewhere (h : d.entering = false ∨ d.phase ≠ 3) : d.opDrainAbort = d :=
  if_neg (by rcases h with h | h <;> simp [h])

theorem opDrainAbort_of_draining (entering : d.entering = true) (third : d.phase = 3) :
    d.opDrainAbort = (List.range 29).foldl drainEnd d := if_pos (by simp [entering, third])

end

end

end Dev

/-- A fold in which one element alone acts, and nothing after it. -/
theorem foldl_eq_of_only {α β : Type} {f : β → α → β} {b : β} {a : α} : ∀ {l : List α}, a ∈ l → (∀ x ∈ l, x ≠ a → f b x = b) →
    (∀ x ∈ l, f (f b a) x = f b a) → l.foldl f b = f b a
  | x :: xs, mem, before, after => by
    by_cases e : x = a
    · subst e
      exact foldl_eq_self fun y hy => after y (List.mem_cons_of_mem x hy)
    · rw [List.foldl_cons, before x (List.mem_cons_self ..) e]
      exact foldl_eq_of_only ((List.mem_cons.1 mem).resolve_left (Ne.symm e)) (fun y hy => before y (List.mem_cons_of_mem x hy))
        fun y hy => after y (List.mem_cons_of_mem x hy)

namespace Dev

section
variable {d : Dev} {p : Nat}

/-- The cut clears the port's own bit of the draining ports alone. -/
theorem portDraining_drainCut (small : p < 29) :
    (d.drainCut p).portDraining p = false ∧ ∀ r ≠ p, (d.drainCut p).portDraining r = d.portDraining r := by
  refine ⟨bit_wrBit_same _ _ _ _ (by omega), fun r other => (bit_wrBit_other _ _ _ _ (by omega) other).trans ?_⟩
  unfold portDraining bit
  rw [rd_portDown_of_arb (by decide) (by decide) (by decide) (by unfold Reg.ARB_DRAINING Reg.ARB_PORT_DISCARD_COUNT; omega),
    (append_touches ..).2 _ (fun h => not_logReg_or_pbaReg_of_arb (by decide) (by decide) (.inl h)), bumpBy, rd_wr_ne _ _ (by decide)]
  exact congrArg (fun m => bitOf (mapGet 0 m Reg.ARB_DRAINING).toNat r) withoutRequests_regs

/-- With one port draining, the abort ends the drain at it. -/
theorem opDrainAbort_of_one (entering : d.entering = true) (third : d.phase = 3) (small : p < 29)
    (others : ∀ r, r < 29 → r ≠ p → d.portDraining r = false) : d.opDrainAbort = d.drainEnd p := by
  rw [opDrainAbort_of_draining entering third]
  refine foldl_eq_of_only (List.mem_range.2 small)
    (fun r hr other => drainEnd_of_not_draining (others r (List.mem_range.1 hr) other)) fun r hr => ?_
  have ended : d.drainEnd p = d.drainCut p ∨ d.drainEnd p = d := ite_eq_or_eq _ _ _
  obtain ⟨own, rest⟩ := portDraining_drainCut (d := d) small
  rcases ended with cut | none_ <;> by_cases e : r = p
  · rw [cut, e]
    exact drainEnd_of_not_draining own
  · rw [cut]
    exact drainEnd_of_not_draining ((rest r e).trans (others r (List.mem_range.1 hr) e))
  · rw [e, none_, none_]
  · rw [none_]
    exact drainEnd_of_not_draining (others r (List.mem_range.1 hr) e)

end

/-! ## Wakes (R477-R481) -/

section
variable {d : Dev} {k u : Nat} {up : StartUp}

/-- A wake that a module without mains, a stuck one or its source cannot raise (R43, R74, R477). -/
abbrev Undetected (d : Dev) (k u : Nat) : Prop :=
  (d.pwr.stuck = true ∨ d.pwr.failing = true) ∨ (k = 2 ∧ (List.range 4).all (fun c => !d.cfB (Reg.POS_ENC_CFG c) 0) = true) ∨
    (k = 3 ∧ d.bit (Reg.TIME_TRIG_CFG u) 1 = false) ∨ (k = 5 ∧ d.pwr.wakePin = true)

theorem opWake_eq (d : Dev) (k u : Nat) (up : StartUp) : d.opWake k u up = if d.Undetected k u then d else d.wakeEvent k u up := by
  unfold opWake
  simp only [Undetected, ite_or]

/-- A wake that is not enabled, or cannot be detected. -/
abbrev WakeBlind (d : Dev) (k u : Nat) : Prop :=
  (k = 2 ∧ ∀ c < 4, d.cfB (Reg.POS_ENC_CFG c) 0 = false) ∨ (k = 3 ∧ d.bit (Reg.TIME_TRIG_CFG u) 1 = false) ∨
    (k = 5 ∧ d.pwr.wakePin = true) ∨ bitOf d.wakeMask k = false ∨ d.pwr.stuck = true ∨ d.pwr.failing = true

theorem wakeBlind_iff : d.WakeBlind k u ↔ d.Undetected k u ∨ bitOf d.wakeMask k = false := by
  have encoders : (List.range 4).all (fun c => !d.cfB (Reg.POS_ENC_CFG c) 0) = true ↔
      ∀ c < 4, d.cfB (Reg.POS_ENC_CFG c) 0 = false := by simp [List.all_eq_true, List.mem_range]
  rw [Undetected, encoders]
  simp only [WakeBlind, or_assoc, or_comm, or_left_comm]

theorem wakeEvent_of_masked (masked : bitOf d.wakeMask k = false) : d.wakeEvent k u up = d := if_pos masked

theorem opWake_of_blind (blind : d.WakeBlind k u) : d.opWake k u up = d := by
  rw [opWake_eq]
  split
  · rfl
  · next seen => exact wakeEvent_of_masked ((wakeBlind_iff.1 blind).resolve_left seen)

theorem opWake_of_seen (seen : ¬d.WakeBlind k u) : d.opWake k u up = d.wakeEvent k u up :=
  (opWake_eq d k u up).trans (if_neg fun h => seen (wakeBlind_iff.2 (.inl h)))

theorem wakeMask_of_seen (seen : ¬d.WakeBlind k u) : bitOf d.wakeMask k = true :=
  (Bool.not_eq_false _).mp fun h => seen (wakeBlind_iff.2 (.inr h))

section
variable (enabled : bitOf d.wakeMask k = true)
include enabled

theorem wakeEvent_of_waking (waking : d.pwr.waking ≠ none) : d.wakeEvent k u up = d.bump Reg.HEEL_EXTRA_WAKES :=
  (if_neg (ne_false_of_eq_true enabled)).trans (if_pos (Option.isSome_iff_ne_none.2 waking))

variable (calm : d.pwr.waking = none)
include calm

/-- A wake that is enabled while none runs, by the power state. -/
theorem wakeEvent_of_calm : d.wakeEvent k u up =
    if d.pState = 5 then (if k ≤ 1 then d.wakeFromOff (k + 1) u false up else d)
    else if 3 ≤ d.pState then
      (if d.pState = 4 ∧ up.badChannels ≠ 0 then d.stepDram up.badChannels.toNat else d).beginWake (k + 1) u false
    else if d.entering = true ∧ d.pwr.target ≠ 2 then
      ({ d with pwr := { d.pwr with latched := d.pwr.latched ++ [(k + 1, u)] } } : Dev).wrBit Reg.HEEL_STATUS 2 true
    else d :=
  (if_neg (ne_false_of_eq_true enabled)).trans (if_neg (by simp [calm]))

theorem wakeEvent_of_off (off : d.pState = 5) :
    d.wakeEvent k u up = if k ≤ 1 then d.wakeFromOff (k + 1) u false up else d :=
  (wakeEvent_of_calm enabled calm).trans (if_pos off)

theorem wakeEvent_of_sleep (sleep : d.pState = 3 ∨ d.pState = 4) : d.wakeEvent k u up =
    (if d.pState = 4 ∧ up.badChannels ≠ 0 then d.stepDram up.badChannels.toNat else d).beginWake (k + 1) u false :=
  (wakeEvent_of_calm enabled calm).trans ((if_neg (by omega)).trans (if_pos (by omega)))

theorem wakeEvent_of_awake (awake : d.pState < 3) : d.wakeEvent k u up = if d.entering = true ∧ d.pwr.target ≠ 2 then
      ({ d with pwr := { d.pwr with latched := d.pwr.latched ++ [(k + 1, u)] } } : Dev).wrBit Reg.HEEL_STATUS 2 true
    else d :=
  (wakeEvent_of_calm enabled calm).trans ((if_neg (by omega)).trans (if_neg (by omega)))

end

/-! ## The sequencer's window (R481) -/

theorem windowStill_iff : (d.pwr.steps.isEmpty = true ∨ d.pwr.stuck = true ∨ d.pwr.failing = true) ↔
    (d.pwr.steps = [] ∨ d.pwr.stuck = true ∨ d.pwr.failing = true) := by rw [List.isEmpty_iff]

theorem opWindow_of_still (still : d.pwr.steps = [] ∨ d.pwr.stuck = true ∨ d.pwr.failing = true) : d.opWindow = d :=
  if_pos (windowStill_iff.2 still)

/-- The starts that the budget admits, from those that wait. -/
def windowSteps (d : Dev) : List (Nat × Nat) × List (Nat × Nat) := admitSteps (d.cf Reg.PWR_BUDGET) d.pwr.steps

/-- The starts that wait on, a window longer. -/
def stepsLeft (d : Dev) : List (Nat × Nat) := d.windowSteps.2.map (fun x => (x.1, x.2 + 1))

/-- The admitted starts of a window. -/
def windowRun (d : Dev) : Dev :=
  d.windowSteps.1.foldl (fun x y => x.stepStart y.1) (({ d with pwr := { d.pwr with steps := d.stepsLeft } } : Dev).wr
    Reg.PWR_WAIT_MAX ((d.windowSteps.1.map Prod.snd).foldl max (d.rd Reg.PWR_WAIT_MAX)))

theorem opWindow_of_due (due : ¬(d.pwr.steps = [] ∨ d.pwr.stuck = true ∨ d.pwr.failing = true)) :
    d.opWindow = if d.stepsLeft.isEmpty = true then d.windowRun.finishWake else d.windowRun :=
  if_neg (mt windowStill_iff.1 due)

/-! ## Trigger units (R389, R390) -/

/-- A unit is armed and its target has been reached. -/
abbrev TrigDue (d : Dev) (u : Nat) : Prop := d.trigState u = 1 ∧ d.trigTarget u ≤ d.localNow

/-- A unit does not fire in OFF, in a module that has stopped, nor without WAKE in a sleep state. -/
abbrev TrigDead (d : Dev) (u : Nat) : Prop :=
  d.pState = 5 ∨ d.pwr.stuck = true ∨ d.pwr.failing = true ∨ (3 ≤ d.pState ∧ d.bit (Reg.TIME_TRIG_CFG u) 1 = false)

theorem trigDue_iff : (d.trigState u == 1 && decide (d.trigTarget u ≤ d.localNow)) = true ↔ d.TrigDue u := by
  simp [TrigDue]

theorem opTrigger_of_quiet (quiet : ¬d.TrigDue u ∨ d.TrigDead u) : d.opTrigger u = d := by
  rw [← trigDue_iff, Bool.not_eq_true] at quiet
  rcases quiet with notDue | off | stuck | failing | asleep
  · exact if_pos (.inl notDue)
  · exact if_pos (.inr (.inl off))
  · exact if_pos (.inr (.inr (.inl stuck)))
  · exact if_pos (.inr (.inr (.inr failing)))
  · exact (if_congr Iff.rfl rfl (if_pos asleep)).trans (ite_self d)

theorem opTrigger_of_due (due : d.TrigDue u) (live : ¬d.TrigDead u) : d.opTrigger u =
    if d.bit (Reg.TIME_TRIG_CFG u) 1 = true then (d.fireUnit u).wakeEvent 3 u (d.fireUnit u).plainUp else d.fireUnit u := by
  simp only [TrigDead, not_or] at live
  obtain ⟨off, stuck, failing, asleep⟩ := live
  have armed := trigDue_iff.2 due
  exact (if_neg (by simp only [not_or]; exact ⟨ne_false_of_eq_true armed, off, stuck, failing⟩)).trans (if_neg asleep)

/-! ## The shelf (R49, R483) -/

variable {addr : Nat}

theorem opShelfWake_of_other (other : addr ≠ d.shelfAddr ∨ d.pwr.stuck = true ∨ d.pwr.failing = true) :
    d.opShelfWake addr up = d := if_pos other

theorem opShelfWake_of_own (own : addr = d.shelfAddr) (live : d.pwr.stuck = false) (mains : d.pwr.failing = false) :
    d.opShelfWake addr up = d.wakeEvent 0 0 up := if_neg (by simp [own, live, mains])

/-- POWER_OFF is not heard: another address, OFF, or the mains failing. -/
abbrev ShelfDeaf (d : Dev) (addr : Nat) : Prop := addr ≠ d.shelfAddr ∨ d.pState = 5 ∨ d.pwr.failing = true

/-- The module sleeps, and no wake runs. -/
abbrev Asleep (d : Dev) : Prop := 3 ≤ d.pState ∧ d.pwr.waking = none

/-- An entry may begin in HOLD. -/
abbrev HoldFree (d : Dev) : Prop := d.inHold = true ∧ d.entering = false ∧ d.pState < 3 ∧ d.pwr.stuck = false

theorem asleep_iff : (3 ≤ d.pState ∧ d.pwr.waking.isNone = true) ↔ d.Asleep := by rw [Option.isNone_iff_eq_none]

theorem holdFree_iff : (d.inHold && !d.entering && decide (d.pState < 3) && !d.pwr.stuck) = true ↔ d.HoldFree := by
  simp [HoldFree, and_assoc]

theorem opShelfOff_of_deaf (deaf : d.ShelfDeaf addr) : d.opShelfOff addr = d := if_pos deaf

theorem opShelfOff_of_asleep (hears : ¬d.ShelfDeaf addr) (asleep : d.Asleep) :
    d.opShelfOff addr = ({ d with pwr := { d.pwr with target := 5, latched := [] } } : Dev).reached :=
  (if_neg hears).trans (if_pos (asleep_iff.2 asleep))

theorem opShelfOff_of_hold (hears : ¬d.ShelfDeaf addr) (awake : ¬d.Asleep) (hold : d.HoldFree) :
    d.opShelfOff addr = d.enter 5 true :=
  (if_neg hears).trans ((if_neg (mt asleep_iff.1 awake)).trans (if_pos (holdFree_iff.2 hold)))

theorem opShelfOff_of_other (hears : ¬d.ShelfDeaf addr) (awake : ¬d.Asleep) (hold : ¬d.HoldFree) :
    d.opShelfOff addr = d.append 4 .writeIgnored (vals [1, 0x4F]) :=
  (if_neg hears).trans ((if_neg (mt asleep_iff.1 awake)).trans (if_neg (mt holdFree_iff.1 hold)))

end

end Dev

/-- Settles O52: each row by the cases of its operation. -/
theorem powerStatesAreEnteredAndLeft : Obligations.PowerStatesAreEnteredAndLeft := by
  unfold Obligations.PowerStatesAreEnteredAndLeft
  refine ⟨⟨fun s q o d starts => ?powerSet, fun s runs => ⟨.of_withDev runs rfl rfl, fun a => ?agent, ?drain⟩⟩,
    fun s => ⟨fun k u up => ?wake, ?window, fun u => ?trigger, fun addr up => ?shelfWake, fun addr => ?shelfOff⟩⟩
  case powerSet =>
    refine ⟨fun sleep active => ?_, fun may entering => ?_, fun may idle there => ?_, fun awake idle other => ?_,
      fun sleep still idle other => ?_⟩
    · exact .of_runCmd starts rfl (Dev.powerBody_of_active sleep active)
    · exact .of_runCmd starts rfl (Dev.powerBody_of_entering may entering)
    · exact .of_runCmd starts rfl (Dev.powerBody_of_there may idle there)
    · exact .of_runCmd starts rfl (Dev.powerBody_of_awake idle other awake)
    · exact .of_runCmd starts rfl (Dev.powerBody_of_sleep idle other sleep still)
  case agent =>
    refine ⟨fun idle => ?_, fun entering asking => ?_, fun entering later next => ?_, fun entering later other => ?_⟩
    · exact .of_withDev runs rfl (Dev.opAgentTimeout_of_idle idle)
    · exact .of_withDev runs rfl (Dev.opAgentTimeout_of_asking entering asking)
    · exact .of_withDev runs rfl ((Dev.opAgentTimeout_of_later entering later).trans (if_pos next))
    · exact .of_withDev runs rfl ((Dev.opAgentTimeout_of_later entering later).trans (if_neg other))
  case drain =>
    refine ⟨fun elsewhere => ?_, fun entering third none_ => ?_, fun p small entering third draining others => ⟨fun empty => ?_, fun waiting => ?_⟩⟩
    · exact .of_withDev runs rfl (Dev.opDrainAbort_of_elsewhere elsewhere)
    · exact .of_withDev runs rfl ((Dev.opDrainAbort_of_draining entering third).trans
        (foldl_eq_self fun p hp => Dev.drainEnd_of_not_draining (none_ p (List.mem_range.1 hp))))
    · exact .of_withDev runs rfl ((Dev.opDrainAbort_of_one entering third small others).trans (Dev.drainEnd_of_none empty))
    · exact .of_withDev runs rfl
        ((Dev.opDrainAbort_of_one entering third small others).trans (Dev.drainEnd_of_waiting draining waiting))
  case wake =>
    refine ⟨fun blind => .of_always rfl (Dev.opWake_of_blind blind), fun seen waking => ?_, fun seen calm off first => ?_,
      fun seen calm off later => ?_, fun seen calm sleep => ?_, fun seen calm awake entering deep => ?_, fun seen calm awake other => ?_⟩ <;>
      refine .of_always rfl ((Dev.opWake_of_seen seen).trans ?_) <;> have enabled := Dev.wakeMask_of_seen seen
    · exact Dev.wakeEvent_of_waking enabled waking
    · exact (Dev.wakeEvent_of_off enabled calm off).trans (if_pos first)
    · exact (Dev.wakeEvent_of_off enabled calm off).trans (if_neg (Nat.not_le.2 later))
    · exact Dev.wakeEvent_of_sleep enabled calm sleep
    · exact (Dev.wakeEvent_of_awake enabled calm awake).trans (if_pos ⟨entering, deep⟩)
    · refine (Dev.wakeEvent_of_awake enabled calm awake).trans (if_neg ?_)
      rintro ⟨entering, deep⟩
      exact other.elim (ne_false_of_eq_true entering) deep
  case window =>
    refine ⟨fun still => ?_, fun due last => ?_, fun due more => ?_⟩
    · exact .of_always rfl (Dev.opWindow_of_still still)
    · exact .of_always rfl ((Dev.opWindow_of_due due).trans (if_pos (List.isEmpty_iff.2 last)))
    · exact .of_always rfl ((Dev.opWindow_of_due due).trans (if_neg (mt List.isEmpty_iff.1 more)))
  case trigger =>
    refine ⟨fun quiet => ?_, fun due live plain => ?_, fun due live wakes => ?_⟩
    · exact .of_always rfl (Dev.opTrigger_of_quiet quiet)
    · exact .of_always rfl ((Dev.opTrigger_of_due due live).trans (if_neg (ne_true_of_eq_false plain)))
    · exact .of_always rfl ((Dev.opTrigger_of_due due live).trans (if_pos wakes))
  case shelfWake =>
    refine ⟨fun other => ?_, fun own live mains => ?_⟩
    · exact .of_always rfl (Dev.opShelfWake_of_other other)
    · exact .of_always rfl (Dev.opShelfWake_of_own (not_not.1 own) live mains)
  case shelfOff =>
    refine ⟨fun deaf => ?_, fun hears asleep => ?_, fun hears awake hold => ?_, fun hears awake hold => ?_⟩
    · exact .of_always rfl (Dev.opShelfOff_of_deaf deaf)
    · exact .of_always rfl (Dev.opShelfOff_of_asleep hears asleep)
    · exact .of_always rfl (Dev.opShelfOff_of_hold hears awake hold)
    · exact .of_always rfl (Dev.opShelfOff_of_other hears awake hold)

end Sys2Proof.Machine
end

section
/-!
PROOFS. The rows of power, wakes and trigger units complete (R389, R470-R483).
-/

namespace Sys2Proof.Machine

namespace Dev

section
variable {d : Dev}

/-! ## An entry that is over (R473, R474) -/

theorem entryOver_shown (d : Dev) : d.entryOver.rdF Reg.PWR_STATUS 3 4 = 0 ∧ d.entryOver.pwr.target = 0 ∧ d.entryOver.pwr.agents = [] := by
  refine ⟨?_, ?_, ?_⟩
  · exact (rdF_wrF_ne _ _ _ _ (by decide)).trans (rdF_wrF_same _ Reg.PWR_STATUS 3 4 0 (by decide))
  all_goals simp [entryOver, setEntry]

/-- An agent that misses phase 1 refuses the entry, which is then over. -/
theorem refuseEntry_of_timeout (d : Dev) (agent : Nat) :
    let d1 := d.completeWhere (fun o => entOpcode o.entry == 0x0320) SLEEP_ABORT (fun _ => agent)
    let d2 := (d1.wr Reg.PWR_LAST_ABORT (agent + 0x100 + 0x800 + d1.pwr.target * 0x1000)).append 4 .sleepAbort (vals [agent, 1, 1])
    let p : PwrSt := { d2.pwr with target := 0, shelf := false, agents := [], stopped := [], latched := [] }
    d.refuseEntry agent true = (({ d2 with pwr := p } : Dev).wrF Reg.PWR_STATUS 3 4 0).wrBit Reg.HEEL_STATUS 2 false := by
  unfold refuseEntry noteAbort entryOver setEntry
  rfl

/-- ENTERING is the lowest bit of the entry's field. -/
theorem entering_of_entry_field (h : d.rdF Reg.PWR_STATUS 3 4 = 0) : d.entering = false := by
  unfold rdF fld at h
  have low : d.rd Reg.PWR_STATUS / 2 ^ 3 % 2 ^ 1 = 0 := by omega
  unfold entering bit bitOf fld
  rw [low]
  rfl

/-- Driving WAKE# leaves the registers, the target and the agents alone. -/
theorem wakeLow_shown (d : Dev) : d.wakeLow.regs = d.regs ∧ d.wakeLow.pwr.target = d.pwr.target ∧ d.wakeLow.pwr.agents = d.pwr.agents := by
  unfold wakeLow
  split <;> exact ⟨rfl, rfl, rfl⟩

/-- The entry is over, its target and agents cleared. -/
def EntryEnded (d : Dev) : Prop := d.entering = false ∧ d.pwr.target = 0 ∧ d.pwr.agents = []

theorem entryOver_ended (d : Dev) : d.entryOver.EntryEnded := by
  obtain ⟨entry, target, agents⟩ := d.entryOver_shown
  exact ⟨entering_of_entry_field entry, target, agents⟩

theorem wakeLow_ended (ended : d.EntryEnded) : d.wakeLow.EntryEnded := by
  obtain ⟨entering, target, agents⟩ := ended
  obtain ⟨regs, target', agents'⟩ := d.wakeLow_shown
  have same : d.wakeLow.entering = d.entering := congrArg (fun m : NMap Word => bitOf (mapGet 0 m Reg.PWR_STATUS).toNat 3) regs
  exact ⟨same.trans entering, target'.trans target, agents'.trans agents⟩

/-- However an abort ends, with the starts of phase 5 or with WAKE#, the entry is over. -/
theorem ite_ended {phase : Nat} {steps : List (Nat × Nat)} (ended : d.EntryEnded) :
    (if phase = 5 then ({ d with pwr := { d.pwr with steps := steps } } : Dev) else d.wakeLow).EntryEnded := by
  split
  · exact ended
  · exact wakeLow_ended ended

theorem abortEntry_ended (d : Dev) (agent phase : Nat) (timeout : Bool) : (d.abortEntry agent phase timeout).EntryEnded :=
  ite_ended (entryOver_ended _)

/-! ## The end of a drain (R476) -/

/-- A port whose drain is cut is not alive. -/
theorem portAlive_drainCut {p : Nat} (small : p < 29) : (d.drainCut p).portAlive p = false := by
  have down : ∀ x : Dev, (x.portDown p).portAlive p = false := fun x => by
    cases alive : x.portAlive p
    · rw [portDown_of_dead alive, alive]
    · exact (portDown_of_alive (by omega) alive).1
  exact (bit_wrBit_ne _ _ _ _ (by decide)).trans (down _)

/-! ## DOZE (R470) -/

theorem dozeExit_of_doze (doze : d.pState = 2) : d.dozeExit = d.wrF Reg.PWR_STATUS 0 3 d.pwr.prev := if_pos doze

/-! ## A wake from SLEEP (R477, R481) -/

/-- A wake from SLEEP is recorded with its source, and every domain's start waits. -/
def wakeBegun (d : Dev) (k u : Nat) : Dev :=
  let d1 := d.wakeRecord (k + 1 + 16 * 3 + (if k + 1 = 4 then u * 0x80000 else 0))
  let p : PwrSt := { d1.pwr with waking := some (k + 1, false, 3, u), steps := (List.range 25).map (fun i => (i, 0)) }
  ({ d1 with pwr := p } : Dev).bump Reg.HEEL_WAKE_COUNT

theorem wakeEvent_of_light_sleep {k u : Nat} {up : StartUp} (enabled : bitOf d.wakeMask k = true) (calm : d.pwr.waking = none)
    (sleep : d.pState = 3) : d.wakeEvent k u up = d.wakeBegun k u := by
  rw [wakeEvent_of_sleep enabled calm (.inl sleep), if_neg (by omega)]
  unfold beginWake
  rw [sleep]
  rfl

end

end Dev

/-- Settles O58: each row by its operation's equation in its case. -/
theorem powerAndTriggerRowsComplete : Obligations.PowerAndTriggerRowsComplete := by
  unfold Obligations.PowerAndTriggerRowsComplete
  refine fun s => ⟨fun runs => ⟨fun a entering asking => ?_, fun a entering later next => ?_,
      fun p small entering third draining waiting others => ?_, fun doze => ?_⟩,
    fun u live mains awake plain armed reached => ?trigger, fun live mains calm sleep => ⟨fun k u up enabled encoder unit pin => ?_,
      fun addr up enabled own => ?_⟩, fun live mains some_ left => ?_, fun addr own mains live awake hold idle => ?off⟩
  · exact .of_withDev runs rfl ((Dev.opAgentTimeout_of_asking entering asking).trans (s.dev.refuseEntry_of_timeout (a + 1)))
  · exact ⟨_, .of_withDev runs rfl ((Dev.opAgentTimeout_of_later entering later).trans (if_pos next)), Dev.abortEntry_ended ..⟩
  · exact ⟨_, .of_withDev runs rfl ((Dev.opDrainAbort_of_one entering third small others).trans
      (Dev.drainEnd_of_waiting draining waiting)), (Dev.portDraining_drainCut small).1, Dev.portAlive_drainCut small⟩
  · exact ⟨_, .of_withDev runs rfl (Dev.dozeExit_of_doze doze), Dev.rdF_wrF_same _ _ _ _ _ (by decide),
      fun a other => Dev.rd_wr_ne _ _ other⟩
  case trigger =>
    have fires : s.dev.opTrigger u = s.dev.fireUnit u := by
      refine (Dev.opTrigger_of_due ⟨armed, reached⟩ ?_).trans (if_neg (ne_true_of_eq_false plain))
      rintro (off | stuck | failing | asleep)
      · omega
      · exact ne_true_of_eq_false live stuck
      · exact ne_true_of_eq_false mains failing
      · omega
    exact ⟨fun done => .of_always rfl (fires.trans ((Dev.fireUnit_of_due armed reached).trans (if_pos done))),
      fun more => .of_always rfl (fires.trans ((Dev.fireUnit_of_due armed reached).trans (if_neg more)))⟩
  · have seen : ¬s.dev.WakeBlind k u := by
      rintro (⟨second, none_⟩ | ⟨third, plain⟩ | ⟨fifth, low⟩ | masked | stuck | failing)
      · obtain ⟨c, small, on⟩ := encoder second
        exact ne_false_of_eq_true on (none_ c small)
      · exact ne_false_of_eq_true (unit third) plain
      · exact ne_true_of_eq_false (pin fifth) low
      · exact ne_false_of_eq_true enabled masked
      · exact ne_true_of_eq_false live stuck
      · exact ne_true_of_eq_false mains failing
    exact .of_always rfl ((Dev.opWake_of_seen seen).trans (Dev.wakeEvent_of_light_sleep enabled calm sleep))
  · exact .of_always rfl ((Dev.opShelfWake_of_own own live mains).trans (Dev.wakeEvent_of_light_sleep enabled calm sleep))
  · refine .of_always rfl ((Dev.opWindow_of_due (by simp [some_, live, mains])).trans (if_neg ?_))
    exact fun none_ => left (List.map_eq_nil_iff.1 (List.isEmpty_iff.1 none_))
  case off =>
    have hears : ¬s.dev.ShelfDeaf addr.toNat := by
      rintro (other | off | failing)
      · exact other own
      · omega
      · exact ne_true_of_eq_false mains failing
    have awake' : ¬s.dev.Asleep := fun asleep => by have := asleep.1; omega
    obtain ⟨entry, target, shelf, -⟩ := s.dev.enter_shown 5 true
    exact ⟨_, .of_always rfl (Dev.opShelfOff_of_hold hears awake' ⟨hold, idle, awake, live⟩), entry, target, shelf,
      by simp [Dev.enter, Dev.setEntry]⟩

end Sys2Proof.Machine
end

section
/-!
PROOFS. The safety partition reacts: permit tests, diagnostics, monitors and proposed sets (R445-R464).
-/

namespace Sys2Proof.Machine

namespace Dev

section
variable {d : Dev}

/-! ## Permit tests and diagnostics (R448, R457) -/

section
variable {k : Nat}

/-- A channel that is on may be tested beside a pulsing partner, or every hour without a job. -/
abbrev MayTest (d : Dev) (k : Nat) : Prop :=
  d.bit Reg.SAFE_STATUS k = true ∧ d.bit Reg.SAFE_STATUS 3 = false ∧
    (d.bit Reg.SAFE_STATUS 8 = true ∨ d.anyActive = false ∧ 1 < d.rd Reg.SAFE_PT_AGE)

theorem mayTest_iff : (d.bit Reg.SAFE_STATUS k && !d.bit Reg.SAFE_STATUS 3 &&
    (d.bit Reg.SAFE_STATUS 8 || (!d.anyActive && decide (1 < d.rd Reg.SAFE_PT_AGE)))) = true ↔ d.MayTest k := by
  simp [MayTest, and_assoc]

theorem opPermitTest_of_barred {ok : Bool} (barred : ¬d.MayTest k) : d.opPermitTest k ok = d := if_neg (mt mayTest_iff.1 barred)

theorem opPermitTest_of_may {ok : Bool} (may : d.MayTest k) :
    let d1 := d.send (.pin "FIRE_PERMIT" (k + 1) 0)
    d.opPermitTest k ok = if ok = true then
      ({ d1 with safe := { d1.safe with tested := mapSet 0 d1.safe.tested k d1.tc } } : Dev).send (.pin "FIRE_PERMIT" (k + 1) 1)
      else d1.outputFault k := if_pos (mayTest_iff.2 may)

end

/-- A diagnostic enters the safe state, unless it is entered already (R457). -/
theorem safeEnter_eq (d : Dev) (bit : Nat) :
    let d1 := d.wrBit Reg.SAFE_FAULT bit true
    let d2 := (d1.setPermit false).wrF Reg.SAFE_BAR_INHIBIT 8 8 0xFF
    let d3 := ((d2.wrBit Reg.SAFE_STATUS 3 true).bump Reg.SAFE_DIAG_COUNT).append 3 .safeState (vals [bit])
    let d4 : Dev := { d3 with safe := { d3.safe with safeAt := some d3.tc, safeBit := bit, asked := false } }
    d.safeEnter bit = if d1.bit Reg.SAFE_STATUS 3 = true then d1 else d4.resign 2 1 := by
  unfold safeEnter
  rfl

/-! ## The web's speed (R451, R453) -/

section
variable {edges : Nat}

/-- The speed of the web and the trip speed, in mm/min. -/
def webSpeed (d : Dev) (edges : Nat) : Rat := ((edges * d.rd Reg.SAFE_SPD_SCALE * 60 : Nat) : Rat) / 16777216
def tripSpeed (d : Dev) : Rat := ((d.rd Reg.SAFE_SPEED_TRIP : Nat) : Rat)

/-- The speed is shown. -/
def speedShown (d : Dev) (edges : Nat) : Dev := d.wr Reg.SAFE_SPEED (satU 32 (pubI (d.webSpeed edges)).toNat)

/-- Since when the web has been below 95 % of the trip speed. -/
def slowSince (d : Dev) (edges : Nat) : Option Nat :=
  if d.webSpeed edges < d.tripSpeed * 95 / 100 then
    some ((d.speedShown edges).safe.slowFrom.getD (d.speedShown edges).tc) else none

/-- The speed is shown and followed. -/
def speedSampled (d : Dev) (edges : Nat) : Dev :=
  { d.speedShown edges with safe := { (d.speedShown edges).safe with slowFrom := d.slowSince edges } }

/-- SF2 trips, and the permits go off. -/
def speedTripped (d : Dev) (edges : Nat) : Dev :=
  ((((d.speedSampled edges).wrBit Reg.SAFE_STATUS 6 true).bump Reg.SAFE_TRIP_COUNT).append 3 .safeSpeedTrip
    (vals [(d.speedSampled edges).rd Reg.SAFE_SPEED])).setPermit false

/-- A trip ends once the web has been slow for 100 ms. -/
def tripEnds (d : Dev) (edges : Nat) : Dev :=
  match d.slowSince edges with
  | some t => if t + 40000000 ≤ (d.speedSampled edges).tc then (d.speedSampled edges).wrBit Reg.SAFE_STATUS 6 false else d.speedSampled edges
  | none => d.speedSampled edges

theorem opSpeed_eq (d : Dev) (edges : Nat) : d.opSpeed edges =
    if (d.speedSampled edges).bit Reg.SAFE_STATUS 6 = true then d.tripEnds edges
    else if d.tripSpeed < d.webSpeed edges then
      if (d.speedTripped edges).bit Reg.SAFE_STATUS 2 = true then d.speedTripped edges
      else ((d.speedTripped edges).wrBit Reg.SAFE_STATUS 2 true).append 3 .safeInhibit (vals [2])
    else d.speedSampled edges := by
  have since : (if decide (d.webSpeed edges < d.tripSpeed * 95 / 100) = true then
      (match (d.speedShown edges).safe.slowFrom with | some t => some t | none => some (d.speedShown edges).tc) else none) =
      d.slowSince edges := by
    unfold slowSince
    cases (d.speedShown edges).safe.slowFrom <;> simp
  unfold tripEnds speedTripped speedSampled
  rw [← since]
  rfl

end

/-! ## Heads that stay too hot (R454) -/

section
variable {b loc : Nat} {ts : List Int} {rest : List (Nat × List Int × Nat)}

section
variable (d b ts loc)

/-- The head's report lies above the stop temperature by more than 1 K. -/
def hotIn (h : Nat) : Bool := decide (d.tStop + 32 ≤ ts.getD h 0)

/-- A head that is too hot for the second time, that nothing has stopped. -/
abbrev Overheats : Prop := ∃ h ∈ bitsOf 24 (d.present b), d.hotIn ts h = true ∧ mapGet false d.safe.hot (24 * b + h) = true ∧
  d.bit (Reg.FIRE_BAR_STOPPED b) h = false ∧ bitOf loc h = false

/-- The report is taken, with the calm reports counted. -/
def reportTaken (rest : List (Nat × List Int × Nat)) (calm : Nat) : Dev :=
  { d with safe := { d.safe with
    copies := rest
    hot := (List.range 24).foldl (fun m h => mapSet false m (24 * b + h) ((bitsOf 24 (d.present b)).contains h && d.hotIn ts h)) d.safe.hot
    calm := mapSet 0 d.safe.calm b calm } }

end

theorem overheats_iff : (bitsOf 24 (d.present b)).any (fun h => d.hotIn ts h && mapGet false d.safe.hot (24 * b + h) &&
    !d.bit (Reg.FIRE_BAR_STOPPED b) h && !bitOf loc h) = true ↔ d.Overheats b loc ts := by
  simp [Overheats, List.any_eq_true, and_assoc]

theorem opOverTemp_of_none (none_ : d.safe.copies = []) : d.opOverTemp = d := by simp only [opOverTemp, none_]

theorem opOverTemp_of_overheats (front : d.safe.copies = (b, ts, loc) :: rest) (hot : d.Overheats b loc ts) :
    d.opOverTemp = if (d.reportTaken b ts rest 0).bit Reg.SAFE_BAR_INHIBIT b = true then d.reportTaken b ts rest 0
      else ((d.reportTaken b ts rest 0).wrBit Reg.SAFE_BAR_INHIBIT b true).append 3 .safeBarInhibit (vals [b]) := by
  have failed := overheats_iff.2 hot
  unfold hotIn at failed
  simp only [opOverTemp, front, failed, if_true]
  rfl

theorem opOverTemp_of_calm (front : d.safe.copies = (b, ts, loc) :: rest) (calm : ¬d.Overheats b loc ts) :
    let n := mapGet 0 d.safe.calm b + 1
    d.opOverTemp = if 8 ≤ n then (d.reportTaken b ts rest n).wrBit Reg.SAFE_BAR_INHIBIT b false else d.reportTaken b ts rest n := by
  have passed := Bool.eq_false_iff.2 (mt overheats_iff.1 calm)
  unfold hotIn at passed
  simp only [opOverTemp, front, passed, Bool.false_eq_true, if_false]
  rfl

end

/-! ## Proposed sets (R462-R464) -/

section
variable {o : Out} {b : List Byte}

/-- Both CRCs of a proposal hold. -/
abbrev ProposalCrc (o : Out) (b : List Byte) : Prop := crc32c b = numAt o.entry 12 4 ∧ crc32c (b.take 124) = numAt b 124 4

theorem proposeSet_of_bad_crc (bad : ¬ProposalCrc o b) : Dev.proposeSet o d b = d.refuseSet o SAFE_CRC :=
  if_pos (not_and_or.1 bad)

/-- The checks after the CRCs. -/
theorem proposeSet_of_crc (good : ProposalCrc o b) : Dev.proposeSet o d b =
    if d.bit Reg.SAFE_INPUTS 2 = false then d.refuseSet o SAFE_KEY_OPEN
    else if setRanges b = false then d.refuseSet o SAFE_REJECTED
    else match d.keyedSet b with
      | none => d.refuseSet o SAFE_REJECTED
      | some set =>
        let d1 := ((d.storeSet set).2.setInForce (d.storeSet set).1 set).safeMailbox OK
        d1.complete o OK (d1.rd Reg.SAFE_SET_CRC) [] :=
  if_neg (by simp [good.1, good.2])

section
variable (good : ProposalCrc o b)
include good

theorem proposeSet_of_open (opened : d.bit Reg.SAFE_INPUTS 2 = false) : Dev.proposeSet o d b = d.refuseSet o SAFE_KEY_OPEN :=
  (proposeSet_of_crc good).trans (if_pos opened)

variable (closed : d.bit Reg.SAFE_INPUTS 2 = true)
include closed

theorem proposeSet_of_rejected (rejected : setRanges b = false ∨ d.keyedSet b = none) :
    Dev.proposeSet o d b = d.refuseSet o SAFE_REJECTED := by
  rw [proposeSet_of_crc good, if_neg (ne_false_of_eq_true closed)]
  rcases rejected with range | key
  · exact if_pos range
  · simp only [key, ite_self]

theorem proposeSet_of_good {set : List Byte} (ranges : setRanges b = true) (keyed : d.keyedSet b = some set) :
    let d1 := ((d.storeSet set).2.setInForce (d.storeSet set).1 set).safeMailbox OK
    Dev.proposeSet o d b = d1.complete o OK (d1.rd Reg.SAFE_SET_CRC) [] := by
  rw [proposeSet_of_crc good, if_neg (ne_false_of_eq_true closed), if_neg (ne_false_of_eq_true ranges), keyed]

end

variable {dma : Dma} {els : List (Nat × Nat)} (hbuf : (d.wrBit Reg.SAFE_MBOX_STAT 16 false).buffer o.entry dma = .ok els)
include hbuf

theorem proposeBody_of_silent : Dev.proposeBody dma false d o = (d.wrBit Reg.SAFE_MBOX_STAT 16 false).complete o SAFE_TIMEOUT 0 [] := by
  simp [proposeBody, hbuf]

theorem proposeBody_of_short (short : bufTotal els ≠ 128) :
    Dev.proposeBody dma true d o = (d.wrBit Reg.SAFE_MBOX_STAT 16 false).refuseSet o OUT_OF_RANGE := by
  simp [proposeBody, hbuf, short]

theorem proposeBody_of_fit (fits : bufTotal els = 128) (herr : dataErr dma = none) :
    Dev.proposeBody dma true d o = Dev.proposeSet o (d.wrBit Reg.SAFE_MBOX_STAT 16 false) (dmaBytes dma (bufTotal els)) := by
  have checked : Dev.proposeBody dma true d o = (d.wrBit Reg.SAFE_MBOX_STAT 16 false).dmaIn o dma (fun _ => none) (Dev.proposeSet o) := by
    simp [proposeBody, hbuf, fits]
  exact checked.trans (dmaIn_of_ok hbuf rfl herr _)

end

end

end Dev

/-- A row that finds a diagnostic latches its fault, and enters the safe state if it is not entered already. -/
theorem Does.safeEnter {c : Instr} {s : State} {x : Dev} {bit : Nat} (runs : s.dev.halted = false)
    (row : exec c s = s.withDev (x.safeEnter bit)) :
    let d1 := x.wrBit Reg.SAFE_FAULT bit true
    let d2 := (d1.setPermit false).wrF Reg.SAFE_BAR_INHIBIT 8 8 0xFF
    let d3 := ((d2.wrBit Reg.SAFE_STATUS 3 true).bump Reg.SAFE_DIAG_COUNT).append 3 .safeState (vals [bit])
    let d4 : Dev := { d3 with safe := { d3.safe with safeAt := some d3.tc, safeBit := bit, asked := false } }
    (d1.bit Reg.SAFE_STATUS 3 = true → Does c s d1) ∧ (d1.bit Reg.SAFE_STATUS 3 = false → Does c s (d4.resign 2 1)) :=
  ⟨fun already => .of_withDev runs row ((x.safeEnter_eq bit).trans (if_pos already)),
    fun first => .of_withDev runs row ((x.safeEnter_eq bit).trans (if_neg (ne_true_of_eq_false first)))⟩

/-- Settles O50: each row by the cases of its operation. -/
theorem theSafetyPartitionReacts : Obligations.TheSafetyPartitionReacts := by
  unfold Obligations.TheSafetyPartitionReacts
  refine ⟨⟨fun s in1 in2 key rb1 rb2 runs => .of_withDev runs rfl rfl, fun s k runs => ?test, fun s cause runs => ?state⟩,
    fun s runs => ⟨fun edges => ?speed, fun none_ => ?_, fun b ts loc rest front => ?hot, fun found => .of_withDev runs rfl rfl⟩,
    fun s q dma o d0 els starts hbuf herr => ?propose⟩
  case test =>
    exact ⟨fun barred ok => .of_withDev runs rfl (Dev.opPermitTest_of_barred barred),
      fun may => .of_withDev runs rfl (Dev.opPermitTest_of_may may),
      fun may => .of_withDev runs rfl (Dev.opPermitTest_of_may may)⟩
  case state =>
    exact Does.safeEnter runs rfl
  case speed =>
    refine ⟨fun tripped t since late => ?_, fun tripped t since early => ?_, fun tripped fast => ?_, fun calm slow => ?_,
      fun calm fast => ?_⟩ <;> refine .of_withDev runs rfl ((s.dev.opSpeed_eq edges).trans ?_)
    · exact (if_pos tripped).trans (by simp only [Dev.tripEnds, show s.dev.slowSince edges = some t from since]; exact if_pos late)
    · exact (if_pos tripped).trans
        (by simp only [Dev.tripEnds, show s.dev.slowSince edges = some t from since]; exact if_neg (Nat.not_le.2 early))
    · exact (if_pos tripped).trans (by simp only [Dev.tripEnds, show s.dev.slowSince edges = none from fast]; rfl)
    · exact (if_neg (ne_true_of_eq_false calm)).trans (if_neg (not_lt.2 slow))
    · exact (if_neg (ne_true_of_eq_false calm)).trans (if_pos fast)
  · exact .of_withDev runs rfl (Dev.opOverTemp_of_none none_)
  case hot =>
    exact ⟨fun hot off => .of_withDev runs rfl ((Dev.opOverTemp_of_overheats front hot).trans (if_pos off)),
      fun hot on => .of_withDev runs rfl ((Dev.opOverTemp_of_overheats front hot).trans (if_neg (ne_true_of_eq_false on))),
      fun calm long => .of_withDev runs rfl ((Dev.opOverTemp_of_calm front calm).trans (if_pos long)),
      fun calm short => .of_withDev runs rfl ((Dev.opOverTemp_of_calm front calm).trans (if_neg (Nat.not_le.2 short)))⟩
  case propose =>
    refine ⟨.of_runCmd starts rfl (Dev.proposeBody_of_silent hbuf), fun short => .of_runCmd starts rfl (Dev.proposeBody_of_short hbuf short),
      fun fits bad => ?_, fun fits good opened => ?_, fun fits good closed rejected => ?_, fun set fits good closed ranges keyed => ?_⟩ <;>
      refine .of_runCmd starts rfl ((Dev.proposeBody_of_fit hbuf fits herr).trans ?_)
    · exact Dev.proposeSet_of_bad_crc bad
    · exact Dev.proposeSet_of_open good opened
    · exact Dev.proposeSet_of_rejected good closed rejected
    · exact Dev.proposeSet_of_good good closed ranges keyed

end Sys2Proof.Machine
end

section
/-!
PROOFS. The rows of the redundant pair complete (R38, R421-R438).
-/

namespace Sys2Proof.Machine

namespace Dev

section
variable {d : Dev} {body : List Byte}

/-! ## HELLO and HEARTBEAT (R421, R422) -/

/-- A HELLO that echoes nothing is noted, and the pair cannot form by it. -/
theorem helloFrame_of_first (first : numAt body 24 8 = 0) :
    let p : PairSt := { d.pair with
      helloIn := true, echo := numAt body 16 8, echoAt := d.tc, partnerHold := bitOf (byteAt body 1) 1 }
    d.helloFrame body =
      (({ d with pair := p } : Dev).wrF Reg.PAIR_PIPE_COMPAT 16 16 (numAt body 2 2)).seeEpoch (numAt body 8 4) := by
  unfold helloFrame
  simp only [first, if_true, bne_self_eq_false, Bool.or_false]

/-- A heartbeat that repeats the last one shows that the partner lives. -/
theorem hbFrame_of_repeat {epoch : Nat} (again : d.pair.hbLast = some (numAt body 8 8)) :
    d.hbFrame epoch body = (d.wrBit Reg.PAIR_STATUS 5 true).seeEpoch epoch := if_pos again

/-! ## COMMIT (R38, R426) -/

/-- Taking a LOOP frame changes what the pair keeps alone. -/
theorem popLoop_frame (d : Dev) (loop b : Nat) : ∃ p, (d.popLoop loop b).1 = { d with pair := p } := by
  unfold popLoop
  split
  · exact ⟨d.pair, rfl⟩
  · exact ⟨_, rfl⟩

/-- A screen set has no bank to build: at most its LOOP frame is taken. -/
theorem buildBank_of_screen {c : CommitRec} (screen : c.kind = 2) (b : Nat) : ∃ p, d.buildBank b c = { d with pair := p } := by
  have other : ∀ o, ¬(c.kind = 1 ∧ c.origin = o) ∧ ¬(c.kind = 4 ∧ c.origin = o) := fun o => by omega
  unfold buildBank
  dsimp only
  rw [if_neg (other 2).1, if_neg (other 2).2, if_neg (other 1).2]
  split
  · exact d.popLoop_frame 1 b
  · exact ⟨d.pair, rfl⟩

theorem foldl_buildBank_of_screen {c : CommitRec} (screen : c.kind = 2) (bars : List Nat) :
    ∃ p, bars.foldl (fun x b => x.buildBank b c) d = { d with pair := p } := by
  refine List.foldlRecOn (motive := fun x : Dev => ∃ p, x = { d with pair := p }) _ _ ⟨d.pair, rfl⟩ ?_
  rintro _ ⟨p, rfl⟩ b -
  exact buildBank_of_screen screen b

theorem shank_job (d : Dev) (kind : Nat) (bs : List Byte) : (d.shank kind bs).job = d.job := by
  obtain ⟨t, p, e⟩ := d.shank_frame kind bs
  rw [e]

/-- Falling out of step leaves the jobs and their records alone (R437). -/
theorem outOfStep_job (d : Dev) (cause : Nat) : (d.outOfStep cause).job = d.job := by
  unfold outOfStep
  extract_lets d1 d2
  have kept : d2.job = d.job := (d1.event_touches 2 .pairOutOfStep _).fields.2.2.1
  split
  · split
    · exact (shank_job _ _ _).trans kept
    · exact kept
  · rfl

/-- A record of a screen set that comes in time is admitted; at most its bank puts the module out of step. -/
theorem commitFrame_of_screen (standby : d.role = 2) (screen : (commitOf (body.take 32)).kind = 2)
    (job : (commitOf (body.take 32)).job ≠ 0)
    (timely : ∀ b ∈ d.commitBars (commitOf (body.take 32)),
      d.begun (commitOf (body.take 32)).job b ≤ (commitOf (body.take 32)).line) :
    ∃ p, (d.commitFrame body).job = (({ d with pair := p } : Dev).enqueueCommit (commitOf (body.take 32))).job := by
  obtain ⟨p, built⟩ := foldl_buildBank_of_screen (d := d) screen (d.commitBars (commitOf (body.take 32)))
  have late : (d.commitBars (commitOf (body.take 32))).any (fun b =>
      decide ((commitOf (body.take 32)).line < d.begun (commitOf (body.take 32)).job b)) = false :=
    List.any_eq_false.2 fun b hb => by simpa using timely b hb
  refine ⟨p, ?_⟩
  unfold commitFrame
  rw [if_neg (not_not.2 standby)]
  simp only [if_neg job, built, late, Bool.false_eq_true, if_false]
  split
  · exact outOfStep_job _ _
  · rfl

/-! ## DECISION, LINE_CRC and CMD (R424, R426, R428) -/

/-- SKIP, SUPPRESS and RESUME_FIRING wait for the token of their line. -/
theorem decisionFrame_of_line (standby : d.role = 2) (bar : byteAt body 8 < 8) (low : 1 ≤ byteAt body 10) (high : byteAt body 10 ≤ 3)
    (timely : (d.bf (byteAt body 8)).next ≤ numAt body 0 8) : d.decisionFrame body = { d with pair := { d.pair with
      decisions := d.pair.decisions ++
        [⟨numAt body 0 8, byteAt body 8, byteAt body 9, byteAt body 10, byteAt body 11, numAt body 12 4⟩] } } := by
  have kind : byteAt body 10 = 1 ∨ byteAt body 10 = 2 ∨ byteAt body 10 = 3 := by omega
  have loose : ¬(byteAt body 10 = 4 ∨ byteAt body 10 = 5) := by omega
  have inTime : ¬(byteAt body 10 ≤ 7 ∧ numAt body 0 8 < (d.bf (byteAt body 8)).next) := by omega
  unfold decisionFrame
  dsimp only
  rw [if_neg (by omega), if_neg loose, if_pos kind, if_neg (by simpa using inTime)]

/-- Without digests of its own for a bar the module keeps the partner's. -/
theorem compareLines_of_no_own {b : Nat} (none_ : mapGet [] d.pair.own b = []) :
    mapGet [] (d.compareLines b).pair.theirs b = mapGet [] d.pair.theirs b ∧ (d.compareLines b).regs = d.regs := by
  unfold compareLines
  simp only [none_, List.filterMap_nil, List.foldl_nil, List.any_nil, Bool.not_false, List.filter_true, mapGet_mapSet_same, and_self]

theorem cmdFrame_of_new (standby : d.role = 2) (new : ∀ w ∈ d.pair.waits, w.key ≠ numAt body 0 8) :
    d.cmdFrame body = d.keepCmdFrame ⟨numAt body 0 8, numAt body 8 4, numAt body 12 2, numAt body 16 4⟩ := by
  have none_ : d.pair.waits.find? (fun w => w.key == numAt body 0 8) = none :=
    List.find?_eq_none.2 fun w hw => by simpa using new w hw
  unfold cmdFrame
  dsimp only
  rw [if_neg (by omega), if_neg (by omega), none_]

/-! ## Mismatches and takeback (R430, R436) -/

/-- A mismatch that is the ACTIVE's fault as well as the partner's ends with no more. -/
theorem resolveMismatch_of_both {m : Mismatch} (active : d.role = 1) (own : m.own = true) :
    d.resolveMismatch m true = { d with pair := { d.pair with mismatch := none } } := by
  have active' : ({ d with pair := { d.pair with mismatch := none } } : Dev).role = 1 := active
  unfold resolveMismatch
  simp [active, active', own]

/-- A fault of the ACTIVE's own, out of step with its partner, ends with no more. -/
theorem resolveMismatch_of_apart {m : Mismatch} {other : Bool} (active : d.role = 1) (own : m.own = true) (apart : m.inStep = false) :
    d.resolveMismatch m other = { d with pair := { d.pair with mismatch := none } } := by
  have active' : ({ d with pair := { d.pair with mismatch := none } } : Dev).role = 1 := active
  unfold resolveMismatch
  simp [active, active', own, apart]

/-- A fault of the ACTIVE's own alone makes it resign to a partner in step. -/
theorem resolveMismatch_of_own {m : Mismatch} (active : d.role = 1) (own : m.own = true) (step : m.inStep = true) :
    d.resolveMismatch m false = ({ d with pair := { d.pair with mismatch := none } } : Dev).resign 3 1 := by
  have active' : ({ d with pair := { d.pair with mismatch := none } } : Dev).role = 1 := active
  unfold resolveMismatch
  simp [active, active', own, step]

/-- A takeback is granted at once while no job is active. -/
theorem tryTakeback_of_idle (asked : d.pair.takeback = true) (active : d.role = 1) (free : d.takeoverPending = false)
    (idle : d.anyActive = false) :
    d.tryTakeback = ({ d with pair := { d.pair with takeback := false } } : Dev).resign 1 d.partnerStep :=
  (if_pos (by simp [asked, active, free])).trans (if_pos idle)

/-! ## STATE (R438) -/

/-- A part of an item is kept for the parts to come. -/
theorem stateFrame_of_more (standby : d.role = 2) (syncing : d.stepState = 2) :
    let key := byteAt body 0 * 256 + byteAt body 1 % 8
    d.stateFrame true body = { d with pair := { d.pair with
      stateIn := mapSet [] d.pair.stateIn key ((mapGet [] d.pair.stateIn key).take (numAt body 4 4) ++ body.drop 8) } } :=
  (if_neg (by omega)).trans (if_pos rfl)

/-! ## What is sent, and the loss of the partner (R421, R432) -/

theorem shank_of_short {kind : Nat} (up : d.shankUp = true) (short : body.length ≤ 4096) :
    d.shank kind body = d.shankOne kind 0 body := (if_pos up).trans (if_pos short)

/-- The loss of the partner shows in its registers, and leaves the role. -/
theorem partnerLost_shown (d : Dev) : d.partnerLost.partnerAlive = false ∧ d.partnerLost.formed = false ∧
    d.partnerLost.pair.hbLast = none ∧ d.partnerLost.pair.helloIn = false ∧ d.partnerLost.role = d.role := by
  obtain ⟨x, e, pair, status⟩ : ∃ x : Dev, d.partnerLost = x.event 2 .pairLoss (vals [x.rd Reg.PAIR_EPOCH]) ∧
      (x.pair.hbLast = none ∧ x.pair.helloIn = false) ∧
      x.rd Reg.PAIR_STATUS = ((d.wrBit Reg.PAIR_STATUS 5 false).wrBit Reg.PAIR_STATUS 4 false).rd Reg.PAIR_STATUS :=
    ⟨_, rfl, ⟨rfl, rfl⟩, rd_wr_ne _ _ (by decide)⟩
  have touched := x.event_touches 2 .pairLoss (vals [x.rd Reg.PAIR_EPOCH])
  have shown : d.partnerLost.rd Reg.PAIR_STATUS = ((d.wrBit Reg.PAIR_STATUS 5 false).wrBit Reg.PAIR_STATUS 4 false).rd Reg.PAIR_STATUS :=
    (e ▸ touched.2 _ (by unfold logReg pbaReg; decide)).trans status
  have samePair : d.partnerLost.pair = x.pair := e ▸ touched.fields.2.2.2.2.2.2.2.1
  refine ⟨?_, ?_, samePair ▸ pair.1, samePair ▸ pair.2, ?_⟩
  · unfold partnerAlive bit
    rw [shown]
    exact (bit_wrBit_other _ _ _ _ (by decide) (by decide)).trans (bit_wrBit_same _ _ _ _ (by decide))
  · unfold formed bit
    rw [shown]
    exact bit_wrBit_same _ _ _ _ (by decide)
  · unfold role rdF
    rw [shown]
    exact (rdF_wrF_other _ _ _ _ _ (by decide) (by decide)).trans (rdF_wrF_other _ _ _ _ _ (by decide) (by decide))

end

end Dev

/-- Settles O60: a frame by what its body does in its case, a timer by its operation's equation. -/
theorem pairRowsComplete : Obligations.PairRowsComplete := by
  unfold Obligations.PairRowsComplete
  refine ⟨fun s f body d runs => ?frames, fun s runs => ?timers⟩
  case frames =>
    have taken {c : Instr} {kind : Nat} {x : Dev} (row : exec c s = s.withDev (s.dev.shankRx f))
        (named : kind ≠ 0 ∧ kind ≤ 0xD ∧ kind ≠ 2 ∧ kind ≠ 9) (heard : s.dev.Shank kind f d body)
        (effect : Dev.shankBody kind d body = x) : Does c s x := Does.of_Shank heard runs named row effect
    refine ⟨fun h first => taken rfl (by decide) h (Dev.helloFrame_of_first first), fun h again => ?beat,
      fun h standby screen job timely => ?commit,
      fun h standby bar low high timely => taken rfl (by decide) h (Dev.decisionFrame_of_line standby bar low high timely),
      fun h standby => ⟨_, taken rfl (by decide) h (Dev.loopFrame_of_standby standby), rfl, rfl⟩,
      fun h standby bar settled own theirs => ?digests,
      fun h standby new => ⟨_, taken rfl (by decide) h (Dev.cmdFrame_of_new standby new), rfl, rfl⟩,
      fun h standby unknown => ?job,
      fun h standby able => taken rfl (by decide) h (Dev.resignFrame_of_standby standby able),
      fun h m active met own other => ?diag, fun h active asked free idle => ?sync,
      fun h standby pending => taken rfl (by decide) h (Dev.releasedFrame_of_due ⟨standby, .inl pending⟩),
      fun h counts standby syncing more => ?state⟩
    case beat =>
      exact ⟨_, .of_withDev runs rfl ((Dev.shankRx_heartbeat h).trans (Dev.hbFrame_of_repeat again)),
        (congrArg (bitOf · 5) (Dev.rd_wr_ne (a := Reg.PAIR_EPOCH_MAX) (b := Reg.PAIR_STATUS) _ _ (by decide))).trans
          (Dev.bit_wrBit_same _ Reg.PAIR_STATUS 5 true (by decide)), by simp [Dev.seeEpoch], by simp [Dev.seeEpoch]⟩
    case commit =>
      obtain ⟨p, admitted⟩ := Dev.commitFrame_of_screen standby screen job timely
      obtain ⟨m, js, e⟩ := ({ d with pair := p } : Dev).enqueueCommit_frame (commitOf (body.take 32))
      rw [e] at admitted
      exact ⟨_, taken rfl (by decide) h rfl, congrArg JobSt.commits admitted, congrArg JobSt.commitSeq admitted⟩
    case digests =>
      obtain ⟨kept, regs⟩ := Dev.compareLines_of_no_own (b := byteAt body 8) (d := { d with pair := { d.pair with
        theirs := mapSet [] d.pair.theirs (byteAt body 8) (mapGet [] d.pair.theirs (byteAt body 8) ++
          (List.range 16).map (fun i => (numAt body 0 8 + i, numAt body (16 + 4 * i) 4))) } }) own
      exact ⟨_, taken rfl (by decide) h (Dev.crcFrame_of_mine ⟨standby, bar, settled⟩),
        kept.trans ((mapGet_mapSet_same _ _ _ _).trans (by rw [theirs, List.nil_append])), regs⟩
    case job =>
      exact ⟨_, taken rfl (by decide) h ((Dev.jobFrame_of_standby standby).trans (if_neg (by simp [unknown]))), rfl, rfl⟩
    case diag =>
      refine taken rfl (by decide) h ((Dev.diagFrame_of_mismatch (by omega) met).trans ?_)
      rw [other]
      exact Dev.resolveMismatch_of_both active own
    case sync =>
      exact taken rfl (by decide) h ((Dev.syncFrame_of_active active).trans ((if_neg (by omega)).trans ((if_pos asked).trans
        (Dev.tryTakeback_of_idle rfl active free idle))))
    case state =>
      refine .of_withDev runs rfl ((Dev.shankRx_state h counts).trans ?_)
      rw [more]
      exact Dev.stateFrame_of_more standby syncing
  case timers =>
    refine ⟨fun pair up => ?hello, fun pair up => ?_, fun alive single => ?loss, fun key o dg start keyed => ?_,
      fun m met active own => ⟨fun apart => ?_, fun step none_ => ?_⟩⟩
    case hello =>
      exact ⟨_, _, .of_withDev runs rfl ((Dev.opHelloSend_of_pair pair).trans (Dev.shank_of_short up (by simp))), rfl, fun _ => rfl⟩
    · obtain ⟨number, shown, -⟩ := Dev.opHeartbeatSend_of_up pair up
      exact ⟨_, .of_withDev runs rfl rfl, number, shown⟩
    case loss =>
      obtain ⟨gone, apart, last, hello, role⟩ := s.dev.partnerLost_shown
      refine ⟨_, .of_withDev runs rfl ((Dev.opPairLoss_of_alive rfl alive).trans ((if_neg ?_).trans (if_neg ?_))), gone, apart, last, hello⟩ <;>
        omega
    · exact .of_withDev runs rfl ((Dev.opMatchTimeout_of_start start).trans (if_pos (by rw [keyed]; rfl)))
    · exact .of_withDev runs rfl ((Dev.opResolveTimeout_of_mismatch met).trans (Dev.resolveMismatch_of_apart active own apart))
    · refine .of_withDev runs rfl ((Dev.opResolveTimeout_of_mismatch met).trans ?_)
      rw [none_]
      exact Dev.resolveMismatch_of_own active own step

end Sys2Proof.Machine
end

section
/-!
PROOFS. The rows of links, lanes and eye scans complete (R281-R301, R326-R330, R491).
-/

namespace Sys2Proof.Machine

namespace Dev

section
variable {d : Dev} {b : Nat}

/-! ## A port and its frames (R283) -/

theorem ls_setLs_same (d : Dev) (b : Nat) (x : LaceSt) : (d.setLs b x).ls b = x := mapGet_mapSet_same _ _ _ _

theorem ls_setLs_ne (d : Dev) (x : LaceSt) {b k : Nat} (h : k ≠ b) : (d.setLs b x).ls k = d.ls k := mapGet_mapSet_ne _ _ _ h

/-- Registers are none of a port's own. -/
theorem ls_wr (d : Dev) (a v b : Nat) : (d.wr a v).ls b = d.ls b := by
  unfold ls
  rw [wr_lace]

theorem ls_wrF (d : Dev) (a lo n v b : Nat) : (d.wrF a lo n v).ls b = d.ls b := d.ls_wr _ _ _

theorem ls_wrBit (d : Dev) (a i : Nat) (x : Bool) (b : Nat) : (d.wrBit a i x).ls b = d.ls b := d.ls_wr _ _ _

theorem ls_setPortState (d : Dev) (b v k : Nat) : (d.setPortState b v).ls k = d.ls k := d.ls_wr _ _ _

/-- A frame sent counts SEQ of its port, and no more of the port changes (R283). -/
theorem laceSend_ls (d : Dev) (b type kind : Nat) (body : List Byte) :
    ∃ n, (d.laceSend b type kind body).ls b = { d.ls b with txSeq := n } := by
  unfold laceSend
  split
  · exact ⟨(d.ls b).txSeq, rfl⟩
  · exact ⟨_, ls_setLs_same _ _ _⟩

/-- A frame sent writes no register. -/
theorem laceSend_regs (d : Dev) (b type kind : Nat) (body : List Byte) : (d.laceSend b type kind body).regs = d.regs := by
  unfold laceSend
  split <;> rfl

theorem rd_laceSend (d : Dev) (b type kind : Nat) (body : List Byte) (a : Nat) : (d.laceSend b type kind body).rd a = d.rd a :=
  congrArg (fun m : NMap Word => (mapGet 0 m a).toNat) (d.laceSend_regs b type kind body)

theorem portState_laceSend (d : Dev) (b type kind : Nat) (body : List Byte) (k : Nat) :
    (d.laceSend b type kind body).portState k = d.portState k := congrArg (fld · 0 4) (d.rd_laceSend b type kind body _)

theorem portState_setPortState (d : Dev) (b : Nat) {v : Nat} (h : v < 16) : (d.setPortState b v).portState b = v :=
  (d.rdF_wrF_same _ 0 4 v (by decide)).trans (Nat.mod_eq_of_lt h)

/-- An ECHO carries the present of the counter, which the port keeps; it shows nowhere. -/
theorem sendEcho_shown (d : Dev) (b : Nat) : (∃ n, (d.sendEcho b).ls b = { d.ls b with echoSent := some d.tc, txSeq := n }) ∧
    ∀ a, (d.sendEcho b).rd a = d.rd a := by
  obtain ⟨n, e⟩ := (d.setLs b { d.ls b with echoSent := some d.tc }).laceSend_ls b 2 0x01 (leBytes 8 d.tc)
  refine ⟨⟨n, e.trans ?_⟩, fun a => (rd_laceSend _ _ _ _ _ a).trans rfl⟩
  rw [ls_setLs_same]

/-! ## Link-up (R289, R290) -/

/-- A link-up that starts stands in step 2 with its first ECHO sent, and without a session key. -/
theorem opLinkUp_shown (ready : d.LinkReady b) : (d.opLinkUp b).portState b = 2 ∧ ((d.opLinkUp b).ls b).echoSent = some d.tc ∧
    ((d.opLinkUp b).ls b).echoes = [] ∧ ((d.opLinkUp b).ls b).key = none := by
  rw [opLinkUp_of_ready ready]
  obtain ⟨⟨n, e⟩, shown⟩ := sendEcho_shown (((d.setLs b (freshPort (d.ls b))).setPortState b 2).wrF (Reg.LACE_STATUS b) 12 4 0) b
  have fresh : (((d.setLs b (freshPort (d.ls b))).setPortState b 2).wrF (Reg.LACE_STATUS b) 12 4 0).ls b = freshPort (d.ls b) := by
    rw [ls_wrF, ls_setPortState, ls_setLs_same]
  refine ⟨?_, by rw [e]; rfl, by rw [e, fresh]; rfl, by rw [e, fresh]; rfl⟩
  refine (congrArg (fld · 0 4) (shown _)).trans ?_
  exact (rdF_wrF_other _ _ _ _ _ (by decide) (by decide)).trans (portState_setPortState _ _ (by decide))

/-- A port whose session has ended. -/
def closedPort (x : LaceSt) : LaceSt :=
  { x with key := none, echoSent := none, chal := false, hmemReq := none, senseReq := none, senseWait := none }

theorem endSession_ls (d : Dev) (b : Nat) : (d.endSession b).ls b = closedPort (d.ls b) := ls_setLs_same _ _ _

/-- A link that fails once its loss has been logged goes down with no more (R290). -/
theorem linkFail_of_logged {step : Nat} (logged : (d.ls b).downLogged = true) :
    d.linkFail b step = (((d.endSession b).wrF (Reg.LACE_STATUS b) 0 4 0).wrF (Reg.LACE_STATUS b) 16 3 step) := by
  have closed : (((d.endSession b).setPortState b 0).wrF (Reg.LACE_STATUS b) 16 3 step).ls b = closedPort (d.ls b) := by
    rw [ls_wrF, ls_setPortState, endSession_ls]
  unfold linkFail
  dsimp only
  rw [if_pos (by rw [closed]; exact logged)]
  rfl

theorem inhibitToken_of_up (up : d.laceUp b = true) (free : d.localInhibit b = false) (lanes : d.upLanes b ≠ []) : d.inhibitToken b =
    d.send (.token b (d.upLanes b) (b2n (d.masterOn b) + 2) 0 0 (d.inhibitLine b % 0x100000000) (d.epochOn b) 0xFFFFFF) :=
  if_pos ⟨.inl up, free, lanes⟩

/-! ## The flood interval (R299) -/

/-- A port whose interval ends without a flood. -/
def calmPort (x : LaceSt) : LaceSt := { x with flooded := false, floodRun := 0 }

/-- The end of an interval at one port. -/
def floodEnd (d : Dev) (b : Nat) : Dev :=
  let x := d.ls b
  let n := if x.flooded = true then x.floodRun + 1 else 0
  let d1 := d.setLs b { x with flooded := false, floodRun := n }
  if 100 ≤ n then (d1.setLs b { d1.ls b with floodRun := 0 }).quarantine b 4 else d1

theorem floodEnd_of_calm (calm : (d.ls b).flooded = false) : d.floodEnd b = d.setLs b (calmPort (d.ls b)) := by
  unfold floodEnd calmPort
  simp only [calm, Bool.false_eq_true, if_false]
  rfl

/-- The ports below a number have ended a calm interval, and nothing else has changed. -/
structure CalmBelow (d : Dev) (n : Nat) (x : Dev) : Prop where
  regs : x.regs = d.regs
  tx : x.tx = d.tx
  done : ∀ b < n, x.ls b = calmPort (d.ls b)
  rest : ∀ b, n ≤ b → x.ls b = d.ls b

theorem foldl_floodEnd_of_calm (n : Nat) (calm : ∀ b < n, (d.ls b).flooded = false) :
    d.CalmBelow n ((List.range n).foldl floodEnd d) := by
  induction n with
  | zero => exact ⟨rfl, rfl, fun b h => absurd h (by omega), fun _ _ => rfl⟩
  | succ n ih =>
    obtain ⟨regs, tx, done, rest⟩ := ih fun b h => calm b (by omega)
    have here := rest n le_rfl
    rw [List.range_succ, List.foldl_append, List.foldl_cons, List.foldl_nil,
      floodEnd_of_calm (by rw [here]; exact calm n (by omega)), here]
    refine ⟨regs, tx, fun b h => ?_, fun b h => (ls_setLs_ne _ _ (by omega)).trans (rest b (by omega))⟩
    by_cases e : b = n
    · rw [e, ls_setLs_same]
    · exact (ls_setLs_ne _ _ e).trans (done b (by omega))

/-! ## The frames that carry link-up on (R286-R292) -/

section
variable {f : List Byte}

theorem echoReply_shown {t : Nat} (sent : (d.ls b).echoSent = some t) (step : d.portState b = 2) (mine : numAt f 0 8 = t % 2 ^ 64)
    (more : (d.ls b).echoes.length < 15) : ((d.echoReply b f).ls b).echoes = d.echoTimes b t f ∧
      ((d.echoReply b f).ls b).echoSent = some d.tc ∧ ∀ a, (d.echoReply b f).rd a = d.rd a := by
  have short : (d.echoTimes b t f).length < 16 := by simp [echoTimes]; omega
  rw [echoReply_of_answer sent step mine, if_pos short]
  obtain ⟨⟨n, e⟩, shown⟩ := (d.setLs b { d.ls b with echoes := d.echoTimes b t f, echoSent := none }).sendEcho_shown b
  rw [ls_setLs_same] at e
  exact ⟨by rw [e], by rw [e]; rfl, shown⟩

theorem authBody_shown (step : d.portState b = 3) (asked : (d.ls b).chal = true) (good : d.AuthGood b f) :
    (d.authBody b f).portState b = 4 ∧ ((d.authBody b f).ls b).key = some (d.sessionKey b f) ∧ ((d.authBody b f).ls b).chal = false := by
  classical
  rw [authBody_of_asked step asked, if_pos good]
  obtain ⟨n, e⟩ := (d.sessionBegun b f).laceSend_ls b 2 0x04 ((d.sessionBegun b f).setupBody b)
  obtain ⟨k, confirmed⟩ := ((d.nodeShown b f).setLs b { d.ls b with chal := false }).laceSend_ls b 2 0x03
    (aesCmac d.safe.ki (leBytes 1 0x4D ++ f.take 16 ++ (d.ls b).nm ++ leBytes 1 d.slot))
  have begun : (d.sessionBegun b f).ls b = { (d.authConfirmed b f).ls b with key := some (d.sessionKey b f) } := by
    rw [sessionBegun, ls_setPortState, ls_setLs_same]
  have chal : ((d.authConfirmed b f).ls b).chal = false := (congrArg LaceSt.chal confirmed).trans (by rw [ls_setLs_same])
  refine ⟨?_, by rw [e, begun], by rw [e, begun]; exact chal⟩
  exact (portState_laceSend _ _ _ _ _ _).trans (portState_setPortState _ _ (by decide))

/-- A bit below 24 is set. -/
theorem bitsOf_ne_nil {v : Nat} (some_ : v % 2 ^ 24 ≠ 0) : bitsOf 24 v ≠ [] := by
  obtain ⟨i, hi⟩ := Nat.exists_testBit_of_ne_zero some_
  rw [Nat.testBit_mod_two_pow, Bool.and_eq_true, decide_eq_true_eq] at hi
  refine List.ne_nil_of_mem (a := i) (List.mem_filter.2 ⟨List.mem_range.2 hi.1, ?_⟩)
  have set := hi.2
  rw [Nat.testBit_eq_decide_div_mod_eq, decide_eq_true_eq] at set
  simp [bitOf, fld, set]

/-- With heads present and nothing read yet, the first record is asked for, and it shows nowhere. -/
theorem nextRead_of_unread (heads : d.present b % 2 ^ 24 ≠ 0) (unread : ∀ h, mapGet [] (d.ls b).hmem h = []) :
    ((d.nextRead b).ls b).hmemReq.isSome = true ∧ ∀ a, (d.nextRead b).rd a = d.rd a := by
  have next : ((bitsOf 24 (d.present b)).find? (fun h => decide ((mapGet [] (d.ls b).hmem h).length < 8192))).isSome = true := by
    obtain ⟨h, hs, e⟩ := List.exists_cons_of_ne_nil (bitsOf_ne_nil heads)
    rw [e, List.find?_isSome]
    exact ⟨h, List.mem_cons_self .., by simp [unread]⟩
  obtain ⟨h, found⟩ := Option.isSome_iff_exists.1 next
  unfold nextRead
  simp only [found]
  obtain ⟨n, e⟩ := laceSend_ls (d.setLs b { d.ls b with hmemReq := some (h, (mapGet [] (d.ls b).hmem h).length, 256) }) b 3 0x20
    (leBytes 1 h ++ leBytes 1 0 ++ leBytes 2 (mapGet [] (d.ls b).hmem h).length ++ leBytes 2 256 ++ leBytes 2 0)
  exact ⟨by rw [e, ls_setLs_same]; rfl, fun a => (rd_laceSend _ _ _ _ _ a).trans rfl⟩

theorem setupAck_shown (step : d.portState b = 4) (lines : 256 ≤ numAt f 4 2) (heads : numAt f 0 4 % 2 ^ 24 ≠ 0)
    (unread : ∀ h, mapGet [] (d.ls b).hmem h = []) : (d.setupAck b f).portState b = 5 ∧
      (d.setupAck b f).rd (Reg.LACE_HEADS_PRESENT b) = numAt f 0 4 ∧ (d.setupAck b f).rd (Reg.LACE_BUF_LINES b) = numAt f 4 2 ∧
      ((d.setupAck b f).ls b).hmemReq.isSome = true := by
  rw [setupAck_of_step step, if_neg (Nat.not_lt.2 lines)]
  have apart : Reg.LACE_HEADS_PRESENT b ≠ Reg.LACE_BUF_LINES b ∧ Reg.LACE_HEADS_PRESENT b ≠ Reg.LACE_STATUS b ∧
      Reg.LACE_BUF_LINES b ≠ Reg.LACE_STATUS b := by
    unfold Reg.LACE_HEADS_PRESENT Reg.LACE_BUF_LINES Reg.LACE_STATUS
    omega
  obtain ⟨presentLines, presentStatus, linesStatus⟩ := apart
  have headsShown : ((d.setupShown b f).setPortState b 5).rd (Reg.LACE_HEADS_PRESENT b) = numAt f 0 4 :=
    (rd_wr_ne _ _ presentStatus).trans ((rd_wr_ne _ _ presentLines).trans
      ((rd_wr_same _ _ _).trans (Nat.mod_eq_of_lt ((numAt_lt _ _ _).trans_eq (by decide)))))
  have linesShown : ((d.setupShown b f).setPortState b 5).rd (Reg.LACE_BUF_LINES b) = numAt f 4 2 :=
    (rd_wr_ne _ _ linesStatus).trans ((rd_wr_same _ _ _).trans (Nat.mod_eq_of_lt ((numAt_lt _ _ _).trans (by decide))))
  obtain ⟨asked, same⟩ := nextRead_of_unread (d := (d.setupShown b f).setPortState b 5) (b := b) (by unfold present; rwa [headsShown]) unread
  refine ⟨?_, (same _).trans headsShown, (same _).trans linesShown, asked⟩
  exact (congrArg (fld · 0 4) (same _)).trans (portState_setPortState _ _ (by decide))

end

/-! ## RELINK and SENSE_REQ (R296, R301) -/

theorem opRelink_shown (small : b < 8) (hold : d.inHold = true) (held : d.quarantined b = true) : (d.opRelink b).portState b = 1 ∧
    (d.opRelink b).rdF (Reg.LACE_STATUS b) 12 4 = 0 ∧ ((d.opRelink b).ls b).key = none := by
  rw [opRelink_of_hold hold, if_pos held]
  have apart : Reg.LACE_STATUS b ≠ Reg.ARB_ALIVE := by unfold Reg.LACE_STATUS Reg.ARB_ALIVE; omega
  have upped : ∀ x : Dev, (x.portUp (12 + b)).rd (Reg.LACE_STATUS b) = x.rd (Reg.LACE_STATUS b) := fun x => by
    unfold portUp
    split
    · exact x.rd_wrBit_ne _ _ apart
    · rfl
  have reads : ∀ lo n, (((((d.wrF (Reg.LACE_STATUS b) 12 4 0).setPortState b 1).portUp (12 + b)).setLs b
      { bucketAt := (((d.wrF (Reg.LACE_STATUS b) 12 4 0).setPortState b 1).portUp (12 + b)).tc }).rdF (Reg.LACE_STATUS b) lo n) =
      ((d.wrF (Reg.LACE_STATUS b) 12 4 0).setPortState b 1).rdF (Reg.LACE_STATUS b) lo n := fun lo n => congrArg (fld · lo n) (upped _)
  refine ⟨(reads 0 4).trans (portState_setPortState _ _ (by decide)), (reads 12 4).trans ?_, by rw [ls_setLs_same]⟩
  exact (rdF_wrF_other _ _ _ _ _ (by decide) (by decide)).trans (rdF_wrF_same _ _ _ _ _ (by decide))

/-- A sense request is noted. -/
def senseNoted (d : Dev) (b h : Nat) : Dev :=
  (d.setLs b { d.ls b with senseReq := some h, senseWait := none }).wrBit (Reg.LACE_SENSE_STAT b) 16 false

theorem startSense_eq (d : Dev) (b h : Nat) : d.startSense b h =
    ((d.senseNoted b h).wrBit (Reg.LACE_CTRL b) 1 false).laceSend b 3 0x21 (leBytes 1 h ++ List.replicate 7 0) := rfl

theorem startSense_shown (d : Dev) (b h : Nat) :
    ((d.startSense b h).ls b).senseReq = some h ∧ (d.startSense b h).bit (Reg.LACE_SENSE_STAT b) 16 = false := by
  have apart : Reg.LACE_SENSE_STAT b ≠ Reg.LACE_CTRL b := by unfold Reg.LACE_SENSE_STAT Reg.LACE_CTRL; omega
  rw [startSense_eq]
  obtain ⟨n, e⟩ := ((d.senseNoted b h).wrBit (Reg.LACE_CTRL b) 1 false).laceSend_ls b 3 0x21 (leBytes 1 h ++ List.replicate 7 0)
  have kept : ((d.senseNoted b h).wrBit (Reg.LACE_CTRL b) 1 false).ls b = { d.ls b with senseReq := some h, senseWait := none } := by
    rw [ls_wrBit, senseNoted, ls_wrBit, ls_setLs_same]
  refine ⟨by rw [e, kept], ?_⟩
  refine (congrArg (bitOf · 16) (rd_laceSend _ _ _ _ _ _)).trans ((bit_wrBit_ne _ _ _ _ apart).trans ?_)
  exact bit_wrBit_same _ _ _ _ (by decide)

end

/-! ## Lane tests (R328, R330) -/

section
variable {d : Dev} {l : Nat}

theorem laneStop_of_down (down : d.laneUp l = false) : d.laneStop l = d := if_neg (ne_true_of_eq_false down)

/-- A field of a test lies in its six bits. -/
theorem fld_mod_64 (v : Nat) : fld (v % 64) 0 2 = fld v 0 2 ∧ fld (v % 64) 2 3 = fld v 2 3 ∧ fld (v % 64) 5 1 = fld v 5 1 := by
  unfold fld
  omega

/-- The test of a lane that is down only shows. -/
theorem testTaken_of_down {new : Nat} (down : d.laneUp l = false) :
    d.testTaken d l new = (d.wr (Reg.LANE_LN_TEST l) new).wrBit (Reg.LANE_LN_STATUS l) 15 (new != 0) := by
  have apart : Reg.LANE_LN_STATUS l ≠ Reg.LANE_LN_TEST l := by unfold Reg.LANE_LN_STATUS Reg.LANE_LN_TEST; omega
  have still : ((d.wr (Reg.LANE_LN_TEST l) new).wrBit (Reg.LANE_LN_STATUS l) 15 (new != 0)).laneUp l = false :=
    (bit_wrBit_other _ _ _ _ (by decide) (by decide)).trans ((congrArg (bitOf · 3) (rd_wr_ne _ _ apart)).trans down)
  unfold testTaken
  dsimp only
  rw [laneStop_of_down still, ite_self]

end

/-! ## Eye scans (R326, R327, R491) -/

section
variable {d : Dev}

theorem scanNext_of_running {p : Nat × Bool} (runs : d.lane.scan = some p) : d.scanNext = d := if_pos (by rw [runs]; rfl)

theorem scanNext_of_none (idle : d.lane.scan = none) (host : d.lane.hostNext = none) (queue : d.lane.queue = []) : d.scanNext = d := by
  unfold scanNext
  rw [idle, host, queue]
  rfl

/-- No scan runs any more. -/
def scanEnded (d : Dev) : Dev := { d with lane := { d.lane with scan := none, scanDown := false } }

theorem scanEnded_lane (d : Dev) : d.scanEnded.lane = { d.lane with scan := none, scanDown := false } := rfl

/-- The host's scan of a lane that stayed up ends with its eye, and no scan follows. -/
theorem opEyeDone_of_last {l w h : Nat} (runs : d.lane.scan = some (l, true)) (steady : d.lane.scanDown = false)
    (up : d.laneUp l = true) (host : d.lane.hostNext = none) (queue : d.lane.queue = []) : d.opEyeDone w h =
      ((d.eyeShown l w h false).scanEnded.wrBit Reg.LANE_EYE_GO 0 false).wr Reg.LANE_EYE_STATUS (l * 0x100) := by
  have down : (d.lane.scanDown || !d.laneUp l) = false := by rw [steady, up]; rfl
  have shown : (d.eyeShown l w h false).lane = d.lane := by simp [eyeShown]
  have last : (d.eyeShown l w h false).lane.hostNext.isNone = true := by rw [shown, host]; rfl
  have ended : d.opEyeDone w h =
      (((d.eyeShown l w h false).scanEnded.wrBit Reg.LANE_EYE_GO 0 false).wr Reg.LANE_EYE_STATUS (l * 0x100)).scanNext := by
    unfold eyeShown at last
    unfold opEyeDone
    rw [runs]
    simp only [down, Bool.false_eq_true, if_false, if_true, last, Bool.and_self]
    rfl
  have lane : (((d.eyeShown l w h false).scanEnded.wrBit Reg.LANE_EYE_GO 0 false).wr Reg.LANE_EYE_STATUS (l * 0x100)).lane =
      { d.lane with scan := none, scanDown := false } := by rw [wr_lane, wrBit_lane, scanEnded_lane, shown]
  rw [ended]
  exact scanNext_of_none (by rw [lane]) (by rw [lane]; exact host) (by rw [lane]; exact queue)

end

end Dev

/-- Settles O59: each row by what its operation shows in its case. -/
theorem linkAndLaneRowsComplete : Obligations.LinkAndLaneRowsComplete := by
  unfold Obligations.LinkAndLaneRowsComplete
  refine ⟨fun s b runs => ⟨fun enabled trained lanes => ?_, fun step logged => ?_, fun enabled down => ?_,
      fun inhibited up free lanes => ?_, fun calm => ?flood⟩,
    fun s b f body d runs => ⟨fun echo step more sent small => ?echo, fun auth step asked key tag => ?_,
      fun setup step lines heads unread => ?_, fun hmem h a n asked length front => ?hmem⟩,
    fun s answers => ⟨fun b hold held => ?relink, fun b up idle unread => ?sense, fun l v open_ outside block lanes apart pattern down => ?test,
      fun free lane idle => ?go⟩,
    fun s runs => ⟨fun w h l scan steady up host queue => ?_, fun p scan => ?_⟩⟩
  · exact ⟨_, .of_withDev runs rfl rfl, Dev.opLinkUp_shown ⟨enabled, trained, lanes⟩⟩
  · refine .of_withDev runs rfl ((Dev.opStepTimeout_of_failing (.inr (.inl step))).trans ?_)
    rw [step]
    exact Dev.linkFail_of_logged logged
  · exact .of_withDev runs rfl (Dev.opLaceRetry_of_down ⟨enabled, down⟩)
  · exact .of_withDev runs rfl ((if_pos (by simp [inhibited])).trans (Dev.inhibitToken_of_up up free lanes))
  case flood =>
    obtain ⟨regs, tx, done, -⟩ := Dev.foldl_floodEnd_of_calm 8 calm
    exact ⟨_, .of_withDev runs rfl rfl, fun a => congrArg (fun m : NMap Word => (mapGet 0 m a).toNat) regs, tx, done⟩
  case echo =>
    exact ⟨_, .of_Frame echo runs rfl rfl, Dev.echoReply_shown sent step (Nat.mod_eq_of_lt small).symm more⟩
  · exact ⟨_, .of_Frame auth runs rfl rfl, Dev.authBody_shown step asked ⟨key, tag⟩⟩
  · exact ⟨_, .of_Frame setup runs rfl rfl, Dev.setupAck_shown step lines heads unread⟩
  case hmem =>
    classical
    exact .of_Frame hmem runs rfl ((Dev.hmemData_of_asked asked).trans (if_pos ⟨front, length⟩))
  case relink =>
    have row : exec (.relink b) s = s.onWrite (·.opRelink b) := rfl
    exact ⟨_, .of_onWrite answers row rfl, Dev.opRelink_shown b.isLt hold held⟩
  case sense =>
    have row : exec (.senseReq b) s = s.onWrite (·.opSenseReq b) := rfl
    refine ⟨_, .of_onWrite answers row ((Dev.opSenseReq_of_up up).trans (if_neg ?_)), Dev.startSense_shown _ _ _⟩
    simp [Dev.PortBusy, idle, unread]
  case test =>
    have row : exec (.laneTest l v) s = s.onWrite (·.opLaneTest l v.toNat) := rfl
    obtain ⟨loop, pat, rest⟩ := Dev.fld_mod_64 v.toNat
    have noPattern : ¬Dev.LoopWithPattern v.toNat := by
      rw [Dev.LoopWithPattern, loop, pat]
      omega
    have taken := Dev.opLaneTest_of_all (d := s.dev.dozeExit) (l := l) open_ (by simp [outside]; omega) noPattern (by omega) (by rwa [pat])
    rw [loop, pat, rest] at taken
    exact .of_onWrite answers row (taken.trans (Dev.testTaken_of_down down))
  case go =>
    have row : exec .eyeScanGo s = s.onWrite (·.opEyeGo 1) := rfl
    have good : ¬s.dev.dozeExit.EyeBad := not_or.2 ⟨ne_true_of_eq_false free, Nat.not_le.2 lane⟩
    exact .of_onWrite answers row (Dev.opEyeGo_of_idle good idle)
  · exact .of_withDev runs rfl (Dev.opEyeDone_of_last scan steady up host queue)
  · exact .of_withDev runs rfl (Dev.scanNext_of_running scan)

end Sys2Proof.Machine
end
